-- ==== Sys2Proof/Word.lean ====
section
/-! DEFINITION. The word types of the block (00 R9 to R11) and nothing else. -/

namespace Sys2Proof

/-- Eight bits, the unit every buffer and table memory of the block is held in. -/
abbrev Byte := BitVec 8

/-- A 32-bit set-up register (20 R601). -/
abbrev Word := BitVec 32

/-- A sparse map: the entries that differ from the default, by rising key. -/
abbrev SMap (α : Type) := List (Nat × α)

end Sys2Proof
end

