-- ==== Sys2Proof/Syntax.lean ====
section
/-! DEFINITION. The commands of the block: one constructor of `Instr` for every row of the opcode table. A work
order's constructor carries the 64-byte order (02 R61) as the device holds it at acceptance; the row fixes its opcode.
A row that is a step of the device's own engines or an act of the outside world carries what comes from outside the
state: the level of a contact, the bytes a DMA read returned, a measured value. -/

namespace Sys2Proof

/-- The three attachment points (02 R46). -/
inductive Master where
  | h0 | h1 | m0
deriving DecidableEq, Repr

/-- What a host's writes to its port's configuration space leave beside Bus Master Enable: Memory Space Enable (02 R46), MSI-X
Enable and Function Mask, and the power state D3hot (02 Table 2-1). -/
structure CfgSpace where
  mse : Bool
  msixEn : Bool
  funcMask : Bool
  d3hot : Bool
deriving DecidableEq, Repr

/-- How a register is read (20 R601, 02 R50): 32 bits; `len` bytes from byte `byte` of it; the naturally aligned 64 bits
that hold it; or, on M0, `n` words from it on. -/
inductive RegAcc where
  | word
  | part (byte len : Nat)
  | wide
  | words (n : Nat)
deriving DecidableEq, Repr

/-- The payload buffer of a pointer payload (02 R63): not read yet, read in vain, or its bytes. For ELS_XFER it is the answer on
the bus (04 R150): none given, no acknowledgement, or the bytes read; `held` where SDA was found held low, with whether nine clock pulses freed it and
the bytes read then. For READ_LOG_BLOCK `dramError` says that a DRAM read of the block failed and failed again when retried (17 R542), with the
channel group and the address of the transfer. -/
inductive PtrData where
  | later
  | failed
  | bytes (b : List Byte)
  | held (freed : Bool) (b : List Byte)
  | dramError (group addr : Nat)
deriving DecidableEq, Repr

/-- A work order (02 Table 2-8) with where it came from: its master, its command ring and its index there, the bytes
the device reads for a pointer payload, and whether a DMA write of its result succeeds (02 R64). -/
structure Order where
  master : Master
  ring : Nat
  index : BitVec 16
  flags : BitVec 16
  tag : BitVec 16
  rsvd : BitVec 16
  object : BitVec 32
  ownGen : BitVec 32
  resultAddr : BitVec 64
  payload : BitVec 320
  data : PtrData
  resultOk : Bool
deriving DecidableEq, Repr

/-- What the memory self-test of a cold start finds (03 Table 3-7 step 5) that fails no start: the lathes whose mandrel fails, each
with the signature it computed (10 R371), and the collective units that fail their march (17 R545). -/
structure SelfTest where
  lathes : List (Nat × BitVec 32)
  units : BitVec 16
deriving DecidableEq, Repr

/-- What a lane calibration or recalibration ends with (04 Table 4-3): the cause of its failure (0: none), whether it
stops at STATE 2 for want of a far-end signal, the transmit set that C3 measured, the equaliser C6 adapted, and the engine's
temperature. -/
structure LaneCal where
  cause : Nat
  awaiting : Bool
  tx : BitVec 32
  ctle : BitVec 8
  dfe : BitVec 8
  ffe : BitVec 128
  temp : Int
deriving DecidableEq, Repr

/-- A marker as a receiver sees it (05 R167): the PCS lane on its physical lane (0 on a native one), the bit position in that
PCS lane's stream since the CDR locked, the 257 bits of a native marker block, and whether a standard port's pattern matches as
its clause permits. -/
structure MarkerSeen where
  pcsLane : Nat
  pos : Nat
  block : BitVec 257
  clause : Bool
deriving DecidableEq, Repr

/-- What a port's receivers count in a millisecond of DT (05 R172, R173): codewords, corrected and not correctable, and
for each lane position the symbols corrected, its uncorrectable codewords and the symbols received. -/
structure MsCounts where
  codewords : Nat
  corrected : Nat
  uncorrectable : Nat
  lanes : List (Nat × Nat × Nat)
deriving DecidableEq, Repr

/-- What a PTP port sends (06 Table 6-5): one of the periodic messages of a boundary clock, or the oldest message that waits for
the port. -/
inductive PtpKind where
  | sync | announce | delayReq | queued
deriving DecidableEq, Repr

/-- What goes wrong with a billet as a reference to it is released (09 Table 9-5): nothing, the pointer reads as another
one, or its record fails parity. -/
inductive BilletUpset where
  | none
  | pointer (p : BitVec 22)
  | parity
deriving DecidableEq, Repr

/-- What goes wrong with a billet as a claim is granted one (09 Table 9-5): nothing, a map bit reads free for one that is allocated, or
the parity of a free billet's record fails. -/
inductive GrantUpset where
  | none
  | map (p : BitVec 22)
  | parity (p : BitVec 22)
deriving DecidableEq, Repr

/-- What goes wrong as a lathe runs an instruction (10 R351, R372): nothing; a parity error on the read of a register, of the
memory word it reads, or on its fetch from the program bank, with the slices tried until a good copy is found (32: none); a
machine check with its cause and its microword. -/
inductive LUpset where
  | none
  | reg (r : BitVec 5)
  | mem
  | fetch (tried : Nat)
  | mcheck (cause : Nat) (word : Nat)
deriving DecidableEq, Repr

/-- One cycle of an arbiter instance (14 R463, R464): the request lines of its requesters, by index, and whether the cycle is
reserved (Table 14-1). -/
structure ArbCycle where
  lines : BitVec 13
  reserved : Bool
deriving DecidableEq, Repr

/-- A transfer through a DRAM channel group (14 Table 14-1): the group, and the cycles of its arbiter from its last transfer up to
the grant. -/
structure DramUse where
  group : BitVec 3
  cycles : List ArbCycle
deriving DecidableEq, Repr

/-- An instruction of the action ISA as a lathe runs it (10 R360, Table 10-4): OPC and FN as they stand in the word. The spec gives
no encodings of them but the OPC of CRC (0x31, Table 10-11), so the fields come decoded as well: `useImm` selects the immediate form, `lo` and `len` are a bit field, `width` the bytes accessed,
`sel` a container, decision field or table, `flag` the direction of a copy or that a head edit inserts, `badFn` that FN is
reserved; `stall` counts the microcycles that LKUP waits, `cycles` are those of the arbiter of a shared resource it uses.
-/
structure LInsn where
  lathe : Nat
  opc : BitVec 6
  fn : BitVec 11
  rd : BitVec 5
  ra : BitVec 5
  rb : BitVec 5
  imm : BitVec 16
  useImm : Bool
  lo : Nat
  len : Nat
  width : Nat
  sel : Nat
  flag : Bool
  badFn : Bool
  stall : Nat
  cycles : List ArbCycle
  upset : LUpset
deriving DecidableEq, Repr

/-- The commands: one constructor a row of the opcode table. A work order's constructor carries the order; that of a row of the
action ISA (10 R360) the instruction and its lathe; that of a step or an outside act what comes with it, as its meaning says. -/
inductive Instr where
  /-- NOP (R84). -/
  | nop (o : Order)
  /-- READ_OWNERSHIP (R84). -/
  | readOwnership (o : Order)
  /-- HANDOVER_OFFER (R85). -/
  | handoverOffer (o : Order)
  /-- HANDOVER_ACCEPT (R86). -/
  | handoverAccept (o : Order)
  /-- HANDOVER_WITHDRAW (R88). -/
  | handoverWithdraw (o : Order)
  /-- RELEASE (R89). -/
  | release (o : Order)
  /-- RESERVED_OPCODE_ORDER (R15). -/
  | reservedOpcodeOrder (o : Order) (opcode : BitVec 16)
  /-- READ_START (R107). -/
  | readStart (o : Order)
  /-- START (R109). -/
  | start (o : Order)
  /-- ENTER_SERVICE (R111). -/
  | enterService (o : Order)
  /-- ENTER_PROBE (R111). -/
  | enterProbe (o : Order)
  /-- READ_LANE (R133). -/
  | readLane (o : Order)
  /-- READ_OE (R155). -/
  | readOe (o : Order)
  /-- EYE_SCAN (R135). -/
  | eyeScan (o : Order)
  /-- RAW_CAPTURE (R138). -/
  | rawCapture (o : Order)
  /-- PORT_SET (R156). -/
  | portSet (o : Order)
  /-- LANE_SET (R127). -/
  | laneSet (o : Order)
  /-- RECALIBRATE (R132). -/
  | recalibrate (o : Order)
  /-- SPARE (R140). -/
  | spare (o : Order)
  /-- UNSPARE (R143). -/
  | unspare (o : Order)
  /-- OE_SET (R159). -/
  | oeSet (o : Order)
  /-- XP_SET (R153). -/
  | xpSet (o : Order)
  /-- ELS_XFER (R150). -/
  | elsXfer (o : Order)
  /-- READ_PCS (R188). -/
  | readPcs (o : Order)
  /-- READ_PM (R189). -/
  | readPm (o : Order)
  /-- READ_NEIGHBOUR (R190). -/
  | readNeighbour (o : Order)
  /-- PCS_SET (R187). -/
  | pcsSet (o : Order)
  /-- DEFECT_ACK (R175). -/
  | defectAck (o : Order)
  /-- READ_TB (R219). -/
  | readTb (o : Order)
  /-- READ_LTT (R219). -/
  | readLtt (o : Order)
  /-- READ_LOG_BLOCK (R219). -/
  | readLogBlock (o : Order)
  /-- READ_CERT (R216). -/
  | readCert (o : Order)
  /-- TB_SET (R197). -/
  | tbSet (o : Order)
  /-- TB_ADJUST (R220). -/
  | tbAdjust (o : Order)
  /-- PTP_PORT_SET (R203). -/
  | ptpPortSet (o : Order)
  /-- LTT_SET (R221). -/
  | lttSet (o : Order)
  /-- LOG_SET (R218). -/
  | logSet (o : Order)
  /-- LOG_CLOSE (R214). -/
  | logClose (o : Order)
  /-- LOG_RELEASE (R218). -/
  | logRelease (o : Order)
  /-- READ_VERSIONS (R260). -/
  | readVersions (o : Order)
  /-- READ_PARSER (R260). -/
  | readParser (o : Order)
  /-- READ_STAGE (R260). -/
  | readStage (o : Order)
  /-- READ_HOSTMAP (R260). -/
  | readHostmap (o : Order)
  /-- READ_SPRAY_RX (R260). -/
  | readSprayRx (o : Order)
  /-- READ_MCAST (R260). -/
  | readMcast (o : Order)
  /-- PARSER_SET (R224). -/
  | parserSet (o : Order)
  /-- PORT_PARSE_SET (R223). -/
  | portParseSet (o : Order)
  /-- STAGE_SET (R232). -/
  | stageSet (o : Order)
  /-- STAGE_OPEN (R238). -/
  | stageOpen (o : Order)
  /-- COMMIT (R241). -/
  | commit (o : Order)
  /-- STAGE_DISCARD (R246). -/
  | stageDiscard (o : Order)
  /-- HOSTMAP_SET (R235). -/
  | hostmapSet (o : Order)
  /-- DEAL_SET (R250). -/
  | dealSet (o : Order)
  /-- SPRAY_SET (R252). -/
  | spraySet (o : Order)
  /-- SPRAY_GROUP_SET (R254). -/
  | sprayGroupSet (o : Order)
  /-- MCAST_SET (R257). -/
  | mcastSet (o : Order)
  /-- READ_TABLES (R318). -/
  | readTables (o : Order)
  /-- EM_LOOKUP (R318). -/
  | emLookup (o : Order)
  /-- LPM_LOOKUP (R318). -/
  | lpmLookup (o : Order)
  /-- TABLE_DUMP (R313). -/
  | tableDump (o : Order)
  /-- TABLE_DEF (R269). -/
  | tableDef (o : Order)
  /-- EM_WRITE (R286). -/
  | emWrite (o : Order)
  /-- LPM_WRITE (R297). -/
  | lpmWrite (o : Order)
  /-- ACL_WRITE (R300). -/
  | aclWrite (o : Order)
  /-- ACTION_WRITE (R303). -/
  | actionWrite (o : Order)
  /-- TABLE_BULK (R312). -/
  | tableBulk (o : Order)
  /-- LEARN_SET (R289). -/
  | learnSet (o : Order)
  /-- AGE_SET (R291). -/
  | ageSet (o : Order)
  /-- SHADOW_SET (R307). -/
  | shadowSet (o : Order)
  /-- FLUSH_LEARNED (R294). -/
  | flushLearned (o : Order)
  /-- READ_BUFFER (R346). -/
  | readBuffer (o : Order)
  /-- READ_QUEUE (R346). -/
  | readQueue (o : Order)
  /-- READ_PG (R346). -/
  | readPg (o : Order)
  /-- POOL_SET (R347). -/
  | poolSet (o : Order)
  /-- QUEUE_ADMIT_SET (R347). -/
  | queueAdmitSet (o : Order)
  /-- PG_SET (R347). -/
  | pgSet (o : Order)
  /-- DRAM_SET (R342). -/
  | dramSet (o : Order)
  /-- READ_LATHE (R379). -/
  | readLathe (o : Order)
  /-- READ_BANK (R379). -/
  | readBank (o : Order)
  /-- SHM_READ (R379). -/
  | shmRead (o : Order)
  /-- READ_CONTROL_STORE (R379). -/
  | readControlStore (o : Order)
  /-- IMAGE_LOAD (R356). -/
  | imageLoad (o : Order)
  /-- BANK_CLEAR (R358). -/
  | bankClear (o : Order)
  /-- SHM_WRITE (R364). -/
  | shmWrite (o : Order)
  /-- LATHE_ISOLATE (R378). -/
  | latheIsolate (o : Order)
  /-- LATHE_RESTORE (R376). -/
  | latheRestore (o : Order)
  /-- MICROCODE_RELOAD (R375). -/
  | microcodeReload (o : Order)
  /-- MANDREL_TEST (R370). -/
  | mandrelTest (o : Order) (res : Nat)
  /-- CS_INJECT (R379). -/
  | csInject (o : Order)
  /-- READ_SCHED (R405). -/
  | readSched (o : Order)
  /-- READ_GCL (R405). -/
  | readGcl (o : Order)
  /-- READ_SHAPER (R405). -/
  | readShaper (o : Order)
  /-- QUEUE_SCHED_SET (R405). -/
  | queueSchedSet (o : Order)
  /-- SHAPER_SET (R395). -/
  | shaperSet (o : Order)
  /-- GCL_SET (R390). -/
  | gclSet (o : Order)
  /-- GCL_CANCEL (R405). -/
  | gclCancel (o : Order)
  /-- PFC_SET (R405). -/
  | pfcSet (o : Order)
  /-- ESC_SET (R401). -/
  | escSet (o : Order)
  /-- STORM_RESTORE (R400). -/
  | stormRestore (o : Order)
  /-- READ_SEQ (R432). -/
  | readSeq (o : Order)
  /-- READ_FANOUT (R432). -/
  | readFanout (o : Order)
  /-- READ_GRID (R422). -/
  | readGrid (o : Order)
  /-- READ_TRIM (R432). -/
  | readTrim (o : Order)
  /-- READ_GROUP_CONFIG (R432). -/
  | readGroupConfig (o : Order)
  /-- SEQ_GROUP_SET (R418). -/
  | seqGroupSet (o : Order)
  /-- FANOUT_GROUP_SET (R423). -/
  | fanoutGroupSet (o : Order)
  /-- TRIM_SET (R428). -/
  | trimSet (o : Order)
  /-- TRIM_MEASURE (R429). -/
  | trimMeasure (o : Order)
  /-- READ_CONTEXT (R458). -/
  | readContext (o : Order)
  /-- READ_CU (R458). -/
  | readCu (o : Order)
  /-- CONTEXT_SET (R459). -/
  | contextSet (o : Order)
  /-- CONTEXT_MOVE (R456). -/
  | contextMove (o : Order)
  /-- CONTEXT_RESET (R458). -/
  | contextReset (o : Order)
  /-- COLL_SET (R458). -/
  | collSet (o : Order)
  /-- READ_ARB (R472). -/
  | readArb (o : Order)
  /-- ARB_SET (R467). -/
  | arbSet (o : Order)
  /-- ARB_COMMIT (R468). -/
  | arbCommit (o : Order)
  /-- READ_PORT_COUNTERS (R484). -/
  | readPortCounters (o : Order)
  /-- READ_SEL (R487). -/
  | readSel (o : Order)
  /-- READ_HIST (R483). -/
  | readHist (o : Order)
  /-- READ_SKETCH (R483). -/
  | readSketch (o : Order)
  /-- READ_BW (R488). -/
  | readBw (o : Order)
  /-- READ_EXPORT (R489). -/
  | readExport (o : Order)
  /-- READ_CAPTURE (R493). -/
  | readCapture (o : Order)
  /-- SEL_SET (R487). -/
  | selSet (o : Order)
  /-- SEL_CTRL (R487). -/
  | selCtrl (o : Order)
  /-- READ_CLEAR (R483). -/
  | readClear (o : Order)
  /-- HIST_SET (R480). -/
  | histSet (o : Order)
  /-- SKETCH_SET (R481). -/
  | sketchSet (o : Order)
  /-- EXPORT_SET (R489). -/
  | exportSet (o : Order)
  /-- EV_SET (R482). -/
  | evSet (o : Order)
  /-- BW_SET (R488). -/
  | bwSet (o : Order)
  /-- CLASS_SET (R492). -/
  | classSet (o : Order)
  /-- CAPTURE_SET (R493). -/
  | captureSet (o : Order)
  /-- CAPTURE_FREEZE (R493). -/
  | captureFreeze (o : Order)
  /-- CAPTURE_DRAIN (R493). -/
  | captureDrain (o : Order)
  /-- EXPORT_TEMPLATE (R497). -/
  | exportTemplate (o : Order)
  /-- READ_POWER (R534). -/
  | readPower (o : Order)
  /-- READ_PHASE (R534). -/
  | readPhase (o : Order)
  /-- READ_THERMAL (R534). -/
  | readThermal (o : Order)
  /-- PHASE_SET (R514). -/
  | phaseSet (o : Order)
  /-- PHASE_SELECT (R514). -/
  | phaseSelect (o : Order)
  /-- PHASE_CANCEL (R534). -/
  | phaseCancel (o : Order)
  /-- POWER_SET (R534). -/
  | powerSet (o : Order)
  /-- READ_ERRORS (R554). -/
  | readErrors (o : Order)
  /-- READ_FATAL (R553). -/
  | readFatal (o : Order)
  /-- ERR_CLOSE (R554). -/
  | errClose (o : Order)
  /-- CU_ISOLATE (R544). -/
  | cuIsolate (o : Order)
  /-- CU_RESTORE (R545). -/
  | cuRestore (o : Order)
  /-- ADD (R360). -/
  | add (i : LInsn)
  /-- SUB (R360). -/
  | sub (i : LInsn)
  /-- AND (R360). -/
  | and (i : LInsn)
  /-- OR (R360). -/
  | or (i : LInsn)
  /-- XOR (R360). -/
  | xor (i : LInsn)
  /-- SHL (R360). -/
  | shl (i : LInsn)
  /-- SHR (R360). -/
  | shr (i : LInsn)
  /-- SAR (R360). -/
  | sar (i : LInsn)
  /-- CMP (R360). -/
  | cmp (i : LInsn)
  /-- MUL (R360). -/
  | mul (i : LInsn)
  /-- MULH (R360). -/
  | mulh (i : LInsn)
  /-- EXT (R360). -/
  | ext (i : LInsn)
  /-- INS (R360). -/
  | ins (i : LInsn)
  /-- BEQ (R360). -/
  | beq (i : LInsn)
  /-- BNE (R360). -/
  | bne (i : LInsn)
  /-- BLT (R360). -/
  | blt (i : LInsn)
  /-- BGE (R360). -/
  | bge (i : LInsn)
  /-- BLTU (R360). -/
  | bltu (i : LInsn)
  /-- BGEU (R360). -/
  | bgeu (i : LInsn)
  /-- JMP (R360). -/
  | jmp (i : LInsn)
  /-- LDL (R360). -/
  | ldl (i : LInsn)
  /-- STL (R360). -/
  | stl (i : LInsn)
  /-- LDC (R360). -/
  | ldc (i : LInsn)
  /-- LDS (R363). -/
  | lds (i : LInsn)
  /-- STS (R363). -/
  | sts (i : LInsn)
  /-- FADD (R364). -/
  | fadd (i : LInsn)
  /-- CAS (R364). -/
  | cas (i : LInsn)
  /-- SWAP (R364). -/
  | swap (i : LInsn)
  /-- HVL (R353). -/
  | hvl (i : LInsn)
  /-- HVS (R353). -/
  | hvs (i : LInsn)
  /-- PBL (R354). -/
  | pbl (i : LInsn)
  /-- PBS (R354). -/
  | pbs (i : LInsn)
  /-- HEDIT (R354). -/
  | hedit (i : LInsn)
  /-- DGET (R353). -/
  | dget (i : LInsn)
  /-- DSET (R353). -/
  | dset (i : LInsn)
  /-- LKUP (R360). -/
  | lkup (i : LInsn)
  /-- BCOPY (R360). -/
  | bcopy (i : LInsn)
  /-- CRC (R360). -/
  | crc (i : LInsn)
  /-- SHA (R360). -/
  | sha (i : LInsn)
  /-- EXIT (R354). -/
  | exit (i : LInsn)
  /-- MCHECK_RECOVERY_DONE (R373). -/
  | mcheckRecoveryDone (k cause : Nat)
  /-- LATHE_DEAL (R247). -/
  | latheDeal (slice : Nat)
  /-- LATHE_RESULT_RELEASE (R248). -/
  | latheResultRelease (slice bucket : Nat)
  /-- LATHE_TIMEOUT_SKIP (R249). -/
  | latheTimeoutSkip (slice bucket : Nat)
  /-- DEAL_DRAIN_MARKER_DONE (R250). -/
  | dealDrainMarkerDone (k : Nat)
  /-- LATHE_REDIRECT_DONE (R375). -/
  | latheRedirectDone (slice : Nat) (bad : BitVec 6)
  /-- IMAGE_LOAD_DONE (R356). -/
  | imageLoadDone (b ok : Bool)
  /-- CLAIM_WRITE (R77). -/
  | claimWrite (m : Master) (v : Word)
  /-- RENEW_WRITE (R80). -/
  | renewWrite (m : Master) (v : Word)
  /-- LEASE_LOW (R80). -/
  | leaseLow
  /-- LEASE_EXPIRED (R81). -/
  | leaseExpired
  /-- EXPIRY_DRAIN_END (R81). -/
  | expiryDrainEnd
  /-- OFFER_LAPSED (R88). -/
  | offerLapsed
  /-- HANDOVER_CUT (R87). -/
  | handoverCut
  /-- RELEASE_CUT (R89). -/
  | releaseCut
  /-- DOORBELL_WRITE (R72). -/
  | doorbellWrite (m : Master) (page : Nat) (v : BitVec 64) (wide : Bool)
  /-- M0_DOORBELL (R607). -/
  | m0Doorbell (v : Word)
  /-- ORDER_FETCH (R73). -/
  | orderFetch (m : Master) (n : Nat) (bits : Option (BitVec 512)) (data : PtrData) (resultOk : Bool) (test : Nat)
  /-- PAYLOAD_DMA_DONE (R68). -/
  | payloadDmaDone (i : Nat) (data : PtrData)
  /-- RING_FAULT (R58). -/
  | ringFault (m : Master) (n : Nat)
  /-- MSIX_MODERATION_TIMER (R74). -/
  | msixModerationTimer (m : Master) (v : Nat)
  /-- RING_CTRL_WRITE (R55). -/
  | ringCtrlWrite (m : Master) (n : Nat) (v : Word)
  /-- PORT_INFO_READ (R13). -/
  | portInfoRead (m : Master) (a : RegAcc)
  /-- RING_STATUS_READ (R13). -/
  | ringStatusRead (m : Master) (n : Nat) (a : RegAcc)
  /-- FP_ACTIVE_0_READ (R43). -/
  | fpActive0Read (m : Master) (a : RegAcc)
  /-- FP_COMMIT_0_READ (R43). -/
  | fpCommit0Read (m : Master) (a : RegAcc)
  /-- DT_SNAP_0_READ (R196). -/
  | dtSnap0Read (m : Master) (a : RegAcc)
  /-- LASER_ALARM_CLEAR (R146). -/
  | laserAlarmClear (m : Master) (v : Word)
  /-- FLOW_LATCH_CLEAR (R524). -/
  | flowLatchClear (m : Master)
  /-- TRAYSTOP_LATCH_CLEAR (R524). -/
  | traystopLatchClear (m : Master)
  /-- CRITTEMP_LATCH_CLEAR (R519). -/
  | crittempLatchClear (m : Master)
  /-- TRAY_BUS_FAULT_CLEAR (R530). -/
  | trayBusFaultClear (m : Master)
  /-- FATAL_LATCH_CLEAR (R553). -/
  | fatalLatchClear (m : Master)
  /-- REGISTER_WRITE (R53). -/
  | registerWrite (m : Master) (off : Nat) (ws : List Word) (whole : Bool)
  /-- VAUX_POWER_UP (R522). -/
  | vauxPowerUp (straps : BitVec 4) (flowBad trayBad pwrBad : Bool)
  /-- VAUX_LOST (R564). -/
  | vauxLost
  /-- V48_INPUT_LOST (R500). -/
  | v48InputLost (cv : Nat)
  /-- PWRGOOD_LOST (R524). -/
  | pwrgoodLost (chatter : Bool)
  /-- POWER_CONDITIONS_HELD (R99). -/
  | powerConditionsHeld
  /-- RAILS_IN_REGULATION (R97). -/
  | railsInRegulation
  /-- SYSRESET_N (R118). -/
  | sysresetN
  /-- SYSRESET_DEASSERT (R568). -/
  | sysresetDeassert (straps : BitVec 4)
  /-- PERST_N_ASSERT (R48). -/
  | perstNAssert (m : Master)
  /-- PCIE_LINK_DOWN (R48). -/
  | pcieLinkDown (m : Master)
  /-- PCIE_LINK_UP (R101). -/
  | pcieLinkUp (m : Master) (rate width : Nat)
  /-- BUS_MASTER_ENABLE_SET (R46). -/
  | busMasterEnableSet (m : Master) (c : CfgSpace)
  /-- ENTDAA (R49). -/
  | entdaa (a : BitVec 7)
  /-- SETDASA (R49). -/
  | setdasa (target a : BitVec 7)
  /-- RSTDAA (R49). -/
  | rstdaa
  /-- GETPID (R49). -/
  | getpid
  /-- GETBCR (R49). -/
  | getbcr
  /-- GETDCR (R49). -/
  | getdcr
  /-- GETSTATUS (R49). -/
  | getstatus
  /-- ENEC (R49). -/
  | enec
  /-- DISEC (R49). -/
  | disec
  /-- TRAY_SETDASA (R528). -/
  | traySetdasa (target a : BitVec 7)
  /-- TRAY_ENTDAA (R528). -/
  | trayEntdaa (a : BitVec 7)
  /-- TRAY_RSTDAA (R528). -/
  | trayRstdaa
  /-- TRAY_GETPID (R528). -/
  | trayGetpid
  /-- TRAY_GETSTATUS (R528). -/
  | trayGetstatus
  /-- TRAY_ENEC (R528). -/
  | trayEnec
  /-- TRAY_DISEC (R528). -/
  | trayDisec
  /-- TRAY_REGISTER_WRITE (R529), with the bytes that a private read following it returns (R528). -/
  | trayRegisterWrite (index : Byte) (data : List Byte) (reads : Nat)
  /-- HEARTBEAT (R530). -/
  | heartbeat (v : Byte)
  /-- TRAY_BUS_FAULT (R527). -/
  | trayBusFault
  /-- TRAY_ADVISORY (R530). -/
  | trayAdvisory (cause : Nat)
  /-- FLOWFAIL_FAULT (R525). -/
  | flowfailFault (chatter : Bool)
  /-- TRAYSTOP_FAULT (R525). -/
  | traystopFault (chatter : Bool)
  /-- CHATTER_END (R523). -/
  | chatterEnd (i : Nat) (faulted : Bool)
  /-- CRITTEMP_TRIP (R519). -/
  | crittempTrip
  /-- HALT_ENTRY_DONE (R531). -/
  | haltEntryDone
  /-- HALT_BLOCK_SIGNED (R531). -/
  | haltBlockSigned
  /-- DRAM_SELF_REFRESH (R531). -/
  | dramSelfRefresh
  /-- HALT_RAILS_RESTORED (R533). -/
  | haltRailsRestored
  /-- TEMP_SAMPLE (R518). -/
  | tempSample (temps : List Int)
  /-- THERMAL_CAP_STEP (R518). -/
  | thermalCapStep
  /-- POWER_CONTROL_TICK (R506). -/
  | powerControlTick (vin inputW loadW : Nat) (demand floors rails : List Nat)
  /-- SLOPE_TICK (R508). -/
  | slopeTick (want : Nat)
  /-- RAIL_LIMIT_EXCEEDED (R503). -/
  | railLimitExceeded (j current : Nat) (held : Bool)
  /-- PRERAMP_REQUEST (R509). -/
  | prerampRequest
  /-- RAMP_COMPLETE (R509). -/
  | rampComplete (n : Nat)
  /-- PHASE_TAKES_EFFECT (R514). -/
  | phaseTakesEffect
  /-- OPP_CHANGE_DONE (R512). -/
  | oppChangeDone
  /-- START_STEP_DONE (R102). -/
  | startStepDone (lanes : Bool) (fail : Option Nat) (cals : List (Nat × LaneCal)) (t : SelfTest)
  /-- LANE_SIGNAL_PRESENT (R130). -/
  | laneSignalPresent (p : Nat) (power : Int)
  /-- LANE_ADAPT_DONE (R129). -/
  | laneAdaptDone (p : Nat) (c : LaneCal)
  /-- RECALIBRATE_DONE (R132). -/
  | recalibrateDone (p : Nat) (c : LaneCal)
  /-- EYE_SCAN_POINT (R135). -/
  | eyeScanPoint (p errors compared : Nat)
  /-- LASER_SAMPLE (R145). -/
  | laserSample (e : Nat) (power temp : Int)
  /-- SPARE_STANDBY (R139). -/
  | spareStandby (e : Nat)
  /-- SPARE_TRIGGER (R140). -/
  | spareTrigger (p cause : Nat)
  /-- SPARE_ACK_TIMEOUT (R142). -/
  | spareAckTimeout (e : Nat)
  /-- XP_SOURCE_LOST (R154). -/
  | xpSourceLost (p : Nat)
  /-- XP_RESUME (R154). -/
  | xpResume (p : Nat)
  /-- MARKER_TRANSMIT (R164). -/
  | markerTransmit (p : Nat)
  /-- MARKER_RECEIVED (R167). -/
  | markerReceived (p : Nat) (m : MarkerSeen)
  /-- MARKER_POSITION_MISS (R168). -/
  | markerPositionMiss (p k pos : Nat)
  /-- LINK_IDLE_STRUCT_RECEIVED (R166). -/
  | linkIdleStructReceived (n k : Nat) (v : BitVec 1024)
  /-- FP_ADVERTISE (R41). -/
  | fpAdvertise
  /-- NEIGHBOUR_STALE (R41). -/
  | neighbourStale (n : Nat)
  /-- FRAME_RECEIVED (R171). -/
  | frameReceived (n : Nat) (f : List Byte) (k syms : Nat) (marked : Bool)
  /-- PFC_FRAME_RECEIVED (R396). -/
  | pfcFrameReceived (n : Nat) (f : List Byte) (k syms : Nat) (marked : Bool)
  /-- PFC_PAUSE_EXPIRY (R396). -/
  | pfcPauseExpiry (n g : Nat)
  /-- TRIM_PROBE_SEND (R429). -/
  | trimProbeSend (n : Nat)
  /-- TRIM_STEP (R428). -/
  | trimStep (n : Nat)
  /-- REMOTE_FAULT_RECEIVED (R178). -/
  | remoteFaultReceived (n : Nat)
  /-- LOCAL_FAULT_ONSET (R177). -/
  | localFaultOnset (n src k : Nat) (power : Int)
  /-- LOCAL_FAULT_END (R177). -/
  | localFaultEnd (n : Nat) (gone : BitVec 4) (power : Int) (ago : Nat)
  /-- DEFECT (R174). -/
  | defect (n b : Nat) (on : Bool)
  /-- HISER_WINDOW_END (R174). -/
  | hiserWindowEnd (n errs : Nat)
  /-- SER_MS_TICK (R173). -/
  | serMsTick (n : Nat) (c : MsCounts)
  /-- PM_SECOND_END (R181). -/
  | pmSecondEnd
  /-- BIN_FINAL (R184). -/
  | binFinal
  /-- PTP_MESSAGE_RECEIVED (R204). -/
  | ptpMessageReceived (freq : Int)
  /-- PTP_MESSAGE_TRANSMIT (R203). -/
  | ptpMessageTransmit (n : Nat) (k : PtpKind)
  /-- PPS_IN_EDGE (R199). -/
  | ppsInEdge (highNs : Nat) (freq : Int)
  /-- PPS_BAD_SECOND (R199). -/
  | ppsBadSecond
  /-- REF_IN_QUALIFIED (R199). -/
  | refInQualified
  /-- REF_IN_LOST (R199). -/
  | refInLost
  /-- SERVO_EVALUATION (R198). -/
  | servoEvaluation (freq : Int)
  /-- HOLDOVER_LIMIT (R200). -/
  | holdoverLimit
  /-- PPS_OUT_EDGE (R202). -/
  | ppsOutEdge
  /-- EVIDENCE_RECORD_STORE (R213). -/
  | evidenceRecordStore (d : DramUse)
  /-- BLOCK_CLOSE_TIMER (R214). -/
  | blockCloseTimer
  /-- BLOCK_SIGNED (R214). -/
  | blockSigned
  /-- COMMIT_INSTANT (R242). -/
  | commitInstant
  /-- VERSION_RETIRED (R245). -/
  | versionRetired
  /-- COPY_FREE (R275). -/
  | copyFree (mem loc : Nat)
  /-- PACKET_INGRESS (R223). -/
  | packetIngress (n : Nat)
  /-- LEARN_INSERT (R288). -/
  | learnInsert
  /-- STATION_MOVE (R290). -/
  | stationMove
  /-- AGING_VISIT (R291). -/
  | agingVisit (l : Nat) (hit : BitVec 4)
  /-- BACKGROUND_COMPARE (R311). -/
  | backgroundCompare (parity : BitVec 4) (differ : Bool)
  /-- TABLE_REPAIR (R309). -/
  | tableRepair (mem loc : Nat) (quads : List (Option Nat)) (shadow : Option Nat)
  /-- SHADOW_FILL_DONE (R307). -/
  | shadowFillDone
  /-- SHADOW_FAULT (R308). -/
  | shadowFault (cause : Nat)
  /-- DUMP_TIMEOUT (R313). -/
  | dumpTimeout (n : Nat)
  /-- FLUSH_DONE (R294). -/
  | flushDone
  /-- PACKET_STORE (R338). -/
  | packetStore (req : Nat) (upset : GrantUpset)
  /-- PFC_REFRESH (R398). -/
  | pfcRefresh (n : Nat)
  /-- PFC_STORM_ENTER (R399). -/
  | pfcStormEnter (q : Nat)
  /-- STORM_RESTORE_TIMER (R400). -/
  | stormRestoreTimer (q : Nat)
  /-- OVERFLOW_WRITE_DONE (R343). -/
  | overflowWriteDone (q : Nat) (crcOk : Bool) (u : BilletUpset) (d : DramUse)
  /-- OVERFLOW_RETURN (R344). -/
  | overflowReturn (q : Nat) (fault : Option (Nat × Nat)) (crcOk : Bool) (upset : GrantUpset) (d : DramUse)
  /-- EGRESS_FRAME_START (R384). -/
  | egressFrameStart (n : Nat) (crcOk : Bool) (u : BilletUpset)
  /-- GATE_ENTRY_CHANGE (R388). -/
  | gateEntryChange (n : Nat)
  /-- GCL_TAKEOVER (R390). -/
  | gclTakeover (n : Nat)
  /-- TRANSMISSION_END (R244). -/
  | transmissionEnd (n : Nat) (u : BilletUpset)
  /-- HOST_SLOT_WRITE (R235). -/
  | hostSlotWrite (crcOk : Bool) (u : BilletUpset)
  /-- SPRAY_RX_TIMEOUT (R253). -/
  | sprayRxTimeout (sender flow : Nat)
  /-- SPRAY_CONTEXT_FREE (R253). -/
  | sprayContextFree (sender flow : Nat)
  /-- SPRAY_DRAIN_MARKER_RECEIVED (R254). -/
  | sprayDrainMarkerReceived
  /-- SPRAY_DRAIN_LIMIT (R254). -/
  | sprayDrainLimit (sender group : Nat)
  /-- SPRAY_MARKERS_SENT (R254). -/
  | sprayMarkersSent (g : Nat)
  /-- SEQ_PRESENT (R413). -/
  | seqPresent (g : Nat)
  /-- SEQ_GROUP_CHANGE (R418). -/
  | seqGroupChange (g : Nat)
  /-- FANOUT_COPY_PREPARE (R426). -/
  | fanoutCopyPrepare (g port : Nat) (crcOk : Bool) (u : BilletUpset)
  /-- FANOUT_COPY_RELEASE (R425). -/
  | fanoutCopyRelease (g port : Nat) (u : BilletUpset)
  /-- FANOUT_STALE (R426). -/
  | fanoutStale (g port : Nat) (u : BilletUpset)
  /-- COLL_CONTRIBUTION_ARRIVAL (R443). -/
  | collContributionArrival (u : Nat) (ok : Bool) (up : BilletUpset)
  /-- COLL_RECOMPUTE (R455). -/
  | collRecompute (n : Nat) (badRead : Option Nat) (pass : Bool)
  /-- COLL_PARENT_RESULT (R447). -/
  | collParentResult (u : Nat) (up : BilletUpset)
  /-- COLL_TIMEOUT (R445). -/
  | collTimeout (n : Nat)
  /-- COLL_NOTICE (R444). -/
  | collNotice (n : Nat)
  /-- BARRIER_ARRIVE (R450). -/
  | barrierArrive (u : Nat) (up : BilletUpset)
  /-- PRERAMP_WITHDRAW (R451). -/
  | prerampWithdraw (n : Nat)
  /-- RAMP_WAIT_EXPIRY (R452). -/
  | rampWaitExpiry (n : Nat)
  /-- COLL_MOVE_MARKER (R456). -/
  | collMoveMarker (n : Nat)
  /-- CU_MEMORY_ERROR (R544). -/
  | cuMemoryError (u addr : Nat)
  /-- CU_ISOLATION_DONE (R544). -/
  | cuIsolationDone (u : Nat)
  /-- REDUCER_SNAPSHOT (R483). -/
  | reducerSnapshot
  /-- SEL_CTRL_INSTANT (R487). -/
  | selCtrlInstant
  /-- BW_WINDOW_END (R488). -/
  | bwWindowEnd (n : Nat)
  /-- EXPORT_BATCH_FLUSH (R490). -/
  | exportBatchFlush (i : Nat) (upset : GrantUpset)
  /-- CAPTURE_RECORD_WRITE (R492). -/
  | captureRecordWrite (crcOk : Bool) (fault : Option (Nat × Nat)) (u : BilletUpset) (d : DramUse)
  /-- CAPTURE_DRAIN_DONE (R493). -/
  | captureDrainDone (d : DramUse)
  /-- ARB_COMMIT_INSTANT (R468). -/
  | arbCommitInstant
  /-- MCHECK_LOGIC_MISMATCH (R546). -/
  | mcheckLogicMismatch (unit : Nat)
  /-- RECORD_STORE_PARITY (R546). -/
  | recordStoreParity (group slot : Nat)
  /-- ISLAND_CLOCK_LOSS (R546). -/
  | islandClockLoss (island : Nat) (pll : Bool)
  /-- GPIO_EDGE_DETECT (R572). -/
  | gpioEdgeDetect (i : Nat) (level : Bool)
  /-- TAP_RESET (R567). -/
  | tapReset
  /-- IDCODE (R567). -/
  | idcode
  /-- BYPASS (R567). -/
  | bypass
  /-- SAMPLE_PRELOAD (R567). -/
  | samplePreload (sample load : List Bool)
  /-- EXTEST (R567). -/
  | extest
  /-- CLAMP (R567). -/
  | clamp
  /-- HIGHZ (R567). -/
  | highz
  /-- BUS_MASTER_ENABLE_CLEAR (R46). -/
  | busMasterEnableClear (m : Master) (c : CfgSpace)
  /-- REMOTE_FAULT_END (R178). -/
  | remoteFaultEnd (n : Nat)
  /-- PTP_SLAVE_STATE_LOST (R199). -/
  | ptpSlaveStateLost
  /-- SPARE_LOCK_LOST (R139). -/
  | spareLockLost (e : Nat)
  /-- LATHE_RESTORE_DONE (R376). -/
  | latheRestoreDone (k res : Nat)
  /-- CU_RESTORE_DONE (R545). -/
  | cuRestoreDone (u : Nat) (ok : Bool)
  /-- TABLE_DUMP_DONE (R313). -/
  | tableDumpDone
  /-- TRIM_MEASURE_TIMEOUT (R429). -/
  | trimMeasureTimeout (n : Nat)
  /-- MOVE_HOLD_TIMEOUT (R456). -/
  | moveHoldTimeout (n : Nat)
  /-- RIVEL_INPUT_UNFAULTED (R522). -/
  | rivelInputUnfaulted (i : Nat)
  /-- V48_INPUT_IN_RANGE (R99). -/
  | v48InputInRange (cv : Nat)
  /-- TB_ADJUST_SECOND_BOUNDARY (R220). -/
  | tbAdjustSecondBoundary
  /-- TB_SLEW_COMPLETE (R220). -/
  | tbSlewComplete
deriving DecidableEq, Repr

end Sys2Proof
end

