-- ==== Sys2Proof/Decode.lean ====
section
/-! DEFINITION. Commands from words. The rows of the opcode table give no bits: a command is an act of the outside world or of the
block's own engines, and a work order's 64 bytes are decoded where the device decodes them, at its fetch
(`Machine.orderOfBits`, `Machine.runOpcode`). -/

namespace Sys2Proof

/-- The command that a word spells by the table's bits: no row gives any. (Log entry 2.) -/
def decodeTableWord (_nbits _w : Nat) : Option Instr := none

end Sys2Proof
end

