-- ==== Sys2Proof/Config.lean ====
section
/-! DEFINITION. What is fixed at manufacture or by the world outside the block, and the free values: what the
spec leaves open. Every constant here is opaque, so nothing in Lean can learn a value of it. -/

namespace Sys2Proof.Config

/-- 00 R2: the ordering code of this device; true is JG-204-S (ID bit 16 is 1). Fixed at manufacture. -/
opaque codeS : Bool

/-- 20 R606: the device serial number. Fixed at manufacture. -/
opaque serial : BitVec 64

/-- Free values (log entry 1): draw `n` of a run. `State.freeCtr` counts the draws. -/
opaque freeValue : Nat → Nat

/-- 06 R216: the bytes of the device certificate, boot-store item 3 (at most 2,048 of them). -/
opaque certificate : List Byte

/-- 06 R215, R216: the private key of the device, made at manufacture; no means reads it. -/
opaque deviceKey : Nat

/-- 06 R198, R220: the rate, in parts per 10^12, at which the servo and the owner's slew remove an offset. The spec
bounds it by 50 ppm and gives no value. (Log entries 1 and 37.) -/
opaque slewPpt : Nat

/-- 03 Table 3-7: the digest of boot-store item 1, the vendor microcode image. -/
opaque microcodeDigest : BitVec 256

/-- 10 R365, Table 10-12, R370: the microwords of boot-store item 1, the 46 bits of each mandrel word below its parity, and the
mandrel signature fused at manufacture. The spec gives no values. -/
opaque microcode : Nat → BitVec 32
opaque mandrel : Nat → BitVec 46
opaque fusedSignature : BitVec 32

/-- 10 R368: where the SAFE microword of the SHA microroutine stands in it; the spec gives none. (Log entry 60.) -/
opaque shaPoll : Nat

/-- 02 R49, 16 R528: the I3C identity a target returns, for M0 (false) and the tray bus (true): provisioned identifier,
bus characteristics, device characteristics, status. The spec gives no values. (Log entry 25.) -/
opaque i3cPid : Bool → BitVec 48
opaque i3cBcr : Byte
opaque i3cDcr : Byte
opaque i3cStatus : Bool → BitVec 16

/-- 04 Table 4-3, step C5: the CTLE, DFE and FFE seeds of a lane rate (bits [7:0], [15:8], [143:16]), from boot-store
item 2. The spec gives no values. -/
opaque laneSeed : Nat → BitVec 144

/-- 04 Table 4-3, step C7: the bytes of the coefficient record of a rate, from its transmit set and its CTLE, DFE and FFE; the
spec gives the record's CRC and no layout. (Log entry 93.) -/
opaque coeffRecord : Nat → BitVec 32 → BitVec 144 → List (BitVec 8)

/-- 05 R167, R169: the alignment-marker period in bits of one PCS lane, and the skew in ns that the PCS clause of a standard
port tolerates, by lane rate and width code. The spec leaves both to IEEE 802.3. (Log entry 94.) -/
opaque amPeriod : Nat → Nat → Nat
opaque amSkewNs : Nat → Nat → Nat

/-- 06 R208: the delay between a lane's connector and its capture point, in 1/65,536 ns, measured at manufacture: by lane, on
receive (false) and on transmit (true). -/
opaque laneDelay : Nat → Bool → Nat

/-- 12 R422: GRID_ORIGIN, a DT at which a codeword begins on every lane; the spec gives no value. (Log entry 1.) -/
opaque gridOrigin : Nat

/-- 11 R398, 12 R429: the MAC address of each port, the source of the frames that the port itself makes; the spec gives
none. (Log entry 1.) -/
opaque portMac : Nat → BitVec 48

end Sys2Proof.Config
end

