-- ==== Sys2Proof/Machine/St/Host.lean ====
section
/-! DEFINITION. State of the host ports, rings, interrupts, work orders and ownership (chapter 02). -/

namespace Sys2Proof.Machine

/-- One value for each attachment point. -/
structure PerMaster (α : Type) where
  h0 : α
  h1 : α
  m0 : α
deriving DecidableEq, Repr

/-- One ring (02 Tables 2-5 and 2-6). `phase` is the PHASE of the pass under way (R66), `evLost` the events lost since
the last EVENTS_LOST (R57), `ownLast` says that the last order accepted from the ring was of the ownership class (R69), `stopped` that a DMA error stopped it (R58). -/
structure Ring where
  enable : Bool
  type : Nat
  size : Nat
  cmpl : Nat
  vector : Nat
  irqEn : Bool
  slot : Nat
  baseLo : BitVec 32
  baseHi : BitVec 32
  dev : BitVec 16
  host : BitVec 16
  fault : Bool
  stopped : Bool
  overflow : Bool
  lost : Nat
  evLost : Nat
  phase : Bool
  ownLast : Bool
deriving DecidableEq, Repr

/-- A ring at reset: every field 0 (02 Tables 2-5, 2-6). -/
def Ring.reset : Ring :=
  { enable := false, type := 0, size := 0, cmpl := 0, vector := 0, irqEn := false, slot := 0, baseLo := 0, baseHi := 0,
    dev := 0, host := 0, fault := false, stopped := false, overflow := false, lost := 0, evLost := 0, phase := true, ownLast := false }

/-- One MSI-X vector of one attachment point: MSIX_MOD (02 Table 2-15), the moderation count and the instant of the
first entry not yet signalled (R74), and the PCIe table entry and PBA bit (02 R47). -/
structure MsiVec where
  timeUs : Nat
  count : Nat
  written : Nat
  since : Option Nat
  mask : Bool
  addr : BitVec 64
  data : BitVec 32
  pba : Bool
deriving DecidableEq, Repr

/-- A vector at reset (20 Table 20-1: mask bit 1, other fields 0). -/
def MsiVec.reset : MsiVec :=
  { timeUs := 0, count := 0, written := 0, since := none, mask := true, addr := 0, data := 0, pba := false }

/-- A host port's link and configuration-space bits (02 R46 to R48, Table 2-1), or for M0 nothing but its counters
(02 Table 2-3). (Log entries 13 and 22.) -/
structure Port where
  linkUp : Bool
  memEn : Bool
  busMaster : Bool
  msixEn : Bool
  funcMask : Bool
  d3hot : Bool
  perst : Bool
  rate : Nat
  width : Nat
  missed : Nat
  refused : Nat
deriving DecidableEq, Repr

/-- A port at reset (02 Table 2-3); PERST_N asserted is DESIGN CHOICE (log entry 3). -/
def Port.reset : Port :=
  { linkUp := false, memEn := false, busMaster := false, msixEn := false, funcMask := false, d3hot := false, perst := true,
    rate := 0, width := 0, missed := 0, refused := 0 }

/-- The capabilities of a host port's configuration space (02 Table 2-1). -/
inductive PcieCap where
  | pciExpress | msix | powerManagement | aer | deviceSerialNumber | dataLinkFeature | phys16 | phys32 | phys64 | laneMargining
deriving DecidableEq, Repr

/-- What a host port's configuration space says of the function: its class code (02 R47), the sizes of BAR0 and BAR2, the
MSI-X vectors, the largest payload and read request, and the capabilities it holds (02 Table 2-1). -/
structure PcieId where
  classCode : BitVec 24
  bar0Bytes : Nat
  bar2Bytes : Nat
  vectors : Nat
  maxPayload : Nat
  maxReadRequest : Nat
  caps : List PcieCap
deriving DecidableEq, Repr

/-- 02 R47, Table 2-1: the same on H0 and on H1. -/
def PcieId.fixed : PcieId :=
  { classCode := 0x020000, bar0Bytes := 0x10000, bar2Bytes := 0x10000, vectors := 64, maxPayload := 512,
    maxReadRequest := 4096,
    caps := [.pciExpress, .msix, .powerManagement, .aer, .deviceSerialNumber, .dataLinkFeature, .phys16, .phys32, .phys64,
             .laneMargining] }

/-- An accepted order that has not completed: its opcode, the order, and when it was accepted, in elapsed time and as a DT
(02 R68, R69, R87). -/
structure Running where
  opcode : BitVec 16
  order : Order
  began : Nat
  dt : Nat
deriving DecidableEq, Repr

/-- A completion that waits for space in its ring (02 R57): command ring, status, data. -/
structure Held where
  order : Order
  status : BitVec 16
  data : BitVec 64
deriving DecidableEq, Repr

/-- An event that is posted at most once for its object in a millisecond, with the count of that millisecond (08 R320,
09 R349, 11 R407, 12 R434, 13 R461, 14 R474, 15 R499): its code and object, the rest of its DATA, the place of the count in
it, the count so far and the instant of the first (log entry 7). -/
structure Win where
  code : Nat
  key : Nat
  data : Nat
  lo : Nat
  len : Nat
  count : Nat
  opened : Nat
deriving DecidableEq, Repr

/-- Chapter 02's state but ownership. `m0Off` is the offset that M0's next read of words begins at (R50). -/
structure HostSt where
  ports : PerMaster Port
  m0Addr : Option (BitVec 7)
  m0Off : BitVec 16
  m0Ibi : Bool
  m0Win : List Host.Cell
  rings : SMap Ring
  vectors : SMap MsiVec
  running : List Running
  awaiting : List Running
  held : List Held
  wins : List Win
deriving DecidableEq, Repr

/-- Chapter 02 at reset. (Log entry 3.) -/
def HostSt.reset : HostSt :=
  { ports := ⟨Port.reset, Port.reset, Port.reset⟩, m0Addr := none, m0Off := 0, m0Ibi := true, m0Win := [], rings := [],
    vectors := [], running := [], awaiting := [], held := [], wins := [] }

/-- Why the device drains (02 R81, R87, R89). -/
inductive DrainKind where
  | accept (o : Order)
  | release (o : Order)
  | expiry
deriving DecidableEq, Repr

/-- A drain under way: its kind, the owner whose orders are drained, and its start. -/
structure Drain where
  kind : DrainKind
  old : Master
  began : Nat
deriving DecidableEq, Repr

/-- A pending offer: its successor and the instant it lapses (02 R86). -/
structure Offer where
  to_ : Master
  lapse : Nat
deriving DecidableEq, Repr

/-- Ownership (02 Table 2-18). The owner `none` is OWNER 3. `leaseLen` is the length at which the running lease was
last started, `leaseEnd` the instant it ends, `frozen` what was left of it when a drain stopped it. -/
structure OwnSt where
  owner : Option Master
  leaseValid : Bool
  offer : Option Offer
  drain : Option Drain
  gen : BitVec 32
  result : PerMaster Nat
  leaseMs : Nat
  leaseLen : Nat
  leaseEnd : Nat
  frozen : Nat
  lowPosted : Bool
deriving DecidableEq, Repr

/-- Ownership at reset (02 Table 2-18). -/
def OwnSt.reset : OwnSt :=
  { owner := none, leaseValid := false, offer := none, drain := none, gen := 0, result := ⟨0, 0, 0⟩, leaseMs := 1000,
    leaseLen := 0, leaseEnd := 0, frozen := 0, lowPosted := false }

end Sys2Proof.Machine
end

