-- ==== Sys2Proof/Machine/Operands.lean ====
section
/-! DEFINITION. Operand forms: the fields of orders, registers and records, and the byte orders of 00 R10 and R11. -/

namespace Sys2Proof.Machine

/-- The number of a master in OWNER, SELF and the like (02 Tables 2-3, 2-18). -/
def mIdx : Master → Nat
  | .h0 => 0
  | .h1 => 1
  | .m0 => 2

/-- The master with number `n`, if one has it. -/
def mOf : Nat → Option Master
  | 0 => some .h0
  | 1 => some .h1
  | 2 => some .m0
  | _ => none

/-- Field of `len` bits from bit `lo` of a number (00 R9). -/
def nfld (w lo len : Nat) : Nat := w / 2 ^ lo % 2 ^ len

/-- Field of `len` bits from bit `lo` of a word (00 R9). -/
def fld {n : Nat} (w : BitVec n) (lo len : Nat) : Nat := nfld w.toNat lo len

/-- Bit `i` of a word. -/
def bit {n : Nat} (w : BitVec n) (i : Nat) : Bool := w.getLsbD i

/-- A number of `len` bits read as two's complement. -/
def signed (len v : Nat) : Int := if v < 2 ^ (len - 1) then (v : Int) else (v : Int) - (2 ^ len : Nat)

/-- An integer as a two's complement number of `len` bits. -/
def unsigned (len : Nat) (v : Int) : Nat := (v % ((2 ^ len : Nat) : Int)).toNat

/-- A Bool as a bit. -/
def b2n (b : Bool) : Nat := if b then 1 else 0

/-- A word built from its fields: (low bit, length, value). -/
def packN : List (Nat × Nat × Nat) → Nat
  | [] => 0
  | (lo, len, v) :: fs => v % 2 ^ len * 2 ^ lo + packN fs

/-- The bits that a list of fields covers. -/
def maskN : List (Nat × Nat) → Nat
  | [] => 0
  | (lo, len) :: fs => (2 ^ len - 1) * 2 ^ lo ||| maskN fs

/-- Every bit of the word outside the fields is zero (00 R14, R15). -/
def onlyFields (w : Nat) (fs : List (Nat × Nat)) : Bool := w &&& maskN fs == w

/-- `n` bytes of a number, little-endian (00 R10). -/
def bytesLE : Nat → Nat → List Byte
  | 0, _ => []
  | n + 1, v => BitVec.ofNat 8 v :: bytesLE n (v / 256)

/-- `n` bytes of a number, network byte order (00 R11). -/
def bytesBE (n v : Nat) : List Byte := (bytesLE n v).reverse

/-- The number little-endian bytes spell. -/
def leNat : List Byte → Nat
  | [] => 0
  | b :: bs => b.toNat + 256 * leNat bs

/-- The number bytes in network order spell. -/
def beNat (bs : List Byte) : Nat := leNat bs.reverse

/-- Bytes `i` to `i + n - 1` of a list, zero beyond its end. -/
def slice (bs : List Byte) (i n : Nat) : List Byte :=
  let t := (bs.drop i).take n
  t ++ List.replicate (n - t.length) 0

/-- A list cut or padded with zero bytes to `n` bytes. -/
def padTo (n : Nat) (bs : List Byte) : List Byte := slice bs 0 n

/-- A saturating count of `len` bits. -/
def satAdd (len v k : Nat) : Nat := min (v + k) (2 ^ len - 1)

/-- DT as 96 bits (06 Table 6-1) from its count of 1/65,536 ns. -/
def dtWord (t : Nat) : BitVec 96 :=
  let ns := t / 65536
  BitVec.ofNat 96 (packN [(0, 16, t % 65536), (16, 32, ns % 1000000000), (48, 48, ns / 1000000000)])

/-- The count of 1/65,536 ns that a 96-bit DT field of value `w` names (06 Table 6-1). -/
def dtCount (w : Nat) : Nat := (nfld w 48 48 * 1000000000 + nfld w 16 32) * 65536 + nfld w 0 16

/-- A 96-bit DT field is well formed when NANOSECONDS is below 10^9 (06 Table 6-1). (Log entry 42.) -/
def dtOk (w : Nat) : Bool := decide (nfld w 16 32 < 1000000000)

/-- DT units in one nanosecond, microsecond, millisecond, second. -/
def dtNs : Nat := 65536
def dtUs : Nat := 65536 * 1000
def dtMs : Nat := 65536 * 1000000
def dtSec : Nat := 65536 * 1000000000

end Sys2Proof.Machine

namespace Sys2Proof
open Machine

/-- The kind and the instance of an order's OBJECT (02 Table 2-8). -/
def Order.kind (o : Order) : Nat := fld o.object 24 8
def Order.inst (o : Order) : Nat := fld o.object 0 24

/-- Field of an order's inline payload. -/
def Order.f (o : Order) (lo len : Nat) : Nat := fld o.payload lo len

/-- Bit of an order's inline payload. -/
def Order.b (o : Order) (i : Nat) : Bool := bit o.payload i

/-- PTR, FENCE, QUIET and IRQ (02 Table 2-9). -/
def Order.ptr (o : Order) : Bool := bit o.flags 0
def Order.fence (o : Order) : Bool := bit o.flags 1
def Order.quiet (o : Order) : Bool := bit o.flags 2
def Order.irq (o : Order) : Bool := bit o.flags 3

end Sys2Proof

namespace Sys2Proof.Machine

/-- The value of an attachment point. -/
def PerMaster.get {α : Type} (p : PerMaster α) : Master → α
  | .h0 => p.h0
  | .h1 => p.h1
  | .m0 => p.m0

/-- One attachment point's value changed. -/
def PerMaster.upd {α : Type} (p : PerMaster α) (m : Master) (f : α → α) : PerMaster α :=
  match m with
  | .h0 => { p with h0 := f p.h0 }
  | .h1 => { p with h1 := f p.h1 }
  | .m0 => { p with m0 := f p.m0 }

end Sys2Proof.Machine
end

