-- ==== Sys2Proof/Machine/St/Pkt.lean ====
section
/-! DEFINITION. A packet as it crosses the steps of the packet path (chapters 01 and 07): its frame, its header vector, its
decision record; and the stored packet with its copies (chapter 09). -/

namespace Sys2Proof.Machine

/-- The decision record (07 Table 7-5). -/
structure Decision where
  kind : Nat
  id : Nat
  queue : Nat
  drop : Bool
  cause : Nat
  hostCopy : Bool
  hostQueue : Nat
  reason : Nat
  lathe : Nat
  capture : Nat
deriving DecidableEq, Repr

/-- The record at the start of IS0 (07, The decision record). -/
def Decision.reset : Decision :=
  { kind := 0, id := 0, queue := 0, drop := false, cause := 0, hostCopy := false, hostQueue := 0, reason := 0, lathe := 0,
    capture := 0 }

/-- A spray shim (07 Table 7-7). -/
structure Shim where
  sender : Nat
  flow : Nat
  seq : Nat
  epoch : Nat
  kind : Nat
  paths : Nat
deriving DecidableEq, Repr

/-- A packet from step 2 on. `id` is the model's own name for it; `frame` its bytes, FCS included, less a shim and a tag
removed at ingress; `len0` the length it was received with; `head` its first 256 bytes at step 3 (15 R482); `hv` the header
vector once parsed; `ver` its rule version; `rx` the shim removed on arrival and `tx` the one given at step 7; `escTag` its
incoming escalation count and `esc`, `sat` the outgoing ones (11 R401);
`lathe` the lathe within the slice (7: none) and `prog` its program; `origin` the collective unit that originated it
(13 R446). -/
structure Pkt where
  id : Nat
  port : Nat
  frame : List Byte
  len0 : Nat
  head : List Byte
  inDt : Nat
  arrSeq : BitVec 32
  hv : List (BitVec 32)
  ver : Nat
  dec : Decision
  diverged : Bool
  unlocked : Bool
  rx : Option Shim
  tx : Option Shim
  escTag : Nat
  esc : Nat
  sat : Bool
  lathe : Nat
  prog : Nat
  late : Bool
  origin : Option Nat
deriving DecidableEq, Repr

/-- What an egress queue holds besides packets: export datagrams of a selector (15 R491) and spray drain markers of a group
and epoch (07 R254). -/
inductive PktKind where
  | packet
  | datagram (selector : Nat)
  | marker (group : Nat)
deriving DecidableEq, Repr

/-- A packet stored at step 6 (chapter 09): its billet's pointer while it has one, the references it still holds and the
copies made at step 7, the priority group charged and the billet bytes, whether its shaving is finalised (15 R475), the
cause of the last copy dropped, the pool first granted, and the shaving once final. -/
structure Stored where
  kind : PktKind
  pkt : Pkt
  ptr : Option Nat
  bytes : Nat
  refs : Nat
  copies : Nat
  pg : Option Nat
  final : Bool
  cause : Nat
  pool : Option Nat
  shav : List Byte
deriving DecidableEq, Repr

/-- A queue that one of a packet's copies goes to: whether to its DRAM part, and its O_q just before the copy was admitted. -/
structure Target where
  queue : Nat
  dram : Bool
  depth : Nat
deriving DecidableEq, Repr

/-- What a packet becomes at step 7 (01 R23): its egress queues, each on die or in DRAM, with the billet bytes admitted; a
sequencer group; a fan-out group; a context of the collective units; a host copy (entry, REASON, whether it is the packet
itself); a capture copy's class. -/
structure Plan where
  queues : List Target
  seq : Option Nat
  fan : Option Nat
  ctx : Option Nat
  host : Option (Nat × Nat × Bool)
  cap : Option Nat
deriving DecidableEq, Repr

def Plan.none : Plan := { queues := [], seq := .none, fan := .none, ctx := .none, host := .none, cap := .none }

/-- A copy in an egress queue: the model's own name for it, its packet, the billet bytes charged, O_q before its admission
(15 Table 15-1), the sequencer group that presented it. -/
structure Copy where
  id : Nat
  pkt : Nat
  bytes : Nat
  depth : Nat
  group : Option Nat
deriving DecidableEq, Repr

end Sys2Proof.Machine
end

