-- ==== Sys2Proof/Machine/St/Buf.lean ====
section
/-! DEFINITION. State of the shared buffer, its pools, the egress queues' contents and admission, and DRAM overflow
(chapter 09). -/

namespace Sys2Proof.Machine

/-- A billet record (09 Table 9-2), with its parity bit over S and REFCOUNT; `frame` are the bytes that occupy the billet from its
first byte. `leaked` says that it is counted in LEAKED, `orphan` that the release meant for it went to another billet. -/
structure Billet where
  s : Bool
  refs : Nat
  par : Bool
  frame : List Byte
  length : Nat
  crc : BitVec 32
  bridge : BitVec 512
  leaked : Bool
  orphan : Bool
deriving DecidableEq, Repr

def Billet.reset : Billet := { s := false, refs := 0, par := false, frame := [], length := 0, crc := 0, bridge := 0, leaked := false, orphan := false }

/-- A copy in a queue's DRAM part (09 R343): whether its write has completed. -/
structure DramCopy where
  copy : Copy
  written : Bool
deriving DecidableEq, Repr

/-- An egress queue: QUEUE_ADMIT_SET, the copies on die and in DRAM, oldest first, the bytes charged for copies
admitted and not yet in it (07 R253), its state and drops (09 Tables 9-10,
9-12). -/
structure QueueSt where
  minKib : Nat
  alpha : Nat
  ovfEn : Bool
  ovfLimitMib : Nat
  die : List Copy
  dram : List DramCopy
  spilling : Bool
  resv : Nat
  dropAdm : BitVec 48
  dropOvf : BitVec 48
deriving DecidableEq, Repr

def QueueSt.reset : QueueSt :=
  { minKib := 0, alpha := 6, ovfEn := false, ovfLimitMib := 64, die := [], dram := [], spilling := false, resv := 0, dropAdm := 0,
    dropOvf := 0 }

/-- An ingress priority group (09 Tables 9-9, 9-10): PG_SET, PG_O, paused. -/
structure PgSt where
  lossless : Bool
  xoffKib : Nat
  xonKib : Nat
  headKib : Nat
  occ : Nat
  paused : Bool
  drops : BitVec 32
deriving DecidableEq, Repr

def PgSt.reset : PgSt :=
  { lossless := false, xoffKib := 256, xonKib := 192, headKib := 256, occ := 0, paused := false, drops := 0 }

/-- The shared buffer. `busy` holds the billets whose map bit is 0, `recs` the records that differ from reset, both at key
2^20·pool + INDEX (the pointer, Table 9-1); `stored` the packets by name; `low` the pools reported low (R349). `cyc` is the fabric cycle of the last claims, `claims` each requester's claims in it, `fresh` the billets freed in it (R328
to R330). `capMib` is
CAPTURE_MIB as set and `capForce`, `ovfForce` the region sizes in force (R342). -/
structure BufSt where
  g : List Nat
  busy : SMap Bool
  recs : SMap Billet
  stored : SMap (Option Stored)
  queues : SMap QueueSt
  pgs : SMap PgSt
  low : List Nat
  dropPool : BitVec 48
  spills : BitVec 48
  dropAdm : BitVec 48
  dropHead : BitVec 48
  dropCrc : BitVec 48
  dropOvf : BitVec 48
  dropOver : BitVec 48
  leaked : BitVec 24
  faults : List Nat
  cyc : Nat
  claims : SMap Nat
  fresh : List Nat
  ovfBytes : Nat
  capMib : Nat
  capForce : Nat
  ovfForce : Nat
deriving DecidableEq, Repr

/-- The default pools (09 Table 9-3). -/
def poolDefault : List Nat := [48, 48, 64, 96]

/-- The buffer after a cold start with the reset settings (09 R324, R342): 32,768 MiB less 4,096 log slots of 260 KiB less
8,192 MiB of capture leave 23,536 MiB of overflow. -/
def BufSt.reset : BufSt :=
  { g := poolDefault, busy := [], recs := [], stored := [], queues := [], pgs := [], low := [], dropPool := 0, spills := 0,
    dropAdm := 0, dropHead := 0, dropCrc := 0, dropOvf := 0, dropOver := 0, leaked := 0, faults := [0, 0, 0, 0, 0], cyc := 0, claims := [], fresh := [],
    ovfBytes := 0, capMib := 8192, capForce := 8192, ovfForce := 23536 }

end Sys2Proof.Machine
end

