-- ==== Sys2Proof/Machine/St/Coll.lean ====
section
/-! DEFINITION. State of the collective units and contexts (chapter 13) and of the arbiters (chapter 14). -/

namespace Sys2Proof.Machine

/-- CONTEXT_SET (13 Table 13-7). -/
structure CtxCfg where
  barrier : Bool
  dtype : Nat
  outType : Nat
  op : Nat
  ovf : Bool
  partialUp : Bool
  resultKind : Nat
  job : Nat
  contributors : Nat
  elems : Nat
  window : Nat
  group : Nat
  upPort : Nat
  upContrib : Nat
  upContext : Nat
  queue : Nat
  timeoutMs : Nat
  prerampPct : Nat
  rampW : Nat
  rampWait : Bool
  rampMaxUs : Nat
  shift : Nat
  first : BitVec 32
  tmpl : List Byte
deriving DecidableEq, Repr

/-- An element of a chunk slot (13 Table 13-3): the accumulator as the exact integer, and FLAGS. -/
structure Elem where
  acc : Int
  nan : Bool
  pinf : Bool
  ninf : Bool
  nonneg : Bool
deriving DecidableEq, Repr

/-- A contribution taken into a chunk: its index, the stored packet retained for the check (13 R454), its escalation. -/
structure Contribution where
  contrib : Nat
  pkt : Nat
  cookie : Nat
  esc : Nat
  sat : Bool
  pace : Nat
deriving DecidableEq, Repr

/-- An open chunk (13 R443). `sent` says that its partial went to the parent (R447), `check` that a recomputation is under
way (R455), `overflow` that an addition overflowed its accumulator (R440). -/
structure Chunk where
  num : BitVec 32
  inputs : List Contribution
  elems : List Elem
  began : Nat
  sent : Bool
  check : Bool
  overflow : Bool
deriving DecidableEq, Repr

/-- A result kept for retries (13 R446): its chunk, the packet bytes as sent, the stored packet whose billet is held, and the
pace that the chunk's headers relay (R453). -/
structure Kept where
  num : BitVec 32
  bytes : List Byte
  pkt : Option Nat
  pace : Nat
deriving DecidableEq, Repr

/-- A context's move under way (13 R456): the old home, C_cut, whether the marker has left the old home, results held by the
new home, and the instant it began. -/
structure CtxMove where
  old : Nat
  cut : BitVec 32
  markerSent : Bool
  held : List Pkt
  began : Nat
  order : Option Order
  isolation : Bool
  released : Bool
deriving DecidableEq, Repr

/-- A reduction context (13 R435, Table 13-8). `base` is BASE, or a barrier's current number; `arrived` the members that
have arrived at it and `arrivedAt` and `lastAt` the first and last arrival; `relWait` that its release waits for the ramp, with
`relHdr` the pace and the header of a parent's RELEASE, `upSent`
that its ARRIVE has gone to the parent; `sentCredit` the CREDIT last sent and `sentAt` when; `oldHome` the home before the last
move and its C_cut, for the retries that it answers (R456). -/
structure Ctx where
  cfg : CtxCfg
  enabled : Bool
  faulted : Bool
  home : Nat
  epoch : Nat
  base : BitVec 32
  chunks : List Chunk
  complete : List (BitVec 32)
  kept : List Kept
  arrived : List Contribution
  arrivedAt : Nat
  lastAt : Nat
  requested : Bool
  relWait : Bool
  relHdr : Option (Nat × Nat)
  upSent : Bool
  sentCredit : Nat
  sentAt : Nat
  move : Option CtxMove
  oldHome : Option (Nat × BitVec 32)
  fault : Nat
  completed : BitVec 64
  duplicates : BitVec 48
  drops : BitVec 48
  recomputes : BitVec 32
  retries : BitVec 32
  paced : BitVec 32
deriving DecidableEq, Repr

def CtxCfg.reset : CtxCfg :=
  { barrier := false, dtype := 0, outType := 0, op := 0, ovf := false, partialUp := false, resultKind := 0, job := 0,
    contributors := 0, elems := 0, window := 0, group := 0, upPort := 0, upContrib := 0, upContext := 0, queue := 0,
    timeoutMs := 1000, prerampPct := 90, rampW := 0, rampWait := false, rampMaxUs := 50, shift := 1, first := 0,
    tmpl := [] }

def Ctx.reset : Ctx :=
  { cfg := CtxCfg.reset, enabled := false, faulted := false, home := 0, epoch := 0, base := 0, chunks := [],
    complete := [], kept := [], arrived := [], arrivedAt := 0, lastAt := 0, requested := false, relWait := false, relHdr := none,
    upSent := false, sentCredit := 0, sentAt := 0, move := none, oldHome := none, fault := 0, completed := 0,
    duplicates := 0, drops := 0, recomputes := 0, retries := 0, paced := 0 }

/-- A collective unit (13 Table 13-9): its input queue in order of arrival with the billet bytes it counts;
`faultsAt` the instants of its last faulted chunks; `isolating` while CU isolation moves its contexts away (17 R544), `moved` and `movedFaults` the contexts that it moved and
faulted, `testing` while CU_RESTORE tests it. -/
structure CollUnit where
  input : List (Nat × Nat)
  elements : BitVec 64
  relayed : BitVec 48
  recomputes : BitVec 32
  faults : BitVec 32
  inputFull : BitVec 48
  faultsAt : List Nat
  isolating : Bool
  moved : Nat
  movedFaults : Nat
  testing : Bool
deriving DecidableEq, Repr

def CollUnit.reset : CollUnit :=
  { input := [], elements := 0, relayed := 0, recomputes := 0, faults := 0, inputFull := 0, faultsAt := [], isolating := false, moved := 0,
    movedFaults := 0, testing := false }

/-- Chapter 13's state. -/
structure CollSt where
  udpPort : Nat
  limitKib : Nat
  ctxs : SMap Ctx
  units : SMap CollUnit
deriving DecidableEq, Repr

def CollSt.reset : CollSt := { udpPort := 40211, limitKib := 8192, ctxs := [], units := [] }

/-- One requester's settings (14 Table 14-5). -/
structure ArbEntry where
  prio : Nat
  burst : Nat
deriving DecidableEq, Repr

/-- An arbiter instance (14 R462 to R468): live and shadow settings; the requester that holds the grant, its accesses in it, the
requester that last received a new grant, the wait counters; MAX_WAIT with its requester, STARVE_GRANTS with the last. -/
structure Arb where
  live : List ArbEntry
  liveStarve : Nat
  shadow : List ArbEntry
  shadowStarve : Nat
  holder : Option Nat
  made : Nat
  ptr : Nat
  waits : List Nat
  maxWait : Nat
  maxReq : Nat
  starves : BitVec 64
  starveReq : Nat
deriving DecidableEq, Repr

/-- An instance whose live and shadow settings are the ones given; its first round begins at requester 0 (DESIGN CHOICE, log entry
3). -/
def Arb.of (l : List ArbEntry) (starve : Nat) : Arb :=
  { live := l, liveStarve := starve, shadow := l, shadowStarve := starve, holder := none, made := 0, ptr := l.length - 1,
    waits := List.replicate l.length 0, maxWait := 0, maxReq := 0, starves := 0, starveReq := 0 }

/-- The defaults of 14 Table 14-1: shared-memory banks, DRAM channel groups, table side ports, which have no STARVE_LIMIT. -/
def Arb.bank : Arb := Arb.of (List.replicate 7 ⟨0, 4⟩) 64
def Arb.dram : Arb := Arb.of [⟨3, 4⟩, ⟨0, 8⟩, ⟨2, 16⟩, ⟨2, 16⟩, ⟨1, 8⟩, ⟨0, 8⟩] 1024
def Arb.port : Arb := Arb.of (List.replicate 13 ⟨0, 1⟩) 0

/-- Chapter 14's state: shared-memory banks by slice·16 + bank, DRAM groups, table side ports by quadrant·4 + port, the pending
commit's T_a. -/
structure ArbSt where
  banks : SMap Arb
  drams : SMap Arb
  ports : SMap Arb
  pend : Option Nat
deriving DecidableEq, Repr

def ArbSt.reset : ArbSt := { banks := [], drams := [], ports := [], pend := none }

end Sys2Proof.Machine
end

