-- ==== Sys2Proof/Machine/St/Egr.lean ====
section
/-! DEFINITION. State of egress scheduling: queue scheduling, shapers, gate control lists, PFC, escalation, and what each
port is transmitting (chapter 11). -/

namespace Sys2Proof.Machine

/-- A queue's scheduling (11 R384, R399, R400): PRIO, WEIGHT, deficit D, the storm state and since when no pausing PFC frame
has come, the watchdog W in ns and the instant from which it grows now. -/
structure QSched where
  prio : Nat
  weight : Nat
  deficit : Nat
  storm : Bool
  quietFrom : Nat
  w : Nat
  wFrom : Option Nat
deriving DecidableEq, Repr

/-- A queue's scheduling at reset (11 Table 11-3): PRIO q of queue number 16n + q, WEIGHT 1. -/
def QSched.reset (q : Nat) : QSched :=
  { prio := q % 16, weight := 1, deficit := 0, storm := false, quietFrom := 0, w := 0, wFrom := none }

/-- A shaper (11 Table 11-4): RATE in Mb/s, BURST in bytes, OVERHEAD, and T in 1/8,000 of a byte as it stood at `since`. -/
structure Shaper where
  enable : Bool
  resetFull : Bool
  rate : Nat
  burst : Nat
  overhead : Int
  tokens : Int
  since : Nat
deriving DecidableEq, Repr

/-- A shaper at reset (11 Table 11-4). T is BURST, as RESET_FULL's reset of 1 leaves it (11 R395; DEDUCED, log entry 12). -/
def Shaper.reset : Shaper :=
  { enable := false, resetFull := true, rate := 0, burst := 16384, overhead := 20, tokens := 16384 * 8000, since := 0 }

/-- A gate-list entry (11 Table 11-5). -/
structure GclEntry where
  gates : BitVec 16
  prot : Bool
  ns : Nat
deriving DecidableEq, Repr

/-- A gate control list: the payload as set, its entries, CYCLE and the TAKEOVER instant; `moved` under R390. -/
structure Gcl where
  payload : List Byte
  disable : Bool
  entries : List GclEntry
  cycleNs : Nat
  takeover : Nat
  moved : Bool
deriving DecidableEq, Repr

/-- PFC_SET and the state of PFC on a port (11 Tables 11-4, 11-6): the pause of each priority until an instant in ps of
elapsed time; the groups a frame with time zero is owed to; a frame is owed; when the last was sent. -/
structure PfcSt where
  rxEn : BitVec 8
  txEn : BitVec 8
  quanta : Nat
  wdEn : Bool
  wdUs : Nat
  restoreMs : Nat
  pauseUntil : List Nat
  zero : BitVec 8
  due : Bool
  sentPs : Nat
  rxFrames : BitVec 64
  txFrames : BitVec 64
  discards : BitVec 64
deriving DecidableEq, Repr

def PfcSt.reset : PfcSt :=
  { rxEn := 0, txEn := 0, quanta := 65535, wdEn := true, wdUs := 2000, restoreMs := 200,
    pauseUntil := [0, 0, 0, 0, 0, 0, 0, 0], zero := 0, due := false, sentPs := 0, rxFrames := 0, txFrames := 0,
    discards := 0 }

/-- ESC_SET of a port and its saturation count (11 Tables 11-4, 11-6). -/
structure EscSt where
  rungs : List Nat
  tx : Bool
  rx : Bool
  bump : Bool
  saturated : BitVec 48
deriving DecidableEq, Repr

def EscSt.reset : EscSt := { rungs := [], tx := false, rx := false, bump := false, saturated := 0 }

/-- What a port is transmitting: a queue's copy, a fan-out copy of a group's release, or a frame of the MAC's own; the
the bytes, the DT and the elapsed time of the first symbol and the wire time. -/
inductive TxKind where
  | queue (c : Copy)
  | fanout (group : Nat) (pkt : Nat) (copy : Nat)
  | mac
deriving DecidableEq, Repr

structure Tx where
  kind : TxKind
  bytes : List Byte
  startDt : Nat
  startNs : Nat
  wirePs : Nat
  bad : Bool
deriving DecidableEq, Repr

/-- A port's scheduler: the queue the round stands at for each PRIO, the frame in transmission, the DT at which the last one
ended and whether that was a fan-out release, and the gate entry last entered. -/
structure PortSched where
  cur : List (Option Nat)
  tx : Option Tx
  freeDt : Nat
  lastFan : Bool
  gateIndex : Nat
deriving DecidableEq, Repr

def PortSched.reset : PortSched := { cur := List.replicate 16 none, tx := none, freeDt := 0, lastFan := false, gateIndex := 0 }

/-- Egress scheduling: queues by queue number, shapers by instance of 0xB3, the rest by port. -/
structure EgrSt where
  queues : SMap QSched
  shapers : SMap Shaper
  oper : SMap (Option Gcl)
  pend : SMap (Option Gcl)
  pfc : SMap PfcSt
  esc : SMap EscSt
  ports : SMap PortSched
deriving DecidableEq, Repr

def EgrSt.reset : EgrSt := { queues := [], shapers := [], oper := [], pend := [], pfc := [], esc := [], ports := [] }

end Sys2Proof.Machine
end

