-- ==== Sys2Proof/Machine/St/Fwd.lean ====
section
/-! DEFINITION. State of forwarding (chapters 07 and 13's step 7): frames between the steps, the host map, spraying and
multicast. -/

namespace Sys2Proof.Machine

/-- A frame accepted at step 2 that has not reached step 3 (07 R243). -/
structure Accepted where
  port : Nat
  bytes : List Byte
  inDt : Nat
  arrSeq : BitVec 32
  unlocked : Bool
deriving DecidableEq, Repr

/-- A claim that a pool has refused (09 R326): what the packet becomes and the cause of its drop, as admission left them, the pool
that is tried next, and the fabric cycle after which. -/
structure Spill where
  plan : Plan
  cause : Nat
  pool : Nat
  after : Nat
deriving DecidableEq, Repr

/-- A packet whose decision is fixed and which waits for step 6, with its requester (09 Table 9-4), and its claim if that has spilled. -/
structure Waiting where
  req : Nat
  pkt : Pkt
  spill : Option Spill
deriving DecidableEq, Repr

/-- A host map entry (07 Table 7-10). -/
structure HostMap where
  master : Nat
  ring : Nat
  enable : Bool
  discards : BitVec 32
deriving DecidableEq, Repr

def HostMap.reset : HostMap := { master := 0, ring := 0, enable := false, discards := 0 }

/-- A host copy that waits to be written (07 R235): the packet, the frame bytes, its entry and REASON, the copy that carries
it (none: it holds its own reference, 09 R331, R332), and whether it is the packet itself (DEST_KIND 6). -/
structure HostCopy where
  pkt : Nat
  frame : List Byte
  entry : Nat
  reason : Nat
  carrier : Option Nat
  whole : Bool
deriving DecidableEq, Repr

/-- SPRAY_SET (07 Table 7-13). -/
structure SpraySet where
  sender : Nat
  sel : Bool
  rxTimeoutUs : Nat
  drainLimitUs : Nat
deriving DecidableEq, Repr

def SpraySet.reset : SpraySet := { sender := 0, sel := false, rxTimeoutUs := 50, drainLimitUs := 500 }

/-- A path of a spray group's present epoch that has carried data: its member port and the last such packet's addresses and
queue (07 R254). -/
structure Carried where
  port : Nat
  mac : List Byte
  queue : Nat
deriving DecidableEq, Repr

/-- A spray group at the sender (07 R251, R254); `last` is the member index of the last round-robin choice, `markers` the
drain markers still to be transmitted and `waits` the order that waits for them. -/
structure SprayGroup where
  mode : Bool
  members : List Nat
  epoch : Nat
  last : Nat
  carried : List Carried
  markers : Nat
  waits : Bool
deriving DecidableEq, Repr

def SprayGroup.reset : SprayGroup :=
  { mode := false, members := [], epoch := 0, last := 15, carried := [], markers := 0, waits := false }

/-- A packet held by a spray receiver's context (07 R253): its SEQ, its epoch, the stored packet, what it becomes when it is
released, and when it came. -/
structure HeldSpray where
  seq : Nat
  epoch : Nat
  pkt : Nat
  plan : Plan
  at_ : Nat
deriving DecidableEq, Repr

/-- A reorder context (07 R253): (SENDER, FLOW), the next SEQ expected, the packets held in SEQ order, the instant of the
last packet, the epoch and first SEQ of the newest epoch seen (R254), the numbers skipped. -/
structure SprayCtx where
  sender : Nat
  flow : Nat
  expected : Nat
  held : List HeldSpray
  lastAt : Nat
  epoch : Nat
  firstNew : Option Nat
  skipped : Nat
deriving DecidableEq, Repr

/-- Drain markers received of one (SENDER, group) and old epoch (07 R254): how many, of how many paths, and since when. -/
structure SprayDrain where
  sender : Nat
  group : Nat
  epoch : Nat
  got : Nat
  paths : Nat
  since : Nat
deriving DecidableEq, Repr

/-- A multicast group (07 R255). -/
structure Mcast where
  enable : Bool
  prune : Bool
  ovr : Bool
  ovrQueue : Nat
  members : BitVec 512
  replicated : BitVec 32
deriving DecidableEq, Repr

def Mcast.reset : Mcast := { enable := false, prune := false, ovr := false, ovrQueue := 0, members := 0, replicated := 0 }

/-- Forwarding. `arrSeq` are the ports' arrival sequences (12 R411), `nextId` the model's next packet name, `markersIn` the
drain markers received and not yet consumed, `ptpIn` the PTP frames that wait for the timebase island (06 R204), `seqs` the next SEQ of flow 1024·group + bucket. -/
structure FwdSt where
  arrSeq : SMap (BitVec 32)
  nextId : Nat
  accepted : List Accepted
  toStore : List Waiting
  markersIn : List Pkt
  ptpIn : List Pkt
  hostMap : SMap HostMap
  hostCopies : List HostCopy
  deferred : List (Nat × Nat)
  spraySet : SpraySet
  groups : SMap SprayGroup
  seqs : SMap (BitVec 32)
  ctxs : List SprayCtx
  drains : List SprayDrain
  noContext : BitVec 32
  mcast : SMap Mcast
deriving DecidableEq, Repr

def FwdSt.reset : FwdSt :=
  { arrSeq := [], nextId := 0, accepted := [], toStore := [], markersIn := [], ptpIn := [], hostMap := [], hostCopies := [],
    deferred := [], spraySet := SpraySet.reset, groups := [], seqs := [], ctxs := [], drains := [], noContext := 0,
    mcast := [] }

end Sys2Proof.Machine
end

