-- ==== Sys2Proof/Machine/St/Grp.lean ====
section
/-! DEFINITION. State of the sequencer groups, the fan-out groups and the departure trims (chapter 12). -/

namespace Sys2Proof.Machine

/-- A sequencer group's settings (12 Table 12-6): members with their ranks, and the payload they came with. -/
structure SeqCfg where
  enable : Bool
  lateMode : Bool
  record : Nat
  members : List (Nat × Nat)
  gateway : Nat
  queue : Nat
  window : Nat
  hold : Nat
  payload : List Byte
deriving DecidableEq, Repr

def SeqCfg.reset : SeqCfg :=
  { enable := false, lateMode := false, record := 0, members := [], gateway := 0, queue := 0, window := 0, hold := 0,
    payload := [] }

/-- A held packet (12 R411, R412): its keys, due instant, whether late. -/
structure SeqHeld where
  pkt : Nat
  inDt : Nat
  rank : Nat
  arrSeq : BitVec 32
  due : Nat
  late : Bool
deriving DecidableEq, Repr

/-- A SEQ_GROUP_SET that waits for T_s (12 R418). -/
structure SeqPend where
  ts : Nat
  moved : Bool
  cfg : SeqCfg
  order : Order
deriving DecidableEq, Repr

/-- A sequencer group. `cfgs` are the settings in force from an ingress DT on, newest first; `queued` counts the packets
presented whose gateway transmission has not ended (R415); `drain` is the order that waits for the group to empty, once its
T_s has come; `cyc` is the fabric cycle of the last presentation and `inCyc` how many it has (R413). -/
structure SeqGroup where
  cfgs : List (Nat × SeqCfg)
  pend : List SeqPend
  drain : Option Order
  held : List SeqHeld
  queued : Nat
  presented : BitVec 64
  late : BitVec 48
  drops : BitVec 48
  maxTransit : Nat
  lastDt : Nat
  cyc : Nat
  inCyc : Nat
deriving DecidableEq, Repr

def SeqGroup.reset : SeqGroup :=
  { cfgs := [], pend := [], drain := none, held := [], queued := 0, presented := 0, late := 0, drops := 0, maxTransit := 0,
    lastDt := 0, cyc := 0, inCyc := 0 }

/-- A fan-out copy of one member port (12 R425, R426): the frame once prepared with the DT at which it was ready, whether it
has begun or been dropped, whether recorded as moved, whether its instant has come, its outcome and delay as listed in
FANOUT_COPIES; `id` is the name of the copy once prepared. -/
structure FanCopy where
  port : Nat
  id : Nat
  tried : Bool
  ready : Option (List Byte × Nat)
  done : Bool
  blocked : Bool
  outcome : Nat
  delay : Nat
deriving DecidableEq, Repr

/-- A packet of a fan-out group with its scheduled instant S (12 R424). -/
structure FanPkt where
  pkt : Nat
  inDt : Nat
  inPort : Nat
  hash : BitVec 96
  sched : Nat
  moved : Bool
  unprot : Bool
  standard : Bool
  copies : List FanCopy
deriving DecidableEq, Repr

/-- A fan-out group (12 Table 12-7); `base5` is five times BASE in DT units, so that its slots are exact. -/
structure FanGroup where
  enable : Bool
  record : Nat
  period : Nat
  leadNs : Nat
  base5 : Int
  limit : Nat
  members : BitVec 512
  payload : List Byte
  drain : Option Order
  lastS : Option Nat
  pkts : List FanPkt
  releases : BitVec 64
  movedCnt : BitVec 48
  dropped : BitVec 48
  unprotected : BitVec 48
deriving DecidableEq, Repr

def FanGroup.reset : FanGroup :=
  { enable := false, record := 0, period := 0, leadNs := 0, base5 := 0, limit := 0, members := 0, payload := [],
    drain := none, lastS := none, pkts := [], releases := 0, movedCnt := 0, dropped := 0,
    unprotected := 0 }

/-- A port's trim in steps of 62.5 ps (12 R428): in force, target, where the move began, the orders that wait, the instant of the last
step or of the move's beginning. -/
structure Trim where
  cur : Int
  target : Int
  began : Int
  orders : List Order
  stepAt : Nat
deriving DecidableEq, Repr

def Trim.reset : Trim := { cur := 0, target := 0, began := 0, orders := [], stepAt := 0 }

/-- A TRIM_MEASURE under way (12 R429): the probes out (nonce, egress DT), the round trips so far, the instants of
the last probe and of acceptance. -/
structure TrimMeas where
  port : Nat
  sent : Nat
  out : List (BitVec 32 × Nat)
  trips : List Nat
  lastAt : Nat
  began : Nat
deriving DecidableEq, Repr

/-- Chapter 12's state. -/
structure GrpSt where
  seqs : SMap SeqGroup
  fans : SMap FanGroup
  trims : SMap Trim
  meas : List TrimMeas
deriving DecidableEq, Repr

def GrpSt.reset : GrpSt := { seqs := [], fans := [], trims := [], meas := [] }

end Sys2Proof.Machine
end

