-- ==== Sys2Proof/Machine/St/Lathe.lean ====
section
/-! DEFINITION. State of the lathes, their program banks, their slices' shared memory (chapter 10), and of dealing and
reorder (07 R247 to R250). -/

namespace Sys2Proof.Machine

/-- A program bank (10 Tables 10-2, 10-19): STATE 0 empty, 1 loading, 2 ready, 3 failed, and the image it holds. -/
structure Bank where
  state : Nat
  textWords : Nat
  dataBytes : Nat
  digest : BitVec 256
  mcDigest : BitVec 256
  table : List (BitVec 64)
  text : List (BitVec 32)
  data : List (BitVec 64)
deriving DecidableEq, Repr

def Bank.reset : Bank :=
  { state := 0, textWords := 0, dataBytes := 0, digest := 0, mcDigest := 0, table := [], text := [], data := [] }

/-- A packet dealt to a lathe (07 R248): its reorder bucket and sequence number there. -/
structure Dealt where
  pkt : Pkt
  bucket : Nat
  seq : BitVec 16
deriving DecidableEq, Repr

/-- An entry of a lathe's input queue: a packet or a drain marker (07 R250). -/
inductive LItem where
  | packet (d : Dealt)
  | marker
deriving DecidableEq, Repr

/-- A program under way on a lathe (10 R352): its bank, the index of its next instruction, its executed microcycles, its
program-table entry, whether its one head edit is made (R354), and whether it has ended and waits for the reorder stage. -/
structure Run where
  dealt : Dealt
  bank : Bool
  pc : Nat
  executed : Nat
  entry : BitVec 64
  edited : Bool
  finished : Bool
deriving DecidableEq, Repr

/-- A recovery under way (10 R373): the failing bank, whether the boot store reloads both banks, and whether it waits for a
reload of the other bank (R374); with what its MACHINE_CHECK will report. -/
structure Recovery where
  bank : Bool
  boot : Bool
  word : Nat
  cause : Nat
deriving DecidableEq, Repr

/-- What the microcode of a lathe works in (10 Table 10-8, R366): the address of the next microword, t0 to t7, MDR, MAR, CNT, the
latched RESUME, the conditions of the last ALU result (zero, negative, carry, overflow) and whether the last LKUP hit. -/
structure Micro where
  upc : BitVec 13
  t : List (BitVec 64)
  mdr : BitVec 64
  mar : BitVec 64
  cnt : BitVec 64
  resume : BitVec 13
  flags : BitVec 4
  hit : Bool
deriving DecidableEq, Repr

/-- Zero; the spec gives no reset value (DESIGN CHOICE, log entry 3). -/
def Micro.reset : Micro :=
  { upc := 0, t := List.replicate 8 0, mdr := 0, mar := 0, cnt := 0, resume := 0, flags := 0, hit := false }

/-- A lathe (10 Tables 10-1, 10-18): `iso` its ISO_CAUSE (0 in service); `bad…` the words whose parity error is marked
(R351); `valid` and `digest` of its control-store banks A and B; `redirect` the bank redirected to its twin (R375);
`flips` the parity bits inverted in a control-store word (CS_INJECT); `recent` the instants of its machine checks;
`testing` while LATHE_RESTORE tests it. -/
structure Lathe where
  iso : Nat
  testing : Bool
  recovery : Option Recovery
  regs : List (BitVec 64)
  badRegs : List Nat
  mem : SMap (BitVec 64)
  badMem : List Nat
  validA : Bool
  validB : Bool
  redirect : Option Bool
  digestA : BitVec 256
  digestB : BitVec 256
  flips : SMap (BitVec 4)
  queue : List LItem
  cur : Option Run
  mchecks : Nat
  packets : Nat
  busy : Nat
  stalls : Nat
  faults : Nat
  budgetDrops : Nat
  lastFaultPc : Nat
  lastFaultCode : Nat
  lastMcheckDt : Nat
  recent : List Nat
  micro : Micro
deriving DecidableEq, Repr

/-- A lathe after a cold start's rebuild (10 Table 10-1), before its control store is loaded. -/
def Lathe.reset : Lathe :=
  { iso := 0, testing := false, recovery := none, regs := List.replicate 32 0, badRegs := [], mem := [], badMem := [],
    validA := false, validB := false, redirect := none, digestA := 0, digestB := 0, flips := [], queue := [], cur := none,
    mchecks := 0, packets := 0, busy := 0, stalls := 0, faults := 0, budgetDrops := 0, lastFaultPc := 0,
    lastFaultCode := 0, lastMcheckDt := 0, recent := [], micro := Micro.reset }

/-- An outstanding sequence number of a bucket (07 R248, R249): when it was dealt, its result once that is here, and the place of
its completion among the slice's results. -/
structure Outst where
  seq : BitVec 16
  at_ : Nat
  result : Option Pkt
  done : Nat
deriving DecidableEq, Repr

/-- A reorder bucket: the next sequence number and the outstanding ones, oldest first. -/
structure Bucket where
  next : BitVec 16
  out : List Outst
deriving DecidableEq, Repr

def Bucket.reset : Bucket := { next := 0, out := [] }

/-- A DEAL_SET that waits for its lathes' markers (07 R250). -/
structure DealWait where
  lathes : List Nat
  order : Order
deriving DecidableEq, Repr

/-- Dealing of a slice (07 Table 7-13): DEAL_SET's fields, the lathe last dealt to, packets decided and not yet dealt, the
admission queue (R247), the reorder stage's counts, the instants of the skips and of the program faults of the last millisecond,
and the group's microcode reload (the bank in hand and the order that asked for it). -/
structure Slice where
  exclude : BitVec 6
  timeoutUs : Nat
  last : Nat
  arrivals : List Pkt
  admission : List Pkt
  results : Nat
  completed : Nat
  lateResults : Nat
  skips : List Nat
  stallAt : Option Nat
  faultAt : Option Nat
  faults : List Nat
  dealWaits : List DealWait
  reload : Option (Bool × Option Order)
deriving DecidableEq, Repr

/-- DEAL_SET's resets (07 Table 7-13); the first deal going to lathe 0 is DESIGN CHOICE (log entry 3). -/
def Slice.reset : Slice :=
  { exclude := 0, timeoutUs := 20, last := 5, arrivals := [], admission := [], results := 0, completed := 0, lateResults := 0,
    skips := [], stallAt := none, faultAt := none, faults := [], dealWaits := [], reload := none }

/-- Chapter 10's state and 07's dealing. Shared memory stands at key 2^18·slice + word, `badShm` are its marked words;
buckets at key 4096·slice + bucket. `isoRegs` is LATHE_ISOLATED (10 R377) as it is held through DORMANT, `testFail` the lathes
that failed step 5 of the running cold start (R371, R376). -/
structure LatSt where
  bankA : Bank
  bankB : Bank
  lathes : SMap Lathe
  shm : SMap (BitVec 64)
  badShm : List Nat
  slices : SMap Slice
  buckets : SMap Bucket
  isoRegs : BitVec 192
  testFail : BitVec 192
deriving DecidableEq, Repr

def LatSt.reset : LatSt :=
  { bankA := Bank.reset, bankB := Bank.reset, lathes := [], shm := [], badShm := [], slices := [], buckets := [],
    isoRegs := 0, testFail := 0 }

end Sys2Proof.Machine
end

