-- ==== Sys2Proof/Machine/St/Mode.lean ====
section
/-! DEFINITION. State of the operating modes, the start sequence (chapter 03) and the determinism contract's registers
(chapter 01). -/

namespace Sys2Proof.Machine

/-- The six modes (03 Table 3-1). -/
inductive Mode where
  | dormant | prepare | service | coast | probe | halt
deriving DecidableEq, Repr

/-- LAST_START (03 Table 3-4). -/
structure LastStart where
  cause : Nat
  warm : Bool
  result : Nat
  failedStep : Nat
  detail : Nat
deriving DecidableEq, Repr

/-- Chapter 03's state. `laneDone` is the end of step 8, which runs beside steps 5 to 7 (R102); `req` and `joined` are
the START that the running start answers and those that joined it, `pendCold` and `pendJoined` the pending cold start
and those waiting for it (R112), `waiting` the STARTs not yet accepted (R109), `restore` the cold START accepted in
HALT whose rails are being restored (16 R533). `condSince` is the instant from which R99's conditions have held,
`ramp` the rails' ramp. -/
structure ModeSt where
  mode : Mode
  ready : Bool
  active : Bool
  warm : Bool
  step : Nat
  laneDone : Bool
  warmFails : Nat
  forceCold : Bool
  warmFailPrepare : Bool
  dormantHeld : Bool
  haltEntry : Bool
  haltT0 : Nat
  haltEls : Bool
  holdDormant : Bool
  tempWindow : Nat
  last : LastStart
  startAt : Nat
  req : Option Order
  joined : List Order
  pendCold : Option Order
  pendJoined : List Order
  waiting : List Order
  restore : Option Order
  condSince : Option Nat
  ramp : Bool
  fromDormant : Bool
deriving DecidableEq, Repr

/-- Chapter 03 at reset: DORMANT, BOOT_CTRL 0x0000_00A0 (Table 3-3), everything else 0. -/
def ModeSt.reset : ModeSt :=
  { mode := .dormant, ready := false, active := false, warm := false, step := 0, laneDone := false, warmFails := 0,
    forceCold := false, warmFailPrepare := false, dormantHeld := false, haltEntry := false, haltT0 := 0,
    haltEls := false, holdDormant := false, tempWindow := 10, last := ⟨0, false, 0, 0, 0⟩, startAt := 0, req := none,
    joined := [], pendCold := none, pendJoined := [], waiting := [], restore := none, condSince := none, ramp := false,
    fromDormant := false }

/-- The contract's state: CONTRACT_STATUS (01 Table 1-6) and the fingerprints with each master's snapshots (R43). -/
structure FpSt where
  diverged : Bool
  committedValid : Bool
  divergeSeen : Bool
  unlockSeen : Bool
  activeVersion : BitVec 16
  active : BitVec 128
  committed : BitVec 128
  snapActive : List (BitVec 128)
  snapCommit : List (BitVec 128)
deriving DecidableEq, Repr

/-- The contract at reset: zero (01 Tables 1-6, 1-7), each snapshot zero (R43). -/
def FpSt.reset : FpSt :=
  { diverged := false, committedValid := false, divergeSeen := false, unlockSeen := false, activeVersion := 0,
    active := 0, committed := 0, snapActive := [0, 0, 0], snapCommit := [0, 0, 0] }

end Sys2Proof.Machine
end

