-- ==== Sys2Proof/Machine/St/Optic.lean ====
section
/-! DEFINITION. State of the optical engines and lanes (chapter 04). -/

namespace Sys2Proof.Machine

/-- The search for one PCS lane's marker on a physical lane (05 R167, R168): lock, the bit position of the last expected
marker, the misses in a row, the candidates (bit position last seen, confirmations) and the bit the search goes on from. -/
structure Search where
  lock : Bool
  pos : Nat
  misses : Nat
  cands : List (Nat × Nat)
  resume : Nat
deriving DecidableEq, Repr

def Search.reset : Search := { lock := false, pos := 0, misses := 0, cands := [], resume := 0 }

/-- The sets that C1 to C5 produce for one lane rate (04 R129, Table 4-3): the transmit set of C3, and the CTLE, DFE and FFE of
C5. -/
structure RateSet where
  tx : BitVec 32
  taps : BitVec 144
deriving DecidableEq, Repr

/-- A lane pair: what READ_LANE reports of it (04 Table 4-4) less its analogue readings, its raw-lane settings
(Table 4-8), and the receiver's conditions: average received power in 0.1 dBm (none: no light), far-end signal, CDR lock and the instant
of its last change, marker lock on every PCS lane it carries with the searches behind it, and the instant of the last marker.
`lost` says that marker lock was lost since the coefficient record was written; `sets` are the sets by rate code, `tx` and
the taps those in use; `rxMark` and `txMark` the last marker's MCOUNT and DT captured (06 R208); `recal` that a recalibration runs; `slip` is the
receiver's word boundary; `preY` the precoder's last symbol. -/
structure Lane where
  state : Nat
  role : Nat
  rate : Nat
  gray : Bool
  preTx : Bool
  preRx : Bool
  squelch : Bool
  ll : Option Nat
  failCause : Nat
  calValid : Bool
  lost : Bool
  calCheck : BitVec 16
  calTemp : Int
  calDt : Nat
  sets : List RateSet
  tx : BitVec 32
  ctle : BitVec 8
  dfe : BitVec 8
  ffe : BitVec 128
  recal : Bool
  recalOrder : Bool
  power : Option Int
  signal : Bool
  cdr : Bool
  cdrAt : Nat
  marker : Bool
  search : List Search
  markAt : Nat
  rxMark : Option (BitVec 16 × Nat)
  txMark : Option (BitVec 16 × Nat)
  pattern : Nat
  userPattern : BitVec 128
  checker : Bool
  errors : BitVec 48
  slip : Nat
  mcount : BitVec 16
  preY : BitVec 2
  serCorr : Nat
  serRecv : Nat
deriving DecidableEq, Repr

/-- The logical lane a cold start maps to PL `p` (04 R122); the spare carries none. -/
def defaultLL (p : Nat) : Option Nat := if p % 17 < 16 then some (p / 17 * 16 + p % 17) else none

/-- Lane pair `p` after a cold start (04 R122, R123): free, at no rate; Gray mapping on is DESIGN CHOICE (log entry 3). -/
def Lane.reset (p : Nat) : Lane :=
  { state := 0, role := 0, rate := 3, gray := true, preTx := false, preRx := false, squelch := false, ll := defaultLL p,
    failCause := 0, calValid := false, lost := false, calCheck := 0, calTemp := 0, calDt := 0, sets := [], tx := 0, ctle := 0,
    dfe := 0, ffe := 0, recal := false, recalOrder := false, power := none, signal := false, cdr := false, cdrAt := 0,
    marker := false, search := [], markAt := 0, rxMark := none, txMark := none, pattern := 0, userPattern := 0, checker := false,
    errors := 0, slip := 0, mcount := 0, preY := 0, serCorr := 0, serRecv := 0 }

/-- A port (04 Table 4-16): its width code and its rate code. -/
structure PortCfg where
  width : Nat
  rate : Nat
deriving DecidableEq, Repr

/-- A sparing handshake (04 R141 to R144). `requester` says that this end sent REQ or REVERT_REQ with SEQ `seq`; `peer` is
the SEQ of the far end's request, when it serves one (both, when two requests for one position crossed). `deskewed` says that
the lane to be taken over has been deskewed at a marker, `acked` that the far end's ACK came, `sentAck` that this end's went;
`sw` is 0, 1 while SWITCH is to go out in the next marker, 2 once it has; `taken` says that the far end's SWITCH came and the
receiver changed over. `order` says that a SPARE or UNSPARE order waits for it, `merged` that it joined the far end's. -/
structure Handshake where
  requester : Bool
  peer : Option Nat
  revert : Bool
  pos : Nat
  pl : Nat
  seq : Nat
  cause : Nat
  order : Bool
  merged : Bool
  deskewed : Bool
  acked : Bool
  sentAck : Bool
  sw : Nat
  taken : Bool
  began : Nat
deriving DecidableEq, Repr

/-- A calliper's scan (04 R134 to R136): its lane, the points left, the records written, whether they are still valid. -/
structure Scan where
  pl : Nat
  points : List (Nat × Int × Int)
  done : List Nat
  valid : Bool
  order : Running
deriving DecidableEq, Repr

/-- An optical engine: OE_SET's fields (04 Table 4-11, thresholds in 0.1 dBm), the spare's state (Table 4-15), the laser
input's samples (R145, newest first: below LOW_ALARM, above HIGH_ALARM) and its scans. `spared` is the replaced PL; `autoSince`
the instant AUTO_SPARE became 1; `serOld` and `holdOld` what SPARE_SER_EXP and SPARE_HOLD_MS are until the millisecond of DT
`setMs` ends (Table 4-20). -/
structure Engine where
  sparePort : Option Nat
  autoSpare : Bool
  lowWarn : Int
  lowAlarm : Int
  highAlarm : Int
  serExp : Nat
  holdMs : Nat
  autoSince : Nat
  serOld : Nat
  holdOld : Nat
  setMs : Option Nat
  spareState : Nat
  spareLockSince : Option Nat
  spared : Option Nat
  revertLockSince : Option Nat
  hs : Option Handshake
  msgOut : BitVec 32
  seqOut : Nat
  above : List (Nat × Nat)
  power : Int
  temp : Int
  samples : List (Bool × Bool)
  warn : Bool
  lowLatch : Bool
  highLatch : Bool
  clearSince : Option Nat
  scans : List Scan
deriving DecidableEq, Repr

/-- An engine after a cold start: OE_SET's reset values (04 Table 4-11), no sparing, no sample. -/
def Engine.reset : Engine :=
  { sparePort := none, autoSpare := false, lowWarn := 140, lowAlarm := 120, highAlarm := 200, serExp := 4,
    holdMs := 100, autoSince := 0, serOld := 4, holdOld := 100, setMs := none, spareState := 0, spareLockSince := none, spared := none, revertLockSince := none, hs := none,
    msgOut := 0, seqOut := 0, above := [], power := 0, temp := 0, samples := [], warn := false, lowLatch := false,
    highLatch := false, clearSince := none, scans := [] }

/-- A crosspoint entry (04 R151 to R154), by its source PL. -/
structure Xp where
  rate : Nat
  dests : List Nat
  squelched : Bool
deriving DecidableEq, Repr

/-- Chapter 04's state: ports at their numbers, FORCE_OFF (Table 4-12), and whether the last cold start since DORMANT or
HALT was left reached its step 5 (R148). -/
structure OptSt where
  lanes : SMap Lane
  ports : SMap (Option PortCfg)
  engines : SMap Engine
  xps : SMap (Option Xp)
  forceOff : BitVec 2
  step5 : Bool
deriving DecidableEq, Repr

/-- Chapter 04 at reset: nothing listed, ELS_CTRL 0. -/
def OptSt.reset : OptSt := { lanes := [], ports := [], engines := [], xps := [], forceOff := 0, step5 := false }

end Sys2Proof.Machine
end

