-- ==== Sys2Proof/Machine/St/Out.lean ====
section
/-! DEFINITION. What the block does to the world outside it: the entries of `State.out`. -/

namespace Sys2Proof.Machine

/-- An act on the outside world, in the order the block makes them. -/
inductive Out where
  /-- A DMA write to host memory (02 R58, R64). -/
  | dma (m : Master) (addr : Nat) (bytes : List Byte)
  /-- An MSI-X message of a host port (02 R74). -/
  | msix (m : Master) (vector : Nat)
  /-- An in-band interrupt on M0 (02 R51). -/
  | ibi
  /-- An in-band interrupt on the tray bus with its mandatory byte (16 R529). -/
  | trayIbi (index : Nat)
  /-- The data a read of a register returned (20 R601). -/
  | read (m : Master) (offset : Nat) (value : Word)
  /-- The bytes an I3C target returned on M0 (false) or on the tray bus (true). -/
  | i3c (tray : Bool) (value : Nat)
  /-- Bytes moved on the ELS two-wire bus (04 R150). -/
  | els (bytes : List Byte)
  /-- Clock pulses on ELS_SCL that free the bus (04 R150). -/
  | elsClock (pulses : Nat)
  /-- A frame a port transmits, with the DT of its first symbol (05, 06 R209). -/
  | frame (port : Nat) (bytes : List Byte) (dt : Nat)
  /-- A native link idle structure a port sends (05 Table 5-3), as one integer. -/
  | idle (port : Nat) (value : Nat)
  /-- A native marker block a lane sends (05 Table 5-2). -/
  | marker (lane : Nat) (block : BitVec 257)
  /-- An alignment marker of its clause that a standard lane sends (06 R208). -/
  | alignMarker (lane : Nat)
  /-- A codeword that a lane sends, as PAM4 symbols of two bits, the first one lowest (05 R163, 04 R127). -/
  | codeword (lane : Nat) (symbols : Nat)
  /-- A port sends remote fault ordered sets in place of frames and idles, or no more (05 R177). -/
  | remoteFault (port : Nat) (on : Bool)
  /-- A port sends idles only, because it receives remote fault, or frames again (05 R178). -/
  | idlesOnly (port : Nat) (on : Bool)
  /-- The frame a port was sending ended with an error control character (05 R179). -/
  | frameError (port : Nat)
  /-- Symbols a lane transmits through the crosspoint again, or no more (04 R154). -/
  | squelch (lane : Nat) (on : Bool)
  /-- The whole shadow region at an address filled with the images of every table location (08 R307). -/
  | shadowFill (m : Master) (addr : Nat) (images : List (Nat × List Byte))
  /-- The TAP shifts a value out (18 R567). -/
  | tdo (value : Nat)
deriving DecidableEq, Repr

end Sys2Proof.Machine
end

