-- ==== Sys2Proof/Machine/St/Pcs.lean ====
section
/-! DEFINITION. State of PCS, FEC and link monitoring (chapter 05). -/

namespace Sys2Proof.Machine

/-- PCS_SET of a port (05 Table 5-8): SET and CLEAR of LOS, LOL, LOAM, HISER, LF, RF, LSIP in that order. `sesNow` is
the SES_EXP of the second under way; `maxOld` and `maxAt` the MAX_FRAME before the last set and the instant of that set
(R187). -/
structure PcsSet where
  set : List Nat
  clear : List Nat
  sesExp : Nat
  sesNow : Nat
  hiserFault : Bool
  maxFrame : Nat
  maxOld : Nat
  maxAt : Nat
  losLevel : Int
deriving DecidableEq, Repr

/-- PCS_SET's defaults (05 Table 5-8). -/
def PcsSet.reset : PcsSet :=
  { set := [10, 10, 0, 1, 2, 2, 3000], clear := [10000, 10000, 10000, 8, 10000, 10000, 1000], sesExp := 5,
    sesNow := 5, hiserFault := false, maxFrame := 9216, maxOld := 9216, maxAt := 0, losLevel := -120 }

/-- A raw condition of a defect (05 R174): present since, the earlier spans (onset, end), newest first, and the instant
of its last end. -/
structure Raw where
  since : Option Nat
  spans : List (Nat × Nat)
  ended : Nat
deriving DecidableEq, Repr

def Raw.reset : Raw := { since := none, spans := [], ended := 0 }

/-- A monitoring bin (05 Table 5-10). -/
structure Bin where
  start : Nat
  final : Bool
  suspect : Bool
  part : Bool
  elapsed : Nat
  es : Nat
  ses : Nat
  uas : Nat
  ucw : Nat
deriving DecidableEq, Repr

/-- A second already counted: its number, whether errored, whether severely errored (05 R181, R182). -/
structure Second where
  number : Nat
  es : Bool
  ses : Bool
deriving DecidableEq, Repr

/-- What PM keeps of a port (05 R182 to R185): bins newest first, current ones at the head. -/
structure Pm where
  unavailable : Bool
  run : List Second
  q15 : List Bin
  h24 : List Bin
  cws : Nat
  ucws : Nat
  fcs : Nat
  sesDefect : Bool
deriving DecidableEq, Repr

def Pm.reset : Pm :=
  { unavailable := false, run := [], q15 := [], h24 := [], cws := 0, ucws := 0, fcs := 0, sesDefect := false }

/-- The neighbour values of a native port (01 R41, 05 Table 5-11). -/
structure Neighbour where
  fingerprint : BitVec 128
  version : BitVec 16
  diverged : Bool
  committedValid : Bool
  stale : Bool
  never : Bool
  arrival : Nat
  arrivedAt : Nat
deriving DecidableEq, Repr

def Neighbour.reset : Neighbour :=
  { fingerprint := 0, version := 0, diverged := false, committedValid := false, stale := false, never := true,
    arrival := 0, arrivedAt := 0 }

/-- The transmit chain of a native port (05 R163 to R165): the scrambler's last 58 bits, the 66-bit blocks that wait for a fourth,
the lane position the next 257-bit block goes to, the blocks each lane has collected, whether the codeword being collected
holds a structure, and the idle blocks still to be deleted for what was inserted. -/
structure Line where
  scr : BitVec 58
  blocks : List (BitVec 66)
  deal : Nat
  lanes : List (List (BitVec 257))
  held : Bool
  owed : Nat
deriving DecidableEq, Repr

/-- The chain of a port as it is created; the scrambler's seed is DESIGN CHOICE (log entry 3). -/
def Line.reset : Line := { scr := 0, blocks := [], deal := 0, lanes := [], held := false, owed := 0 }

/-- The PCS of a port: defects and their SEEN latches by bit (05 Table 5-4), the raw conditions, the counters of
Table 5-7, fault signalling (R177, R178), the structure count (R165), the HISER windows' judgements newest first, monitoring.
`lockSince` is the instant since which every lane holds marker lock and `lastLock` the last span that ended (R171); `lsipFor` the
MCOUNT of the marker whose structure is awaited; `taken` the SEQ last accepted and its lane position (R166); `advMs` the
millisecond of DT last advertised (R165). -/
structure PcsPort where
  defects : BitVec 7
  seen : BitVec 7
  raw : List Raw
  hiser : List Bool
  codewords : BitVec 64
  corrCw : BitVec 64
  ucw : BitVec 64
  corrSym : BitVec 64
  discUcw : BitVec 48
  discFcs : BitVec 48
  discRunt : BitVec 48
  discOver : BitVec 48
  discMode : BitVec 48
  laneSym : List Nat
  sendRf : Bool
  lfClear : Option Nat
  recvRf : Bool
  seq : BitVec 8
  lockSince : Option Nat
  lastLock : Option (Nat × Nat)
  lsipFor : Option (BitVec 16)
  taken : Option (BitVec 8 × Nat)
  line : Line
  pm : Pm
  nb : Neighbour
deriving DecidableEq, Repr

/-- A port's PCS when the port is created (05 R172, R185, R190). -/
def PcsPort.reset : PcsPort :=
  { defects := 0, seen := 0, raw := List.replicate 7 Raw.reset, hiser := [], codewords := 0,
    corrCw := 0, ucw := 0, corrSym := 0, discUcw := 0, discFcs := 0, discRunt := 0, discOver := 0, discMode := 0,
    laneSym := List.replicate 8 0, sendRf := false, lfClear := none, recvRf := false, seq := 0, lockSince := none, lastLock := none,
    lsipFor := none, taken := none, line := Line.reset, pm := Pm.reset,
    nb := Neighbour.reset }

/-- Chapter 05's state; the settings belong to the port number (R187). `lastSec` is the DT second now being monitored,
`advMs` the millisecond of DT last advertised (R165). -/
structure PcsSt where
  sets : SMap PcsSet
  ports : SMap PcsPort
  lastSec : Nat
  advMs : Nat
deriving DecidableEq, Repr

def PcsSt.reset : PcsSt := { sets := [], ports := [], lastSec := 0, advMs := 0 }

end Sys2Proof.Machine
end

