-- ==== Sys2Proof/Machine/St/Power.lean ====
section
/-! DEFINITION. State of power and cooling, of the Rivel tray interface (chapter 16), of the error records
(chapter 17) and of the package contacts and test access (chapter 18). -/

namespace Sys2Proof.Machine

/-- A workload phase (16 Table 16-12). -/
structure Phase where
  opp : Nat
  capW : Nat
  slope : Nat
  order : Nat
deriving DecidableEq, Repr

/-- A phase after a cold start (16 R513). -/
def Phase.reset : Phase := { opp := 0, capW := 1300, slope := 20, order := 0 }

/-- A pending phase selection (16 R514): the phase and T_p in DT units. -/
structure PendPhase where
  phase : Nat
  tp : Nat
deriving DecidableEq, Repr

/-- A pre-ramp request (13 R451, 16 R509): its context and unit, what it asks, what it was granted, when it was sent, when the
barrier was released, whether the controller has received it and whether it has reported the ramp complete. -/
structure PreRamp where
  ctx : Nat
  unit : Nat
  askW : Nat
  grantW : Nat
  sentAt : Nat
  relAt : Option Nat
  received : Bool
  done : Bool
deriving DecidableEq, Repr

/-- The power controller. `demand` and `allot` are the three domains in the order links, memory, compute; `railA` the
six rails' currents in 0.1 A and `railEv` their limit events; `thermW` the cap that R518 leaves; `floor` the domains' floors, at
first those of Table 16-2; `ballastDw` and `estimateDw` the ballast and the estimate of R508 in 0.1 W. -/
structure PwrSt where
  vinCv : Nat
  phases : SMap Phase
  phase : Nat
  pend : Option PendPhase
  opp : Nat
  oppTarget : Nat
  oppMoving : Bool
  prerampEn : Bool
  thermStepPct : Nat
  ibiEn : Bool
  capEff : Nat
  thermW : Nat
  inputW : Nat
  loadW : Nat
  demand : List Nat
  floor : List Nat
  allot : List Nat
  railA : List Nat
  railEv : List Nat
  gateCap : Bool
  gateSlope : Bool
  gateRail : Bool
  gateThermal : Bool
  capUnreach : Bool
  ballastDw : Nat
  estimateDw : Nat
  requests : List PreRamp
  throttleUs : Nat
  sensors : SMap Int
  tjMax : Int
  tjSensor : Nat
  hotwarn : Bool
  dramSelfRefresh : Bool
deriving DecidableEq, Repr

/-- Power at reset: phases and POWER_SET as a cold start leaves them (16 R513, Table 16-12), every reading 0.
(Log entry 3.) -/
def PwrSt.reset : PwrSt :=
  { vinCv := 0, phases := [], phase := 0, pend := none, opp := 0, oppTarget := 0, oppMoving := false,
    prerampEn := true, thermStepPct := 5, ibiEn := true, capEff := 1300, thermW := 1300, inputW := 0, loadW := 0,
    demand := [0, 0, 0], floor := [480, 60, 90],
    allot := [0, 0, 0], railA := [0, 0, 0, 0, 0, 0], railEv := [0, 0, 0, 0, 0, 0],
    gateCap := false, gateSlope := false, gateRail := false, gateThermal := false, capUnreach := false, ballastDw := 0,
    estimateDw := 0, requests := [], throttleUs := 0, sensors := [], tjMax := 0, tjSensor := 0,
    hotwarn := false, dramSelfRefresh := false }

/-- One filtered Rivel input (16 R522 to R524): accepted as faulted, chattering, and the instant since which it has
been unfaulted and not chattering. -/
structure RivelIn where
  fault : Bool
  chatter : Bool
  cleanSince : Option Nat
deriving DecidableEq, Repr

/-- The Rivel interface and the tray bus (16 R521 to R530). A tray condition's `…At` is the instant since which it has
held against its advisory's present state. -/
structure RivSt where
  flow : RivelIn
  tray : RivelIn
  pwrgood : RivelIn
  pwrgoodSeen : Bool
  flowLatch : Bool
  trayLatch : Bool
  critLatch : Bool
  pwrLostSeen : Bool
  busFault : Bool
  thermtrip : Bool
  thermtripUntil : Nat
  critCleanSince : Option Nat
  trayAddr : Option (BitVec 7)
  trayIbi : Bool
  trayIndex : Nat
  inlet : BitVec 16
  flowRate : BitVec 16
  heartbeat : BitVec 8
  heartbeatAt : Nat
  advFlow : Bool
  advInlet : Bool
  advHeart : Bool
  advFlowAt : Option Nat
  advInletAt : Option Nat
deriving DecidableEq, Repr

/-- The interface at reset: no fault, nothing latched (16 Tables 16-8, 16-9); the tray's registers 0 and its interrupts
enabled are DESIGN CHOICE (log entry 3). -/
def RivSt.reset : RivSt :=
  { flow := ⟨false, false, none⟩, tray := ⟨false, false, none⟩, pwrgood := ⟨true, false, none⟩, pwrgoodSeen := false,
    flowLatch := false, trayLatch := false, critLatch := false, pwrLostSeen := false, busFault := false,
    thermtrip := false, thermtripUntil := 0, critCleanSince := none, trayAddr := none, trayIbi := true, trayIndex := 0,
    inlet := 0, flowRate := 0, heartbeat := 0, heartbeatAt := 0, advFlow := false, advInlet := false,
    advHeart := false, advFlowAt := none, advInletAt := none }

/-- An error record (17 Table 17-2); `countMs` is the millisecond in which its COUNT was last reported (R551). -/
structure ErrRec where
  seq : Nat
  cls : Nat
  level : Nat
  opened : Bool
  valid : Bool
  outcome : Nat
  unit : Nat
  count : Nat
  firstDt : Nat
  lastDt : Nat
  detail : Nat
  ownGen : BitVec 32
  mode : Nat
  countMs : Nat
deriving DecidableEq, Repr

/-- A slot never used (17 R547). -/
def ErrRec.reset : ErrRec :=
  { seq := 0, cls := 0, level := 0, opened := false, valid := false, outcome := 0, unit := 0, count := 0, firstDt := 0,
    lastDt := 0, detail := 0, ownGen := 0, mode := 0, countMs := 0 }

/-- An overflow counter of a group (17 R547): OVF_COUNT, OVF_LAST_CLASS, the millisecond of the last ERROR_OVERFLOW. -/
structure Ovf where
  count : Nat
  last : Nat
  ms : Nat
deriving DecidableEq, Repr

/-- The error-record store (17 R537 to R549): slots at key 16·group + slot. -/
structure ErrSt where
  recs : SMap ErrRec
  seq : Nat
  overflow : BitVec 20
  ovf : SMap Ovf
  fatal : ErrRec
  fatalLatch : Bool
  fatalRead : Bool
  cuIsolated : BitVec 16
deriving DecidableEq, Repr

/-- The store after auxiliary power-up (17 R538). -/
def ErrSt.reset : ErrSt :=
  { recs := [], seq := 0, overflow := 0, ovf := [], fatal := ErrRec.reset, fatalLatch := false, fatalRead := false,
    cuIsolated := 0 }

/-- The TAP's instructions (18 R567). -/
inductive TapInstr where
  | idcode | bypass | samplePreload | extest | clamp | highz
deriving DecidableEq, Repr

/-- Contacts and test access (chapter 18). `sysreset` says that a recognised SYSRESET_N pulse is still low. -/
structure PinSt where
  vaux : Bool
  straps : BitVec 4
  sysreset : Bool
  gpioDir : BitVec 8
  gpioOut : BitVec 8
  gpioIn : BitVec 8
  gpioRise : BitVec 8
  gpioFall : BitVec 8
  tap : TapInstr
  boundary : List Bool
  elsEn : BitVec 2
deriving DecidableEq, Repr

/-- The contacts at reset (18 Tables 18-5 to 18-8, R567); straps 0 until sampled is DESIGN CHOICE (log entry 3);
`elsEn` bit g is 1 while ELS_EN_N[g] is driven low (04 Table 4-12). -/
def PinSt.reset : PinSt :=
  { vaux := true, straps := 0, sysreset := false, gpioDir := 0, gpioOut := 0, gpioIn := 0, gpioRise := 0,
    gpioFall := 0, tap := .idcode, boundary := [], elsEn := 0 }

end Sys2Proof.Machine
end

