-- ==== Sys2Proof/Machine/St/Table.lean ====
section
/-! DEFINITION. State of the forwarding tables (chapter 08). The four quadrants hold one content (R265, R266), which
stands here once; a copy's FROM and TO are places of creation of versions. -/

namespace Sys2Proof.Machine

/-- An exact-match cell (08 R279, Table 8-8): `hits` holds the four quadrants' hit bits, `visit` the elapsed time of a learned
entry's insertion or last aging visit (R291). -/
structure EmCell where
  table : Nat
  key : BitVec 128
  ad : BitVec 64
  learned : Bool
  hits : BitVec 4
  from_ : Nat
  to_ : Option Nat
  visit : Nat
deriving DecidableEq, Repr

/-- An LPM entry (08 Table 8-8); one that a repair lost is not valid and holds its place until it is freed (R309). -/
structure LpmEnt where
  valid : Bool
  table : Nat
  len : Nat
  pfx : BitVec 128
  action : Nat
  from_ : Nat
  to_ : Option Nat
deriving DecidableEq, Repr

/-- An ACL row (08 Table 8-8). -/
structure AclRow where
  table : Nat
  key : BitVec 640
  mask : BitVec 640
  action : Nat
  from_ : Nat
  to_ : Option Nat
deriving DecidableEq, Repr

/-- A physical word of action data (08 R303). -/
structure ActWord where
  word : BitVec 64
  from_ : Nat
  to_ : Option Nat
deriving DecidableEq, Repr

/-- LEARN_SET of an exact-match table (08 Table 8-4). -/
structure LearnSet where
  learn : Bool
  portInAd : Bool
  moveUpdate : Bool
  age : Bool
  ad : BitVec 64
deriving DecidableEq, Repr

/-- LEARN_SET's resets (08 Table 8-4). -/
def LearnSet.reset : LearnSet := { learn := false, portInAd := false, moveUpdate := false, age := true, ad := 0 }

/-- A request queued for the update engine (08 R287, R290): to learn a key, or to move its station to a port. -/
structure LearnReq where
  move : Bool
  table : Nat
  key : BitVec 128
  port : Nat
deriving DecidableEq, Repr

/-- SHADOW_STATE (08 Table 8-13). -/
inductive ShadowState where
  | none | filling | valid | invalid
deriving DecidableEq, Repr

/-- A dump under way (08 R313): its memory, whether it locks it, and its start. -/
structure Dump where
  mem : Nat
  lock : Bool
  began : Nat
  order : Order
deriving DecidableEq, Repr

/-- A flush under way (08 R294). -/
structure Flush where
  table : Nat
  port : Option Nat
  order : Order
deriving DecidableEq, Repr

/-- The table memories: exact match by location, IPv4 entries from unit 0 up, IPv6 entries from the top row down, ACL rows
by index, action words at 2·index + word; and the update engine's queue, settings and counters (Table 8-13). `bad` holds, for the
locations under repair (R309), the quadrant copies whose parity is in error and, in bit 4, that two copies differ; `gone` says
that the contents were lost in HALT (03 R120). -/
structure TblSt where
  em : SMap (Option EmCell)
  lpm4 : List LpmEnt
  lpm6 : List LpmEnt
  acl : SMap (Option AclRow)
  act : SMap (Option ActWord)
  learn : SMap LearnSet
  agePeriod : Nat
  learnQ : List LearnReq
  learnDropped : Nat
  aged : Nat
  repairs : Nat
  lost : Nat
  shadow : ShadowState
  shadowPort : Nat
  shadowAddr : Nat
  compareDt : Nat
  comparePos : Nat
  compareDone : Nat
  dumps : List Dump
  flushes : List Flush
  bad : SMap (BitVec 5)
  gone : Bool
deriving DecidableEq, Repr

/-- The tables after a cold start: empty (08 R318, Table 8-4). -/
def TblSt.reset : TblSt :=
  { em := [], lpm4 := [], lpm6 := [], acl := [], act := [], learn := [], agePeriod := 300000, learnQ := [],
    learnDropped := 0, aged := 0, repairs := 0, lost := 0, shadow := .none, shadowPort := 0, shadowAddr := 0,
    compareDt := 0, comparePos := 0, compareDone := 0, dumps := [], flushes := [],
    bad := [], gone := false }

end Sys2Proof.Machine
end

