-- ==== Sys2Proof/Machine/St/Tel.lean ====
section
/-! DEFINITION. State of telemetry: counters, reducers, bandwidth, export, capture (chapter 15). -/

namespace Sys2Proof.Machine

/-- A selectable counter (15 R485, R486). -/
structure SelCtr where
  event : Nat
  qual : Nat
  chain : Bool
  running : Bool
  count : Nat
deriving DecidableEq, Repr

def SelCtr.reset : SelCtr := { event := 0, qual := 0, chain := false, running := false, count := 0 }

/-- A SEL_CTRL that waits for its instant (15 R487). -/
structure SelWait where
  slice : Nat
  act : Nat
  due : Nat
  first : Nat
  count : Nat
deriving DecidableEq, Repr

/-- A histogram (15 R480, Table 15-10) with its bins. -/
structure Hist where
  filter : BitVec 64
  enable : Bool
  metric : Nat
  log : Bool
  start : Nat
  width : Nat
  bins : List Nat
deriving DecidableEq, Repr

def Hist.reset : Hist :=
  { filter := 0, enable := false, metric := 0, log := false, start := 0, width := 0, bins := List.replicate 64 0 }

/-- A flow sketch (15 R481): its counters at 4096·row + index, its heavy-hitter table of flows and estimates. -/
structure Sketch where
  filter : BitVec 64
  enable : Bool
  weight : Bool
  thr : Nat
  ctrs : SMap Nat
  heavy : List (Nat × Nat)
deriving DecidableEq, Repr

def Sketch.reset : Sketch := { filter := 0, enable := false, weight := false, thr := 0, ctrs := [], heavy := [] }

/-- An evidence reducer (15 R482). -/
structure EvRed where
  filter : BitVec 64
  enable : Bool
  ports : BitVec 512
deriving DecidableEq, Repr

def EvRed.reset : EvRed := { filter := 0, enable := false, ports := 0 }

/-- Bandwidth of a direction (15 R488): `cur` the bytes of the window under way, `whole` that it has been counted whole. -/
structure BwDir where
  cur : Nat
  last : Nat
  min : Nat
  max : Nat
  maxDt : Nat
  windows : Nat
deriving DecidableEq, Repr

def BwDir.reset : BwDir := { cur := 0, last := 0, min := 0, max := 0, maxDt := 0, windows := 0 }

/-- Bandwidth of a port: WINDOW_NS, the number of the window under way, whether it has been counted from its start, and the
two directions. -/
structure Bw where
  windowNs : Nat
  index : Nat
  whole : Bool
  rx : BwDir
  tx : BwDir
deriving DecidableEq, Repr

def Bw.reset : Bw :=
  { windowNs := 1000000000, index := 0, whole := true, rx := BwDir.reset, tx := BwDir.reset }

/-- An export selector (15 R489 to R491, Table 15-10): its settings, template, per-slice sample counts, the batch gathering
and since when, its counts, and the records sent in the present second (R489). -/
structure Export where
  filter : BitVec 64
  enable : Bool
  collector : Bool
  fmt32 : Bool
  trigger : Bool
  sampleN : Nat
  rateKps : Nat
  flushUs : Nat
  master : Nat
  ring : Nat
  outPort : Nat
  outQueue : Nat
  mtu : Nat
  udpPort : Nat
  tmplLen : Nat
  tmpl : List Byte
  tmplOk : Bool
  counts : List Nat
  batch : List (List Byte)
  since : Nat
  sent : BitVec 32
  lost : BitVec 32
  lostNow : Nat
  records : Nat
  dgrams : BitVec 32
  second : Nat
  inSecond : Nat
deriving DecidableEq, Repr

def Export.reset : Export :=
  { filter := 0, enable := false, collector := false, fmt32 := false, trigger := false, sampleN := 0, rateKps := 0,
    flushUs := 100, master := 0, ring := 0, outPort := 0, outQueue := 0, mtu := 0, udpPort := 40212, tmplLen := 0,
    tmpl := [], tmplOk := false, counts := List.replicate 32 0, batch := [], since := 0, sent := 0, lost := 0,
    lostNow := 0, records := 0, dgrams := 0, second := 0, inSecond := 0 }

/-- A capture class (15 R492, Table 15-9). -/
structure CapClass where
  enable : Bool
  snapLen : Nat
deriving DecidableEq, Repr

def CapClass.reset : CapClass := { enable := false, snapLen := 128 }

/-- A capture copy that waits to be written (15 R492): its packet, class, bytes, carrier as a host copy's, billet bytes. -/
structure CapCopy where
  pkt : Nat
  cls : Nat
  bytes : List Byte
  carrier : Option Nat
  hold : Nat
deriving DecidableEq, Repr

/-- A record of the capture ring: its class, its RECORD_NO, its shaving and captured bytes. -/
structure CapRec where
  cls : Nat
  no : Nat
  bytes : List Byte
deriving DecidableEq, Repr

/-- Packet capture (15 R493). `state` 0 running, 1 frozen, 2 draining; `post` the records still to be written after a freeze
that has not taken effect yet, with its trigger; `records` by ring order, oldest first. -/
structure Capture where
  wrap : Bool
  master : Nat
  ring : Nat
  postRecords : Nat
  state : Nat
  post : Option Nat
  trigger : Option Nat
  freezeNo : Nat
  recs : List CapRec
  number : Nat
  numbers : List Nat
  lost : BitVec 32
  lostNow : List Nat
  delivered : Nat
  waiting : List CapCopy
deriving DecidableEq, Repr

def Capture.reset : Capture :=
  { wrap := false, master := 0, ring := 0, postRecords := 0, state := 0, post := none, trigger := none, freezeNo := 0,
    recs := [], number := 0, numbers := List.replicate 16 0, lost := 0, lostNow := List.replicate 16 0, delivered := 0,
    waiting := [] }

/-- Chapter 15's state: port counters at 64·port + event, selectable counters at 256·slice + counter, the shavings finalised
of each slice (R476), reads that wait for their snapshot instant (R483). -/
structure TelSt where
  cnt : SMap (BitVec 64)
  sel : SMap SelCtr
  selWaits : List SelWait
  hists : SMap Hist
  sketches : SMap Sketch
  evs : SMap EvRed
  bws : SMap Bw
  exps : SMap Export
  classes : SMap CapClass
  cap : Capture
  seqs : SMap (BitVec 32)
deriving DecidableEq, Repr

def TelSt.reset : TelSt :=
  { cnt := [], sel := [], selWaits := [], hists := [], sketches := [], evs := [], bws := [], exps := [], classes := [],
    cap := Capture.reset, seqs := [] }

end Sys2Proof.Machine
end

