-- ==== Sys2Proof/Machine/St/Time.lean ====
section
/-! DEFINITION. State of the timebase and of the evidence log (chapter 06). -/

namespace Sys2Proof.Machine

/-- The settings of TB_SET (06 Table 6-11). -/
structure TbSet where
  source : Nat
  refFreq : Bool
  sourcePort : Nat
  holdLimit : Nat
  lockPs : Nat
  stepThreshold : Nat
  ppsOutOffset : Nat
  ppsOutEn : Bool
  tsyncEn : Bool
  tsyncFreq : Bool
  domain : Nat
deriving DecidableEq, Repr

/-- Table 6-11's reset values; SOURCE internal (R219), REF_FREQ, SOURCE_PORT and TSYNC_FREQ 0 are DESIGN CHOICE (log
entry 3). (Log entry 3.) -/
def TbSet.reset : TbSet :=
  { source := 0, refFreq := false, sourcePort := 0, holdLimit := 60, lockPs := 50000, stepThreshold := 10000,
    ppsOutOffset := 0, ppsOutEn := true, tsyncEn := false, tsyncFreq := false, domain := 24 }

/-- The servo's states (06 Table 6-2). -/
inductive Servo where
  | freerun | acquiring | locked | holdover
deriving DecidableEq, Repr

/-- PTP_PORT_SET of a port (06 Table 6-16). -/
structure PtpPort where
  role : Nat
  da : Bool
  masterOnly : Bool
  localPriority : Nat
  delayAsym : Int
deriving DecidableEq, Repr

/-- PTP_PORT_SET's reset values (06 Table 6-16); DA and DELAY_ASYM 0 are DESIGN CHOICE (log entry 3). -/
def PtpPort.reset : PtpPort := { role := 0, da := false, masterOnly := false, localPriority := 128, delayAsym := 0 }

/-- The data set that an Announce message carries (06 R203; IEEE 1588-2019 9.3.4), with the sender's port identity, the flags
that go on to those who follow, and the time source. -/
structure Announce where
  cls : Nat
  acc : Nat
  var : Nat
  prio2 : Nat
  gm : Nat
  steps : Nat
  sender : Nat
  flags : Nat
  timeSource : Nat
deriving DecidableEq, Repr

/-- A boundary-clock port at work (06 R203): the last Announce of its best master with the elapsed instants of that one and of the
one before it; the sequence numbers of the last Sync, Announce and Delay_Req sent and when each was; the Delay_Req that waits for
its answer, with its departure; a two-step Sync that waits for its Follow_Up, with its arrival and correction; the difference
that the last Sync measured, and the mean path delay, once measured. DT units. -/
structure PtpRun where
  ann : Option Announce
  annAt : Nat
  annPrev : Option Nat
  syncSeq : BitVec 16
  annSeq : BitVec 16
  reqSeq : BitVec 16
  syncAt : Option Nat
  annSent : Option Nat
  reqAt : Option Nat
  req : Option (BitVec 16 × Nat)
  two : Option (BitVec 16 × Nat × Int)
  down : Option Int
  delay : Option Int
deriving DecidableEq, Repr

def PtpRun.reset : PtpRun :=
  { ann := none, annAt := 0, annPrev := none, syncSeq := 0, annSeq := 0, reqSeq := 0, syncAt := none, annSent := none,
    reqAt := none, req := none, two := none, down := none, delay := none }

/-- A PTP message that waits for its port (06 R203): its Ethernet frame without FCS, and, of an event message that the transparent
clock passes on, the ingress timestamp. -/
structure PtpMsg where
  port : Nat
  frame : List (BitVec 8)
  inDt : Option Nat
deriving DecidableEq, Repr

/-- A marker captured (06 R208): its MCOUNT, its DT at the connector, and the elapsed time. -/
structure Mark where
  count : BitVec 16
  dt : Nat
  at_ : Nat
deriving DecidableEq, Repr

/-- Native link time transfer of a port (06 R205 to R207): LTT_SET, the last four own markers and far-end markers, the
elapsed time of the last path change and whether the next slot tells it, the valid samples held (delay, offset), and what the last slot said. -/
structure Ltt where
  enable : Bool
  asym : Int
  tx : List Mark
  rx : List Mark
  pathAt : Option Nat
  pathToSend : Bool
  samples : List (Int × Int)
  farLocked : Bool
  farHops : Nat
  sampleDt : Nat
deriving DecidableEq, Repr

/-- Link time transfer of a port at reset (06 Table 6-12). -/
def Ltt.reset : Ltt :=
  { enable := true, asym := 0, tx := [], rx := [], pathAt := none, pathToSend := false, samples := [],
    farLocked := false, farHops := 255, sampleDt := 0 }

/-- The timebase. `now` counts elapsed nanoseconds; `dt` is DT in units of 1/65,536 ns (Table 6-1); `acc` is the part
of a unit that the rate offset has accumulated, in 10^-12 units; `slew` is the offset still to be removed; `setSec` the
SECONDS of a pending kind 3 and the second in which it was accepted (R220); `learned` the frequencies of the last 1,000 s
of LOCKED (R198); `ppsBad` counts bad seconds in a row, `ppsSec` is the second of the last edge with its edges and whether it counts as bad, `ppsFrom`
the start of the span without an accepted edge (R199); `evalMs` is the millisecond of the last evaluation of a native-port source. `unlockUntil` ends the 1 us for which a step holds TB_LOCKED at 0 (R200). `gridShift` is how far, in
fifths of a unit and modulo 51.2 ns, the steps of DT have moved the transmit grid's origin (12 R422). -/
structure TbSt where
  now : Nat
  dt : Nat
  acc : Int
  freqPpt : Int
  slew : Int
  ownerSlew : Bool
  slewAcc : Nat
  setSec : Option (Nat × Nat)
  servo : Servo
  set : TbSet
  refOk : Bool
  ppsOk : Bool
  ppsFault : Bool
  stepSeen : Bool
  holdS : Nat
  holdAt : Nat
  unlockUntil : Nat
  snap : List (BitVec 96)
  goodRun : Nat
  badRun : Nat
  offset : Int
  learned : List (Nat × Int)
  ppsBad : Nat
  ppsSec : Nat
  ppsSecEdges : Nat
  ppsSecBad : Bool
  ppsFrom : Nat
  ppsGood : Nat
  ppsAccepted : Option Nat
  ppsRise : Option Nat
  ppsOut : Bool
  ppsOutEnd : Nat
  evalMs : Option Nat
  gridShift : Nat
  ptp : SMap PtpPort
  ptpRun : SMap PtpRun
  ptpOut : List PtpMsg
  ltt : SMap Ltt
deriving DecidableEq, Repr

/-- The timebase at reset (06 Table 6-2, R94): DT zero, SERVO FREERUN, settings of Table 6-11. -/
def TbSt.reset : TbSt :=
  { now := 0, dt := 0, acc := 0, freqPpt := 0, slew := 0, ownerSlew := false, slewAcc := 0, setSec := none, servo := .freerun,
    set := TbSet.reset, refOk := false, ppsOk := false, ppsFault := false, stepSeen := false, holdS := 0, holdAt := 0,
    unlockUntil := 0, snap := [0, 0, 0], goodRun := 0, badRun := 0, offset := 0, learned := [],
    ppsBad := 0, ppsSec := 0, ppsSecEdges := 0, ppsSecBad := true, ppsFrom := 0, ppsGood := 0, ppsAccepted := none, ppsRise := none, ppsOut := false, ppsOutEnd := 0,
    evalMs := none, gridShift := 0, ptp := [], ptpRun := [], ptpOut := [], ltt := [] }

/-- An evidence record before the log numbers it (06 Table 6-8). -/
structure Rec where
  type : Nat
  diverged : Bool
  unlocked : Bool
  late : Bool
  moved : Bool
  dt : Nat
  source : Nat
  body : BitVec 320
deriving DecidableEq, Repr

/-- The block filling (06 R214): its number, its records in INDEX order, newest first, and when its timer closes it. -/
structure Filling where
  number : Nat
  records : List (BitVec 512)
  firstDt : Nat
  lastDt : Nat
  real : Nat
  closeAt : Nat
deriving DecidableEq, Repr

/-- A closed block (06 R214, R215): number, epoch, header, signature once made, records. -/
structure Block where
  number : Nat
  header : BitVec 1024
  sig : Option (BitVec 768)
  records : List (BitVec 512)
  why : Nat
deriving DecidableEq, Repr

/-- The evidence log (06 R212 to R218). `blocks` are the blocks held, oldest first; `released` counts the blocks up to
which LOG_RELEASE has released; `lostNow` and `lostDt` are the losses since the last GAP record; `storedAt` is when the last record was stored. -/
structure LogSt where
  slots : Nat
  retain : Bool
  closeMs : Nat
  slotsInForce : Nat
  epoch : BitVec 32
  queue : List Rec
  next : Nat
  nextBlock : Nat
  fill : Option Filling
  blocks : List Block
  released : Nat
  lostNow : Nat
  lostDt : Nat
  lostTotal : Nat
  spaceLow : Bool
  prev : BitVec 256
  storedAt : Option Nat
deriving DecidableEq, Repr

/-- The log at reset (06 Table 6-12); EPOCH 0 is DESIGN CHOICE (log entry 3). -/
def LogSt.reset : LogSt :=
  { slots := 4096, retain := false, closeMs := 1000, slotsInForce := 4096, epoch := 0, queue := [], next := 0,
    nextBlock := 0, fill := none, blocks := [], released := 0, lostNow := 0, lostDt := 0, lostTotal := 0,
    spaceLow := false, prev := 0, storedAt := none }

end Sys2Proof.Machine
end

