-- ==== Sys2Proof/Machine/St/Ver.lean ====
section
/-! DEFINITION. State of the rule versions and of the versioned programs: parser states, port parse profiles, stage
programs and table definitions (chapters 07 and 08). A version is kept by the place of its creation (08, Versions inside
the tables), which never wraps; its 16-bit number follows from that (07 R238). -/

namespace Sys2Proof.Machine

/-- A version slot (07 Table 7-12): 0 free, 1 staged, 2 active, 3 retiring; its version, its in-flight count (R244), the
bank it selects (10 R358; false is A) and the commit instant that ended it (R245). -/
structure VSlot where
  state : Nat
  seq : Nat
  inFlight : Nat
  bank : Option Bool
  ended : Nat
deriving DecidableEq, Repr

def VSlot.free : VSlot := { state := 0, seq := 0, inFlight := 0, bank := none, ended := 0 }

/-- A pending commit (07 R241): its instant, whether that differs from a valid AT_DT, the bank the new version selects, and
the expected fingerprint. -/
structure PendCommit where
  tc : Nat
  moved : Bool
  bank : Option Bool
  expected : BitVec 128
deriving DecidableEq, Repr

/-- Versioned content of one object: the contents written, each with the version from which it is seen, newest first.
A version sees the newest that is not newer than itself, or the reset content. -/
abbrev Contents (α : Type) := List (Nat × α)

/-- Versions and programs. `stagedFp` is the staged running value (08 R315), `commitDt` COMMIT_DT of Table 7-12. Table
definitions stand at key 16·memory + table, memory 1 exact match, 2 LPM, 3 ACL (Table 8-10). -/
structure VerSt where
  slots : List VSlot
  stagedFp : BitVec 128
  pend : Option PendCommit
  commitDt : Nat
  parser : SMap (Contents (BitVec 320))
  profile : SMap (Contents (BitVec 19))
  stages : SMap (Contents (BitVec 1024))
  defs : SMap (Contents (BitVec 36))
deriving DecidableEq, Repr

/-- Version 0, empty, is the only live version (07 R238). -/
def VerSt.reset : VerSt :=
  { slots := [⟨2, 0, 0, none, 0⟩, VSlot.free, VSlot.free, VSlot.free, VSlot.free], stagedFp := 0, pend := none,
    commitDt := 0, parser := [], profile := [], stages := [], defs := [] }

end Sys2Proof.Machine
end

