-- ==== Sys2Proof/Machine/State.lean ====
section
/-! DEFINITION. The whole state of the block: one record for each chapter's state (their files stand in Machine/St/),
the count of free values drawn, what the block has done to the world outside, and the queue of waiting commands. -/

namespace Sys2Proof.Machine

/-- The block's state. `freeCtr` counts the free values drawn (log entry 1) and `out` lists the outward acts, newest
first; both are the model's own. `pending` is the queue of commands, first in, first out. -/
structure State where
  host : HostSt
  own : OwnSt
  mode : ModeSt
  fp : FpSt
  opt : OptSt
  pcs : PcsSt
  tb : TbSt
  log : LogSt
  pwr : PwrSt
  riv : RivSt
  err : ErrSt
  pin : PinSt
  ver : VerSt
  tbl : TblSt
  lat : LatSt
  fwd : FwdSt
  buf : BufSt
  egr : EgrSt
  grp : GrpSt
  coll : CollSt
  arb : ArbSt
  tel : TelSt
  freeCtr : Nat
  out : List Out
  pending : List Instr
deriving DecidableEq, Repr

/-- Why the machine stops with a fault. -/
inductive Fault where
  /-- Raised by no meaning: the spec has no command whose outcome is a stop of the block. Safe. -/
  | none
deriving DecidableEq, Repr

/-- Why a command has no meaning. -/
inductive Refusal where
  /-- Raised by an arm of `exec` whose command has no meaning yet. Safe. -/
  | notModelled (mnemonic : String)
deriving DecidableEq, Repr

/-- The block after reset: every chapter's state at its reset (see INVENTORY.md, State), nothing done, nothing waiting.
(Log entry 3.) -/
def State.reset : State :=
  { host := HostSt.reset, own := OwnSt.reset, mode := ModeSt.reset, fp := FpSt.reset, opt := OptSt.reset,
    pcs := PcsSt.reset, tb := TbSt.reset, log := LogSt.reset, pwr := PwrSt.reset, riv := RivSt.reset,
    err := ErrSt.reset, pin := PinSt.reset, ver := VerSt.reset, tbl := TblSt.reset, lat := LatSt.reset,
    fwd := FwdSt.reset, buf := BufSt.reset, egr := EgrSt.reset, grp := GrpSt.reset, coll := CollSt.reset,
    arb := ArbSt.reset, tel := TelSt.reset, freeCtr := 0, out := [], pending := [] }

end Sys2Proof.Machine
end

