-- ==== Sys2Proof/Machine/Update.lean ====
section
/-! DEFINITION. The named updates of the state: one for each of its records. Every meaning changes the state through
them, so that what a command leaves alone is read off its text. -/

namespace Sys2Proof.Machine.State

/-- The record `host` changed by `f`. -/
def updHost (s : State) (f : HostSt → HostSt) : State := { s with host := f s.host }

/-- The record `own` changed by `f`. -/
def updOwn (s : State) (f : OwnSt → OwnSt) : State := { s with own := f s.own }

/-- The record `mode` changed by `f`. -/
def updMode (s : State) (f : ModeSt → ModeSt) : State := { s with mode := f s.mode }

/-- The record `fp` changed by `f`. -/
def updFp (s : State) (f : FpSt → FpSt) : State := { s with fp := f s.fp }

/-- The record `opt` changed by `f`. -/
def updOpt (s : State) (f : OptSt → OptSt) : State := { s with opt := f s.opt }

/-- The record `pcs` changed by `f`. -/
def updPcs (s : State) (f : PcsSt → PcsSt) : State := { s with pcs := f s.pcs }

/-- The record `tb` changed by `f`. -/
def updTb (s : State) (f : TbSt → TbSt) : State := { s with tb := f s.tb }

/-- The record `log` changed by `f`. -/
def updLog (s : State) (f : LogSt → LogSt) : State := { s with log := f s.log }

/-- The record `pwr` changed by `f`. -/
def updPwr (s : State) (f : PwrSt → PwrSt) : State := { s with pwr := f s.pwr }

/-- The record `riv` changed by `f`. -/
def updRiv (s : State) (f : RivSt → RivSt) : State := { s with riv := f s.riv }

/-- The record `err` changed by `f`. -/
def updErr (s : State) (f : ErrSt → ErrSt) : State := { s with err := f s.err }

/-- The record `pin` changed by `f`. -/
def updPin (s : State) (f : PinSt → PinSt) : State := { s with pin := f s.pin }

/-- The record `ver` changed by `f`. -/
def updVer (s : State) (f : VerSt → VerSt) : State := { s with ver := f s.ver }

/-- The record `tbl` changed by `f`. -/
def updTbl (s : State) (f : TblSt → TblSt) : State := { s with tbl := f s.tbl }

/-- The record `lat` changed by `f`. -/
def updLat (s : State) (f : LatSt → LatSt) : State := { s with lat := f s.lat }

/-- The record `fwd` changed by `f`. -/
def updFwd (s : State) (f : FwdSt → FwdSt) : State := { s with fwd := f s.fwd }

/-- The record `buf` changed by `f`. -/
def updBuf (s : State) (f : BufSt → BufSt) : State := { s with buf := f s.buf }

/-- The record `egr` changed by `f`. -/
def updEgr (s : State) (f : EgrSt → EgrSt) : State := { s with egr := f s.egr }

/-- The record `grp` changed by `f`. -/
def updGrp (s : State) (f : GrpSt → GrpSt) : State := { s with grp := f s.grp }

/-- The record `coll` changed by `f`. -/
def updColl (s : State) (f : CollSt → CollSt) : State := { s with coll := f s.coll }

/-- The record `arb` changed by `f`. -/
def updArb (s : State) (f : ArbSt → ArbSt) : State := { s with arb := f s.arb }

/-- The record `tel` changed by `f`. -/
def updTel (s : State) (f : TelSt → TelSt) : State := { s with tel := f s.tel }

/-- One more outward act. -/
def emit (s : State) (a : Out) : State := { s with out := a :: s.out }

/-- One free value drawn (log entry 1). -/
def drawn (s : State) : State := { s with freeCtr := s.freeCtr + 1 }

end Sys2Proof.Machine.State
end

