-- ==== Sys2Proof/Machine/Flags.lean ====
section
/-! DEFINITION. The status words and derived bits of the block: CONTRACT_STATUS (01 Table 1-6), MODE_STATUS and
LAST_START (03 Tables 3-2, 3-4), OWN_STATE (02 Table 2-18), TB_STATUS (06 Table 6-2), RIVEL_STATUS and RIVEL_LATCH
(16 Tables 16-8, 16-9), PWR_STATUS and TEMP_STATUS (16 Tables 16-5, 16-6), the error registers (17 Tables 17-6 to 17-9). -/

namespace Sys2Proof.Machine

/-- The number of a mode in MODE_STATUS (03 Table 3-2). -/
def modeNum : Mode → Nat
  | .dormant => 0
  | .prepare => 1
  | .service => 2
  | .coast => 3
  | .probe => 4
  | .halt => 5

/-- The number of a servo state (06 Table 6-2). -/
def servoNum : Servo → Nat
  | .freerun => 0
  | .acquiring => 1
  | .locked => 2
  | .holdover => 3

/-- OWNER (02 Table 2-18). -/
def ownerNum : Option Master → Nat
  | some m => mIdx m
  | none => 3

/-- DRAINING (02 Table 2-18). -/
def draining (s : State) : Bool := s.own.drain.isSome

/-- TB_LOCKED (06 R200): LOCKED, or HOLDOVER below HOLD_LIMIT, and not within 1 us of a step. -/
def tbLocked (t : TbSt) : Bool :=
  (t.servo == .locked || (t.servo == .holdover && decide (t.holdS < t.set.holdLimit))) && decide (t.unlockUntil ≤ t.now)

/-- The limits of the rails in 0.1 A (16 Table 16-1). (Log entry 85.) -/
def railLimit (j : Nat) : Nat := [6400, 1250, 4700, 1550, 420, 30].getD j 0

/-- A rail that gates the compute or the links domain is not below its limit (16 Table 16-1, R503); VDRAM gates memory alone. -/
def railThrottle (p : PwrSt) : Bool := p.gateRail && (List.range 4).any fun j => decide (railLimit j ≤ p.railA.getD j 0)

/-- The cap or a rail's limit gates issue in the compute domain's islands (16 R503, R506, Table 16-1: VCORE and VSRAM).
(Log entry 84.) -/
def computeGated (p : PwrSt) : Bool :=
  (p.gateCap && decide (p.allot.getD 2 0 < p.demand.getD 2 0)) ||
    (p.gateRail && (List.range 2).any fun j => decide (railLimit j ≤ p.railA.getD j 0))

/-- A collective unit's island is under cap throttle (16 R507): the slope limit gates it too. -/
def unitThrottled (p : PwrSt) : Bool := computeGated p || p.gateSlope

/-- THROTTLE_ACTIVE (16 R507): some cap throttle acts. A cap that R518 has lowered gates through GATE_CAP. (Log entry 84.) -/
def throttleOf (p : PwrSt) : Bool := p.gateCap || p.gateSlope || railThrottle p
def throttleActive (s : State) : Bool := throttleOf s.pwr

/-- MODE_OK (01 Table 1-6). -/
def modeOk (s : State) : Bool := s.mode.mode == .service || s.mode.mode == .coast

/-- CONTRACT_HELD (01 Table 1-6). -/
def contractHeld (s : State) : Bool := modeOk s && s.fp.committedValid && !s.fp.diverged

/-- CONTRACT_STATUS (01 Table 1-6). -/
def contractStatus (s : State) : Nat :=
  packN [(0, 1, b2n s.fp.diverged), (1, 1, b2n s.fp.committedValid), (2, 1, b2n (tbLocked s.tb)),
    (3, 1, b2n (throttleActive s)), (4, 1, b2n (modeOk s)), (5, 1, b2n (contractHeld s)), (8, 1, b2n s.fp.divergeSeen),
    (9, 1, b2n s.fp.unlockSeen), (16, 16, s.fp.activeVersion.toNat)]

/-- A HALT cause is latched (03 Table 3-2 mirrors the latches of 16 R527 and 17 R552). -/
def haltCause (s : State) : Bool := s.riv.flowLatch || s.riv.trayLatch || s.riv.critLatch || s.err.fatalLatch

/-- MODE_STATUS (03 Table 3-2). -/
def modeStatus (s : State) : Nat :=
  packN [(0, 3, modeNum s.mode.mode), (3, 1, b2n s.mode.ready), (4, 1, b2n s.mode.active), (5, 1, b2n s.mode.warm),
    (6, 4, s.mode.step), (10, 2, s.mode.warmFails), (12, 1, b2n s.mode.forceCold), (13, 1, b2n s.mode.warmFailPrepare),
    (16, 1, b2n s.riv.flowLatch), (17, 1, b2n s.riv.trayLatch), (18, 1, b2n s.riv.critLatch),
    (19, 1, b2n s.err.fatalLatch), (20, 1, b2n s.mode.dormantHeld)]

/-- LAST_START (03 Table 3-4). -/
def lastStartWord (l : LastStart) : Nat :=
  packN [(0, 4, l.cause), (4, 1, b2n l.warm), (5, 2, l.result), (7, 4, l.failedStep), (16, 16, l.detail)]

/-- REMAIN_MS (02 Table 2-18): what is left of the lease, in ms, rounded down; a drain stops the count (R80). -/
def remainMs (s : State) : Nat :=
  if !s.own.leaseValid then 0 else if draining s then s.own.frozen / 1000000 else (s.own.leaseEnd - s.tb.now) / 1000000

/-- OWN_STATE (02 Table 2-18). -/
def ownState (s : State) : Nat :=
  packN [(0, 2, ownerNum s.own.owner), (2, 1, b2n s.own.leaseValid), (3, 1, b2n s.own.offer.isSome),
    (4, 2, match s.own.offer with | some f => mIdx f.to_ | none => 0), (6, 1, b2n (draining s))]

/-- TB_STATUS (06 Table 6-2). (Log entry 20.) -/
def tbStatus (t : TbSt) : Nat :=
  packN [(0, 2, servoNum t.servo), (2, 3, t.set.source), (5, 1, b2n t.refOk), (6, 1, b2n t.ppsOk), (7, 1, b2n t.ppsFault),
    (8, 1, b2n t.stepSeen), (16, 16, min t.holdS 65535)]

/-- RIVEL_LATCH (16 Table 16-9). -/
def rivelLatch (r : RivSt) : Nat :=
  packN [(0, 1, b2n r.flowLatch), (1, 1, b2n r.trayLatch), (2, 1, b2n r.critLatch), (3, 1, b2n r.pwrLostSeen),
    (4, 1, b2n r.busFault)]

/-- ALERT_N driven low (16 R526): a latch, CAP_UNREACHABLE, or an open tray advisory. -/
def alertLow (s : State) : Bool :=
  s.pin.vaux && (rivelLatch s.riv != 0 || s.pwr.capUnreach || s.riv.advFlow || s.riv.advInlet || s.riv.advHeart)

/-- RIVEL_STATUS (16 Table 16-8). -/
def rivelStatus (s : State) : Nat :=
  packN [(0, 1, b2n s.riv.flow.fault), (1, 1, b2n s.riv.tray.fault), (2, 1, b2n (!s.riv.pwrgood.fault)),
    (3, 1, b2n s.riv.flow.chatter), (4, 1, b2n s.riv.tray.chatter), (5, 1, b2n s.riv.pwrgood.chatter),
    (6, 1, b2n s.riv.thermtrip), (7, 1, b2n s.pwr.hotwarn), (8, 1, b2n (alertLow s))]

/-- GATING, PWR_STATUS bits [11:8] (16 Table 16-5). -/
def gating (p : PwrSt) : Nat :=
  packN [(0, 1, b2n p.gateCap), (1, 1, b2n p.gateSlope), (2, 1, b2n p.gateRail), (3, 1, b2n p.gateThermal)]

/-- PWR_STATUS (16 Table 16-5). (Log entry 20.) -/
def pwrStatus (p : PwrSt) : Nat :=
  packN [(0, 3, p.phase), (3, 3, if p.oppMoving then p.oppTarget else p.opp), (6, 1, b2n p.oppMoving),
    (7, 1, b2n (decide (0 < p.ballastDw))), (8, 4, gating p), (12, 1, b2n p.capUnreach), (16, 11, p.inputW)]

/-- TEMP_STATUS (16 Table 16-6). -/
def tempStatus (p : PwrSt) : Nat := packN [(0, 16, unsigned 16 p.tjMax), (16, 6, p.tjSensor)]

/-- Group `g` holds at least one open record (17 Table 17-6). -/
def groupOpen (e : ErrSt) (g : Nat) : Bool := e.recs.any (fun kv => decide (kv.1 / 16 = g) && kv.2.opened)

/-- ERR_SUMMARY (17 Table 17-6). (Log entry 20.) -/
def errSummary (e : ErrSt) : Nat := packN ((List.range 20).map fun g => (g, 1, b2n (groupOpen e g)))

/-- FATAL_STATUS (17 Table 17-8). -/
def fatalStatus (e : ErrSt) : Nat :=
  packN [(0, 1, b2n e.fatalLatch), (1, 1, b2n e.fatalRead), (8, 8, e.fatal.cls), (16, 16, e.fatal.count)]

end Sys2Proof.Machine
end

