-- ==== Sys2Proof/Machine/Sparse.lean ====
section
/-! DEFINITION. Sparse maps in one canonical form: keys strictly rising, no entry equal to what an unlisted key
reads as. The default may depend on the key. -/

namespace Sys2Proof.SMap

variable {α : Type}

/-- What key `k` reads as. -/
def get (d : Nat → α) : SMap α → Nat → α
  | [], k => d k
  | (j, v) :: m, k => if k = j then v else get d m k

/-- Entry `k` removed. -/
def erase : SMap α → Nat → SMap α
  | [], _ => []
  | (j, v) :: m, k => if k = j then m else if k < j then (j, v) :: m else (j, v) :: erase m k

/-- Entry `k` set to `v`, whatever the default. -/
def insert : SMap α → Nat → α → SMap α
  | [], k, v => [(k, v)]
  | (j, w) :: m, k, v =>
    if k = j then (k, v) :: m else if k < j then (k, v) :: (j, w) :: m else (j, w) :: insert m k v

/-- Key `k` written with `v`: the default is not listed. -/
def put [DecidableEq α] (d : Nat → α) (m : SMap α) (k : Nat) (v : α) : SMap α :=
  if v = d k then erase m k else insert m k v

/-- Key `k` changed by `f`. -/
def upd [DecidableEq α] (d : Nat → α) (m : SMap α) (k : Nat) (f : α → α) : SMap α :=
  put d m k (f (get d m k))

/-- Every key strictly above `lo` and rising, and no entry at its default. -/
def wfFrom [DecidableEq α] (d : Nat → α) : Option Nat → SMap α → Bool
  | _, [] => true
  | lo, (j, v) :: m =>
    (match lo with | none => true | some b => decide (b < j)) && decide (v ≠ d j) && wfFrom d (some j) m

/-- The canonical form. -/
def wf [DecidableEq α] (d : Nat → α) (m : SMap α) : Bool := wfFrom d none m

end Sys2Proof.SMap
end

