-- ==== Sys2Proof/Machine/Ops.lean ====
section
/-! DEFINITION. The shared operations on rings, interrupts, events and completions (chapter 02), the evidence log's
input (06 R213), divergence (01 R38, R39), error records (17 R547, R549) and entry to HALT (16 R531). -/

namespace Sys2Proof.Machine

/-! Rings -/

/-- The key of ring `n` of master `m`. -/
def ringKey (m : Master) (n : Nat) : Nat := mIdx m * 256 + n

/-- Ring `n` of master `m`; M0 has rings 0 to 3 (02 R51, R54), the others read as never enabled. -/
def getRing (s : State) (m : Master) (n : Nat) : Ring := SMap.get (fun _ => Ring.reset) s.host.rings (ringKey m n)

/-- Ring `n` of master `m` changed. -/
def updRing (s : State) (m : Master) (n : Nat) (f : Ring → Ring) : State :=
  s.updHost fun h => { h with rings := SMap.upd (fun _ => Ring.reset) h.rings (ringKey m n) f }

/-- The rings an attachment point has (02 R54). -/
def ringCount : Master → Nat
  | .m0 => 4
  | _ => 256

/-- The entry count of a ring (02 Table 2-5). -/
def ringSize (r : Ring) : Nat := 2 ^ (r.size + 6)

/-- Entries between consumer and producer (02 R59), for a ring the device produces. -/
def ringUsed (r : Ring) : Nat := (r.dev - r.host).toNat

/-- A ring the device produces is full (02 R59). -/
def ringFull (r : Ring) : Bool := decide (ringSize r - 1 ≤ ringUsed r)

/-- The base address of a ring (02 Table 2-6). -/
def ringBase (r : Ring) : Nat := r.baseHi.toNat * 2 ^ 32 + r.baseLo.toNat

/-- A byte of the M0 window; nothing written reads as zero (log entry 4). -/
def m0Byte (s : State) (a : Nat) : Byte := SMap.get (fun _ => 0) s.host.m0Win a

/-- Bytes stored in the M0 window from offset `a`; an offset beyond its 32 KiB (02 R51) stores nothing. (Log entry 4.) -/
def m0Store : List Host.Cell → Nat → List Byte → List Host.Cell
  | w, _, [] => w
  | w, a, b :: bs => m0Store (if a < 0x8000 then SMap.put (fun _ => (0 : Byte)) w a b else w) (a + 1) bs

/-- `n` bytes of the M0 window from offset `a`. (Log entries 4 and 16.) -/
def m0Load (s : State) (a n : Nat) : List Byte := (List.range n).map fun i => m0Byte s (a + i)

/-- A write to a master's memory: a DMA write, or for M0 a store into its window (02 R51). -/
def memWrite (s : State) (m : Master) (a : Nat) (bs : List Byte) : State :=
  match m with
  | .m0 => s.updHost fun h => { h with m0Win := m0Store h.m0Win a bs }
  | _ => s.emit (.dma m a bs)

/-- The index that follows, with PHASE inverted at the end of a pass (02 R66). -/
def ringAdvance (r : Ring) : Ring :=
  { r with dev := r.dev + 1, phase := if (r.dev.toNat + 1) % ringSize r = 0 then !r.phase else r.phase }

/-- The bytes an entry of a ring type takes: order 64, completion 16, event 32, slots 2, 4 or 16 KiB
(02 Tables 2-4, 2-5). -/
def entryBytes (r : Ring) : Nat :=
  match r.type with
  | 0 => 64
  | 1 => 16
  | 2 => 32
  | _ => if r.slot = 0 then 2048 else if r.slot = 1 then 4096 else 16384

/-- The address of a ring's entry at DEV_INDEX (02 R59). -/
def entryAddr (r : Ring) : Nat := ringBase r + r.dev.toNat % ringSize r * entryBytes r

/-! Interrupts (02 R74) -/

/-- The key of vector `v` of master `m`. -/
def vecKey (m : Master) (v : Nat) : Nat := mIdx m * 64 + v

def getVec (s : State) (m : Master) (v : Nat) : MsiVec := SMap.get (fun _ => MsiVec.reset) s.host.vectors (vecKey m v)

def updVec (s : State) (m : Master) (v : Nat) (f : MsiVec → MsiVec) : State :=
  s.updHost fun h => { h with vectors := SMap.upd (fun _ => MsiVec.reset) h.vectors (vecKey m v) f }

/-- A host port's function may send MSI-X messages: MSI-X Enable set, in D0 (02 Table 2-1). (Log entry 22.) -/
def msixOn (s : State) (m : Master) : Bool := let p := s.host.ports.get m; p.msixEn && !p.d3hot

/-- A vector fires: an MSI-X message, its PBA bit while the vector or the function is masked, or M0's in-band interrupt
when enabled (02 R51, R74). (Log entries 6, 15, 22 and 92.) -/
def fire (s : State) (m : Master) (v : Nat) : State :=
  let x := getVec s m v
  let masked := x.mask || (s.host.ports.get m).funcMask
  let t := updVec s m v fun y => { y with written := 0, since := none, pba := y.pba || (masked && m != .m0 && msixOn s m) }
  match m with
  | .m0 => if s.host.m0Ibi then t.emit .ibi else t
  | _ => if masked || !msixOn s m then t else t.emit (.msix m v)

/-- One more entry for a vector (02 R74): it fires at once with no moderation set, or with its COUNT reached.
(Log entries 6 and 15.) -/
def signal (s : State) (m : Master) (v : Nat) : State :=
  let x := getVec s m v
  let t := updVec s m v fun y =>
    { y with written := y.written + 1, since := some (y.since.getD s.tb.now) }
  if (x.count = 0 ∧ x.timeUs = 0) ∨ (x.count ≠ 0 ∧ x.count ≤ x.written + 1) then fire t m v else t

/-- The vector a ring's interrupt uses; M0 ignores VECTOR (02 Table 2-5) and uses vector 0 (log entry 6). -/
def ringVector (m : Master) (r : Ring) : Nat := if m = .m0 then 0 else r.vector

/-- An entry written at DEV_INDEX of a ring the device produces, and the ring's interrupt (02 R66, R74). -/
def ringPut (s : State) (m : Master) (n : Nat) (irq : Bool) (entry : Bool → List Byte) : State :=
  let r := getRing s m n
  let t := updRing (memWrite s m (entryAddr r) (entry r.phase)) m n ringAdvance
  if r.irqEn || irq then signal t m (ringVector m r) else t

/-! Attachment and events -/

/-- A master is attached (02 R46). A function in D3hot cannot master the bus, so its port is not (log entry 22). -/
def attached (s : State) (m : Master) : Bool :=
  match m with
  | .m0 => s.host.m0Addr.isSome
  | _ => let p := s.host.ports.get m; p.linkUp && p.busMaster && !p.d3hot

/-- A master's port counters changed. -/
def updPort (s : State) (m : Master) (f : Port → Port) : State :=
  s.updHost fun h => { h with ports := h.ports.upd m f }

/-- Ring `n` can receive an event (02 R58, R75). -/
def eventReady (r : Ring) : Bool := r.enable && r.type == 2 && !r.fault && !r.stopped

/-- The event ring of a master (02 R75): the lowest-numbered that is enabled with FAULT clear. -/
def eventRing (s : State) (m : Master) : Option Nat :=
  (s.host.rings.filter fun kv => kv.1 / 256 == mIdx m && eventReady kv.2).head?.map fun kv => kv.1 % 256

/-- An event entry (02 Table 2-16). -/
def eventBytes (s : State) (code object data : Nat) (phase : Bool) : List Byte :=
  bytesLE 32 (packN [(0, 16, code), (24, 1, b2n phase), (32, 32, s.own.gen.toNat), (64, 96, (dtWord s.tb.dt).toNat),
    (160, 32, object), (192, 64, data)])

/-- An event written to event ring `n`, or counted in LOST when the ring is full (02 R57). -/
def eventTo (s : State) (m : Master) (n code object data : Nat) : State :=
  if ringFull (getRing s m n) then
    updRing s m n fun r => { r with overflow := true, lost := satAdd 16 r.lost 1, evLost := satAdd 16 r.evLost 1 }
  else ringPut s m n false (eventBytes s code object data)

/-- Vector 0 is raised beside OWNER_CHANGED, LEASE_EXPIRED and HALT_NOTICE (02 R74). -/
def vectorZeroEvent (code : Nat) : Bool := code == 0x0201 || code == 0x0203 || code == 0x1001

/-- Vector 0 raised for an event of 02 R74: an entry that was written counts once for it, whether or not the ring's own
interrupt uses vector 0; with no entry written it fires at once. (Log entry 92.) -/
def raiseZero (s t : State) (m : Master) : State :=
  match eventRing s m with
  | some n =>
    let r := getRing s m n
    if ringFull r then fire t m 0 else if r.irqEn && ringVector m r == 0 then t else signal t m 0
  | none => fire t m 0

/-- An event posted to one master (02 R74, R75): nothing while it is not attached. -/
def postTo (s : State) (code object data : Nat) (m : Master) : State :=
  if !attached s m then s else
  let t := match eventRing s m with
    | some n => eventTo s m n code object data
    | none => updPort s m fun p => { p with missed := satAdd 8 p.missed 1 }
  if vectorZeroEvent code then raiseZero s t m else t

/-- An event posted to every attached master (02 R75). -/
def postAll (s : State) (code object data : Nat) : State :=
  postTo (postTo (postTo s code object data .h0) code object data .h1) code object data .m0

/-- `n` more occurrences of an event that is posted once in a millisecond (log entry 7). -/
def winEvent (s : State) (code key data lo len n : Nat) : State :=
  s.updHost fun h =>
    { h with wins :=
        if h.wins.any (fun w => w.code == code && w.key == key) then
          h.wins.map fun w => if w.code = code ∧ w.key = key then { w with data := data, count := w.count + n } else w
        else h.wins ++ [⟨code, key, data, lo, len, n, s.tb.now⟩] }

/-- The events whose millisecond has ended are posted. (Log entry 7.) -/
def winFlush (s : State) : State :=
  let due := fun (w : Win) => decide (w.opened + 1000000 ≤ s.tb.now)
  (s.host.wins.filter due).foldl (fun t w => postAll t w.code 0 (w.data + min w.count (2 ^ w.len - 1) * 2 ^ w.lo))
    (s.updHost fun h => { h with wins := h.wins.filter fun w => !due w })

/-- EVENTS_LOST (02 R57), written first when space returns in an event ring. -/
def eventsLost (s : State) (m : Master) (n : Nat) : State :=
  let r := getRing s m n
  if eventReady r && decide (0 < r.evLost) && !ringFull r then
    ringPut (updRing s m n fun q => { q with evLost := 0 }) m n false (eventBytes s 0x0208 0 r.evLost)
  else s

/-! Completions (02 R57, R65, Table 2-12) -/

/-- A completion's bytes (02 Table 2-12). -/
def completionBytes (o : Order) (status data : Nat) (phase : Bool) : List Byte :=
  bytesLE 16 (packN [(0, 16, o.tag.toNat), (16, 16, status), (32, 8, o.ring), (40, 1, b2n phase),
    (48, 16, o.index.toNat), (64, 64, data)])

/-- A completion ring that can be written at all. -/
def cmplReady (r : Ring) : Bool := r.enable && r.type == 1 && !r.stopped

/-- A completion is due: none on success with QUIET (02 Table 2-9). (Log entry 14.) -/
def cmplDue (o : Order) (status : Nat) : Bool := !(o.quiet && decide (status < 0x8000))

/-- A completion written, held while its ring is full, or discarded when it cannot be written (02 R48, R57).
(Log entry 14. DESIGN CHOICE, log entry 92: one due while its port is not attached is written all the same.) -/
def complete (s : State) (o : Order) (status data : Nat) : State :=
  let n := (getRing s o.master o.ring).cmpl
  let r := getRing s o.master n
  if !cmplDue o status || !cmplReady r then s
  else if ringFull r || s.host.held.any (fun h => h.order.master == o.master && (getRing s o.master h.order.ring).cmpl == n)
    then s.updHost fun h => { h with held := h.held ++ [⟨o, BitVec.ofNat 16 status, BitVec.ofNat 64 data⟩] }
  else ringPut s o.master n o.irq (completionBytes o status data)

/-- The held completions of one completion ring written while it has space, oldest first (02 R57). (Log entry 14.) -/
def releaseHeld : List Held → State → Master → Nat → State
  | [], s, _, _ => s
  | h :: hs, s, m, n =>
    let r := getRing s m n
    if h.order.master == m && (getRing s m h.order.ring).cmpl == n then
      if cmplReady r && !ringFull r then
        releaseHeld hs (ringPut s m n h.order.irq (completionBytes h.order h.status.toNat h.data.toNat)) m n
      else releaseHeld hs (s.updHost fun x => { x with held := x.held ++ [h] }) m n
    else releaseHeld hs (s.updHost fun x => { x with held := x.held ++ [h] }) m n

/-! Free values -/

/-- The free value that the next draw gives (log entry 1). -/
def freeNat (s : State) : Nat := Config.freeValue s.freeCtr

/-- A free value of `len` bits. (Log entry 1.) -/
def freeBits (s : State) (len : Nat) : Nat := freeNat s % 2 ^ len

/-! The evidence log's input -/

/-- A record offered to the log's input queue (06 R213): lost and counted when the queue is full. DIVERGED and UNLOCKED
are those of the moment (Table 6-8). (Log entry 39.) -/
def logOffer (s : State) (type source : Nat) (late moved : Bool) (dt : Nat) (body : Nat) : State :=
  if s.mode.mode == .dormant then s else
  if 4096 ≤ s.log.queue.length then
    s.updLog fun l =>
      { l with lostNow := l.lostNow + 1, lostTotal := l.lostTotal + 1, lostDt := if l.lostNow = 0 then dt else l.lostDt }
  else
    s.updLog fun l =>
      { l with queue := l.queue ++ [⟨type, s.fp.diverged, !tbLocked s.tb, late, moved, dt, source, BitVec.ofNat 320 body⟩] }

/-- A record of an event at the present DT. -/
def logNow (s : State) (type source body : Nat) : State := logOffer s type source false false s.tb.dt body

/-- The timebase changed: TB_UNLOCK_SEEN is set when TB_LOCKED falls (01 Table 1-6). -/
def updTime (s : State) (f : TbSt → TbSt) : State :=
  let t := s.updTb f
  if tbLocked s.tb && !tbLocked t.tb then t.updFp fun p => { p with unlockSeen := true } else t

/-- The servo's state changed, with SERVO_STATE and its record (06 R197, Tables 6-9, 6-18). -/
def setServo (s : State) (v : Servo) : State :=
  if s.tb.servo = v then s else
  let old := servoNum s.tb.servo
  let t := updTime s fun b => { b with servo := v, holdS := 0, holdAt := b.now, goodRun := 0, badRun := 0 }
  let t := postAll t 0x0601 0 (packN [(0, 2, old), (2, 2, servoNum v), (4, 3, s.tb.set.source)])
  logNow t 0x03 0 (packN [(318, 2, old), (316, 2, servoNum v), (313, 3, s.tb.set.source),
    (192, 64, unsigned 64 s.tb.offset)])

/-! Divergence (01 R38, R39) -/

/-- The configuration becomes diverged from cause 1 (direct write), 2 (table entry lost) or 3 (failed program bank). -/
def diverge (s : State) (cause : Nat) : State :=
  if !s.fp.committedValid || s.fp.diverged then s else
  let t := s.updFp fun p => { p with diverged := true, divergeSeen := true }
  let t := postAll t 0x0101 0 (packN [(0, 2, cause), (16, 16, s.fp.activeVersion.toNat), (32, 32, s.fp.active.toNat)])
  logNow t 0x04 0 (packN [(192, 128, s.fp.active.toNat), (64, 128, s.fp.committed.toNat)])

/-- The diverged interval ends, with its record (01 R39). (Log entry 8.) -/
def divergeEnd (s : State) (fp version : Nat) : State :=
  if !s.fp.diverged then s else
  logNow (s.updFp fun p => { p with diverged := false }) 0x05 0 (packN [(192, 128, fp), (176, 16, version)])

/-! Error records (17 R547 to R551) -/

/-- ERROR_RECORD (17 Table 17-5) for a record in slot `slot`, or for the fatal record. -/
def postError (s : State) (g slot : Nat) (fatal : Bool) (r : ErrRec) : State :=
  postAll s 0x1101 0 (packN [(0, 5, g), (5, 4, if fatal then 15 else slot), (9, 1, b2n fatal), (10, 8, r.cls),
    (18, 2, r.level), (20, 3, r.outcome), (32, 32, r.seq)])

def getErr (s : State) (g slot : Nat) : ErrRec := SMap.get (fun _ => ErrRec.reset) s.err.recs (16 * g + slot)

def putErr (s : State) (g slot : Nat) (r : ErrRec) : State :=
  s.updErr fun e => { e with recs := SMap.put (fun _ => ErrRec.reset) e.recs (16 * g + slot) r }

/-- The open record of a class and unit in a group. -/
def openSlot (s : State) (g cls unit : Nat) : Option Nat :=
  (List.range 16).find? fun i => let r := getErr s g i; r.opened && r.cls == cls && r.unit == unit

/-- The slot a new record takes: not open, lowest SEQ, lowest slot among equals (17 R547). -/
def freeSlot (s : State) (g : Nat) : Option Nat :=
  ((List.range 16).filter fun i => !(getErr s g i).opened).foldl
    (fun best i => match best with
      | none => some i
      | some b => if (getErr s g i).seq < (getErr s g b).seq then some i else some b) none

/-- The millisecond of elapsed time. -/
def nowMs (s : State) : Nat := s.tb.now / 1000000

/-- An error recorded (17 R547): in its open record, in a new one, or in the group's overflow. -/
def recordError (s : State) (g cls unit level outcome detail : Nat) : State :=
  match openSlot s g cls unit with
  | some i =>
    let r := getErr s g i
    let r' : ErrRec :=
      { r with count := satAdd 16 r.count 1, lastDt := s.tb.dt, detail := detail, level := max r.level level,
               outcome := outcome, countMs := nowMs s }
    let t := putErr s g i r'
    if r'.level ≠ r.level ∨ outcome ≠ r.outcome ∨ r.countMs ≠ nowMs s then postError t g i false r' else t
  | none =>
    match freeSlot s g with
    | some i =>
      let r : ErrRec :=
        { seq := s.err.seq + 1, cls := cls, level := level, opened := true, valid := true, outcome := outcome,
          unit := unit, count := 1, firstDt := s.tb.dt, lastDt := s.tb.dt, detail := detail, ownGen := s.own.gen,
          mode := modeNum s.mode.mode, countMs := nowMs s }
      postError (putErr (s.updErr fun e => { e with seq := e.seq + 1 }) g i r) g i false r
    | none =>
      let v := SMap.get (fun _ => Ovf.mk 0 0 0) s.err.ovf g
      let v' := { v with count := (v.count + 1) % 2 ^ 32, last := cls, ms := nowMs s + 1 }
      let t := s.updErr fun e =>
        { e with overflow := e.overflow ||| BitVec.ofNat 20 (2 ^ g), ovf := SMap.put (fun _ => Ovf.mk 0 0 0) e.ovf g v' }
      if v.ms = nowMs s + 1 then t
      else postAll t 0x1102 0 (packN [(0, 5, g), (8, 8, cls), (32, 32, v'.count)])

/-- LEVEL and OUTCOME of the open record of a class and unit, changed by its recovery's end (17 R543, R547). -/
def recoverError (s : State) (g cls unit level outcome : Nat) : State :=
  match openSlot s g cls unit with
  | none => s
  | some i =>
    let r := getErr s g i
    let r' := { r with level := max r.level level, outcome := outcome }
    if r' = r then s else postError (putErr s g i r') g i false r'

/-! Entry to HALT -/

/-- Every port's current bins are PARTIAL: no second is evaluated in PROBE and HALT (05 R185). -/
def partBins (s : State) : State :=
  let mark : List Bin → List Bin := fun bs => match bs with | b :: bs => { b with part := true } :: bs | [] => []
  s.updPcs fun p => { p with ports := p.ports.map fun kv =>
    (kv.1, { kv.2 with pm := { kv.2.pm with q15 := mark kv.2.pm.q15, h24 := mark kv.2.pm.h24 } }) }

/-- HALT entry begins (16 Table 16-11 steps 2 to 4; 03 R92): READY clears, every island is gated, ELS_EN_N goes high, learning stops;
what a running start owes is owed by `Start.abort`, which the callers use. -/
def haltBegin (s : State) : State :=
  if s.mode.mode == .dormant || s.mode.mode == .halt || s.mode.haltEntry then s else
  let t := (partBins s).updTbl fun x => { x with learnQ := [] }
  (t.updMode fun m => { m with haltEntry := true, haltT0 := s.tb.now, ready := false }).updPin fun p => { p with elsEn := 0 }

/-! The tray's view (16 R529, R530) -/

/-- STATE and ALERT of the tray registers (16 Table 16-10). -/
def trayState (s : State) : Nat :=
  packN [(0, 3, modeNum s.mode.mode), (3, 1, b2n s.riv.flowLatch), (4, 1, b2n s.riv.trayLatch),
    (5, 1, b2n s.riv.critLatch), (6, 1, b2n s.err.fatalLatch), (7, 1, b2n s.pwr.hotwarn)]
def trayAlert (s : State) : Nat := rivelLatch s.riv

/-- FLOW_REQ in 0.01 L/min (16 Table 16-10). -/
def flowReq (s : State) : Nat := if s.mode.mode == .dormant then 0 else if s.mode.mode == .halt then 50 else 200

/-- The instant since which a condition has differed from its advisory (16 R530). -/
def advSince (now : Nat) (cond adv : Bool) (since : Option Nat) : Option Nat :=
  if cond == adv then none else some (since.getD now)

/-- The flow and inlet conditions looked at again. -/
def advRefresh (s : State) : State :=
  s.updRiv fun r =>
    { r with advFlowAt := advSince s.tb.now (decide (r.flowRate.toNat < flowReq s)) r.advFlow r.advFlowAt,
             advInletAt := advSince s.tb.now (decide (640 < signed 16 r.inlet.toNat)) r.advInlet r.advInletAt }

/-- An in-band interrupt on the tray bus, while ENEC and IBI_EN enable it (16 R529). -/
def trayIbi (s : State) (index : Nat) : State :=
  if s.pin.vaux && s.riv.trayIbi && s.pwr.ibiEn && s.riv.trayAddr.isSome then s.emit (.trayIbi index) else s

/-- What the tray is told of the change from `s` to `t`: an interrupt for STATE, one for ALERT; FLOW_REQ follows the mode. -/
def noteTray (s t : State) : State :=
  let t := if trayState s ≠ trayState t then trayIbi t 0x02 else t
  let t := if trayAlert s ≠ trayAlert t then trayIbi t 0x03 else t
  advRefresh t

end Sys2Proof.Machine
end

