-- ==== Sys2Proof/Machine/ArbOps.lean ====
section
/-! DEFINITION. The arbiter of chapter 14: its decision in each cycle (R463 to R465) from the request lines, and an access made
through it. -/

namespace Sys2Proof.Machine

/-- An instance by its kind, 0xE1 table side port, 0xE2 shared-memory bank, 0xE3 DRAM channel group, and its index. -/
def getArb (s : State) (kind i : Nat) : Arb :=
  if kind = 0xE1 then SMap.get (fun _ => Arb.port) s.arb.ports i
  else if kind = 0xE2 then SMap.get (fun _ => Arb.bank) s.arb.banks i else SMap.get (fun _ => Arb.dram) s.arb.drams i

def updArbOf (s : State) (kind i : Nat) (f : Arb → Arb) : State :=
  s.updArb fun a =>
    if kind = 0xE1 then { a with ports := SMap.upd (fun _ => Arb.port) a.ports i f }
    else if kind = 0xE2 then { a with banks := SMap.upd (fun _ => Arb.bank) a.banks i f }
    else { a with drams := SMap.upd (fun _ => Arb.dram) a.drams i f }

/-! The decision (14 R463) -/

/-- The requesters in round-robin order: from the one after the last that received a new grant, wrapping to 0. -/
def arbOrder (a : Arb) : List Nat := (List.range a.live.length).map fun j => (a.ptr + 1 + j) % a.live.length

/-- Live settings and the wait counter of a requester. -/
def arbEntry (a : Arb) (j : Nat) : ArbEntry := a.live.getD j ⟨0, 0⟩
def arbWaits (a : Arb) (j : Nat) : Nat := a.waits.getD j 0

/-- A requester is starved (14 R465); an instance without a STARVE_LIMIT starves none. -/
def arbStarved (a : Arb) (j : Nat) : Bool := a.liveStarve != 0 && decide (a.liveStarve ≤ arbWaits a j)

/-- The holder keeps its grant (14 R463 rule 1): it requests a further access and has made fewer than its BURST. -/
def arbKeeps (a : Arb) (lines : BitVec 13) : Bool :=
  match a.holder with
  | some h => bit lines h && decide (a.made < (arbEntry a h).burst)
  | none => false

/-- The highest PRIO among the requesting requesters. -/
def arbTop (a : Arb) (lines : BitVec 13) : Nat :=
  ((arbOrder a).filter fun j => bit lines j).foldl (fun m j => max m (arbEntry a j).prio) 0

/-- The requester that a new grant goes to, and whether by rule 2 (14 R463 rules 2 to 4). -/
def arbPick (a : Arb) (lines : BitVec 13) : Option (Nat × Bool) :=
  match (arbOrder a).find? fun j => bit lines j && arbStarved a j with
  | some j => some (j, true)
  | none => ((arbOrder a).find? fun j => bit lines j && (arbEntry a j).prio == arbTop a lines).map fun j => (j, false)

/-- The wait counters after a cycle (14 R465): one more for a requester that requests and holds no grant. -/
def arbCount (a : Arb) (lines : BitVec 13) : List Nat :=
  a.waits.zipIdx.map fun w => if bit lines w.2 && a.holder != some w.2 then w.1 + 1 else w.1

/-- One cycle of an instance: its decision, which holds in the next cycle (14 R463, R465). -/
def arbCycle (a : Arb) (lines : BitVec 13) : Arb :=
  let ws := arbCount a lines
  if arbKeeps a lines then { a with made := a.made + 1, waits := ws }
  else match arbPick a lines with
    | none => { a with holder := none, made := 0, waits := ws }
    | some (g, starved) =>
      let w := ws.getD g 0
      { a with holder := some g, made := 1, ptr := g, waits := ws.set g 0,
               maxWait := if a.maxWait < w then min w (2 ^ 32 - 1) else a.maxWait,
               maxReq := if a.maxWait < w then g else a.maxReq,
               starves := if starved then a.starves + 1 else a.starves,
               starveReq := if starved then g else a.starveReq }

/-- A requester waits in a cycle: it requests and holds no grant. -/
def arbWaiting (a : Arb) (me : Nat) (lines : BitVec 13) : Nat := b2n (bit lines me && a.holder != some me)

/-- The cycles up to the one in which requester `me` is granted its access, and those it waited. In a reserved cycle nothing is
decided (14 R467). After the cycles that are given only `me` requests. (Log entry 78.) -/
def arbRun (me : Nat) : List ArbCycle → Arb → Nat → Arb × Nat
  | [], a, n => let l := BitVec.ofNat 13 (2 ^ me); (arbCycle a l, n + arbWaiting a me l)
  | c :: cs, a, n =>
    let m := n + arbWaiting a me c.lines
    if c.reserved then arbRun me cs { a with waits := arbCount a c.lines } m
    else
      let b := arbCycle a c.lines
      if bit c.lines me && b.holder == some me then (b, m) else arbRun me cs b m

/-- An access of requester `me` through an instance: the state, and the cycles it waited. With no cycles given the instance has been
idle. Grants under rule 2 are counted, with ARB_STARVE (14 R474). (Log entry 78.) -/
def arbUse (s : State) (kind i me : Nat) (cs : List ArbCycle) : State × Nat :=
  let a := getArb s kind i
  let r := arbRun me cs (if cs.isEmpty then { a with holder := none } else a) 0
  let t := updArbOf s kind i fun _ => r.1
  let n := (r.1.starves - a.starves).toNat
  (if n = 0 then t
   else winEvent t 0x0E01 (512 * kind + i) (packN [(0, 2, kind - 0xE1), (2, 9, i), (11, 4, r.1.starveReq)]) 32 32 n, r.2)

/-- Accesses of one requester to several instances of a kind, one after the other. -/
def arbUseAll (s : State) (kind me : Nat) (is : List Nat) : State := is.foldl (fun t i => (arbUse t kind i me []).1) s

/-- A transfer of requester `me` of a DRAM channel group. -/
def dramUse (s : State) (me : Nat) (d : DramUse) : State := (arbUse s 0xE3 d.group.toNat me d.cycles).1

end Sys2Proof.Machine
end

