-- ==== Sys2Proof/Machine/Hash.lean ====
section
/-! DEFINITION. The check codes the spec names by their public definitions: SHA-256 (FIPS 180-4), CRC-32C, CRC-16 with
polynomial 0x1021, CRC-64 (ECMA-182). -/

namespace Sys2Proof.Machine

/-- The 64 round constants of SHA-256: the first 32 fraction bits of the cube roots of the first 64 primes. -/
def shaK : List (BitVec 32) :=
    [0x428A2F98, 0x71374491, 0xB5C0FBCF, 0xE9B5DBA5, 0x3956C25B, 0x59F111F1, 0x923F82A4, 0xAB1C5ED5] ++
    [0xD807AA98, 0x12835B01, 0x243185BE, 0x550C7DC3, 0x72BE5D74, 0x80DEB1FE, 0x9BDC06A7, 0xC19BF174] ++
    [0xE49B69C1, 0xEFBE4786, 0x0FC19DC6, 0x240CA1CC, 0x2DE92C6F, 0x4A7484AA, 0x5CB0A9DC, 0x76F988DA] ++
    [0x983E5152, 0xA831C66D, 0xB00327C8, 0xBF597FC7, 0xC6E00BF3, 0xD5A79147, 0x06CA6351, 0x14292967] ++
    [0x27B70A85, 0x2E1B2138, 0x4D2C6DFC, 0x53380D13, 0x650A7354, 0x766A0ABB, 0x81C2C92E, 0x92722C85] ++
    [0xA2BFE8A1, 0xA81A664B, 0xC24B8B70, 0xC76C51A3, 0xD192E819, 0xD6990624, 0xF40E3585, 0x106AA070] ++
    [0x19A4C116, 0x1E376C08, 0x2748774C, 0x34B0BCB5, 0x391C0CB3, 0x4ED8AA4A, 0x5B9CCA4F, 0x682E6FF3] ++
    [0x748F82EE, 0x78A5636F, 0x84C87814, 0x8CC70208, 0x90BEFFFA, 0xA4506CEB, 0xBEF9A3F7, 0xC67178F2]

/-- The eight words SHA-256 starts from. -/
def shaInit : List (BitVec 32) :=
    [0x6A09E667, 0xBB67AE85, 0x3C6EF372, 0xA54FF53A, 0x510E527F, 0x9B05688C, 0x1F83D9AB, 0x5BE0CD19]

/-- One more word of the message schedule, held newest first. -/
def shaNext (w : List (BitVec 32)) : BitVec 32 :=
  let a := w.getD 1 0
  let b := w.getD 14 0
  let s1 := a.rotateRight 17 ^^^ a.rotateRight 19 ^^^ (a >>> 10)
  let s0 := b.rotateRight 7 ^^^ b.rotateRight 18 ^^^ (b >>> 3)
  s1 + w.getD 6 0 + s0 + w.getD 15 0

/-- The message schedule extended by `n` words, newest first. -/
def shaExtend : Nat → List (BitVec 32) → List (BitVec 32)
  | 0, w => w
  | n + 1, w => shaExtend n (shaNext w :: w)

/-- The working variables a to h. -/
structure ShaVars where
  a : BitVec 32
  b : BitVec 32
  c : BitVec 32
  d : BitVec 32
  e : BitVec 32
  f : BitVec 32
  g : BitVec 32
  h : BitVec 32
deriving DecidableEq, Repr

/-- One round of SHA-256 with a constant and a schedule word. -/
def shaRound (v : ShaVars) (kw : BitVec 32 × BitVec 32) : ShaVars :=
  let s1 := v.e.rotateRight 6 ^^^ v.e.rotateRight 11 ^^^ v.e.rotateRight 25
  let ch := (v.e &&& v.f) ^^^ (~~~v.e &&& v.g)
  let t1 := v.h + s1 + ch + kw.1 + kw.2
  let s0 := v.a.rotateRight 2 ^^^ v.a.rotateRight 13 ^^^ v.a.rotateRight 22
  let maj := (v.a &&& v.b) ^^^ (v.a &&& v.c) ^^^ (v.b &&& v.c)
  ⟨t1 + (s0 + maj), v.a, v.b, v.c, v.d + t1, v.e, v.f, v.g⟩

/-- The compression of one block of 16 words into eight chaining words. -/
def shaCompress (hs block : List (BitVec 32)) : List (BitVec 32) :=
  let w := (shaExtend 48 block.reverse).reverse
  let g := fun i => hs.getD i 0
  let v := (shaK.zip w).foldl shaRound ⟨g 0, g 1, g 2, g 3, g 4, g 5, g 6, g 7⟩
  [g 0 + v.a, g 1 + v.b, g 2 + v.c, g 3 + v.d, g 4 + v.e, g 5 + v.f, g 6 + v.g, g 7 + v.h]

/-- Bytes as 32-bit words, most significant byte first. -/
def words32 : Nat → List Byte → List (BitVec 32)
  | 0, _ => []
  | n + 1, bs => BitVec.ofNat 32 (beNat (slice bs 0 4)) :: words32 n (bs.drop 4)

/-- A message padded to whole blocks. -/
def shaPad (bs : List Byte) : List Byte :=
  let n := bs.length
  bs ++ 0x80 :: List.replicate ((119 - n % 64) % 64) 0 ++ bytesBE 8 (8 * n)

/-- `n` blocks of 64 bytes compressed in turn. -/
def shaBlocks : Nat → List Byte → List (BitVec 32) → List (BitVec 32)
  | 0, _, h => h
  | n + 1, bs, h => shaBlocks n (bs.drop 64) (shaCompress h (words32 16 bs))

/-- SHA-256 of a byte string. -/
def sha256 (bs : List Byte) : BitVec 256 :=
  let p := shaPad bs
  BitVec.ofNat 256 ((shaBlocks (p.length / 64) p shaInit).foldl (fun acc w => acc * 2 ^ 32 + w.toNat) 0)

/-- `n` shifts of a reflected CRC register. -/
def crcShift (poly : Nat) : Nat → Nat → Nat
  | 0, r => r
  | n + 1, r => crcShift poly n (if r % 2 = 1 then (r / 2) ^^^ poly else r / 2)

/-- A reflected CRC register after some bytes. -/
def crcRefl (poly : Nat) (r : Nat) (bs : List Byte) : Nat := bs.foldl (fun r b => crcShift poly 8 (r ^^^ b.toNat)) r

/-- CRC-32C (Castagnoli), reflected, initial and final value all ones. -/
def crc32c (bs : List Byte) : BitVec 32 := BitVec.ofNat 32 (crcRefl 0x82F63B78 0xFFFFFFFF bs ^^^ 0xFFFFFFFF)

/-- The CRC-32 of Ethernet's frame check sequence. -/
def crc32 (bs : List Byte) : BitVec 32 := BitVec.ofNat 32 (crcRefl 0xEDB88320 0xFFFFFFFF bs ^^^ 0xFFFFFFFF)

/-- `n` shifts of a CRC register of `w` bits, most significant bit first. -/
def crcShiftMsb (w poly : Nat) : Nat → Nat → Nat
  | 0, r => r
  | n + 1, r =>
    crcShiftMsb w poly n (if r / 2 ^ (w - 1) % 2 = 1 then (r * 2 % 2 ^ w) ^^^ poly else r * 2 % 2 ^ w)

/-- A CRC of `w` bits over bytes, most significant bit first, from initial value `r`. -/
def crcMsb (w poly r : Nat) (bs : List Byte) : Nat :=
  bs.foldl (fun r b => crcShiftMsb w poly 8 (r ^^^ (b.toNat * 2 ^ (w - 8)))) r

end Sys2Proof.Machine
end

