-- ==== Sys2Proof/Machine/LogOps.lean ====
section
/-! DEFINITION. The evidence log's blocks: storing a record, closing a block, its header and its slots
(06 R212 to R218). -/

namespace Sys2Proof.Machine

/-- A record's 64 bytes as one integer (06 Table 6-8). -/
def recWord (r : Rec) (index : Nat) : BitVec 512 :=
  BitVec.ofNat 512 (packN [(504, 8, r.type), (503, 1, b2n r.diverged), (502, 1, b2n r.unlocked), (501, 1, b2n r.late),
    (500, 1, b2n r.moved), (432, 64, index), (336, 96, (dtWord r.dt).toNat), (320, 16, r.source), (0, 320, r.body.toNat)])

/-- A record of the log's own, made now. -/
def ownRec (s : State) (type dt body : Nat) : Rec :=
  ⟨type, s.fp.diverged, !tbLocked s.tb, false, false, dt, 0, BitVec.ofNat 320 body⟩

/-- Blocks held that LOG_RELEASE has not released (06 R218). -/
def unreleased (l : LogSt) : Nat := (l.blocks.filter fun b => l.released ≤ b.number).length

/-- Free slots (06 R218): the slot of the block filling is not free. -/
def freeSlots (l : LogSt) : Nat := l.slotsInForce - (unreleased l + if l.fill.isSome then 1 else 0)

/-- LOG_SPACE (06 R218): posted once when the free slots fall below SLOTS/8, armed again when they rise to it. -/
def logSpace (s : State) : State :=
  let low := decide (freeSlots s.log < s.log.slotsInForce / 8)
  let t := s.updLog fun l => { l with spaceLow := low }
  if low && !s.log.spaceLow then postAll t 0x0605 0 (packN [(0, 16, freeSlots s.log)]) else t

/-- A slot can be had for a new block (06 R218): one unused, or the oldest block's, which RETAIN protects until it is
released. -/
def slotAvailable (l : LogSt) : Bool :=
  decide (l.blocks.length < l.slotsInForce) || !l.retain ||
    (match l.blocks with | b :: _ => decide (b.number < l.released) | [] => false)

/-- The blocks once a new one takes its slot: the oldest is overwritten when none is unused. -/
def slotTake (l : LogSt) : List Block := if l.blocks.length < l.slotsInForce then l.blocks else l.blocks.drop 1

/-- One record into the block filling, which it opens when none is (06 R212, R214). -/
def logAppend (l : LogSt) (now : Nat) (r : Rec) : LogSt :=
  let w := recWord r l.next
  match l.fill with
  | some f =>
    { l with next := l.next + 1,
             fill := some { f with records := w :: f.records, lastDt := r.dt, real := f.real + 1 } }
  | none =>
    { l with next := l.next + 1, blocks := slotTake l, nextBlock := l.nextBlock + 1,
             fill := some ⟨l.nextBlock, [w], r.dt, r.dt, 1, now + l.closeMs * 1000000⟩ }

/-- `n` PAD records, newest first, before the records given (06 Table 6-8). -/
def padRecs (pad : Rec) : Nat → Nat → List (BitVec 512) → List (BitVec 512)
  | 0, _, rs => rs
  | n + 1, i, rs => padRecs pad n (i + 1) (recWord pad i :: rs)

/-- A block header (06 Table 6-10) over its records in INDEX order. -/
def blockHeader (epoch : BitVec 32) (prev : BitVec 256) (f : Filling) (why : Nat) (records : List (BitVec 512)) :
    BitVec 1024 :=
  let h := sha256 (records.flatMap fun r => bytesBE 64 r.toNat)
  BitVec.ofNat 1024 (packN [(960, 64, f.number), (928, 32, epoch.toNat), (864, 64, Config.serial.toNat),
    (608, 256, prev.toNat), (512, 96, (dtWord f.firstDt).toNat), (416, 96, (dtWord f.lastDt).toNat), (400, 16, f.real),
    (392, 8, why), (128, 256, h.toNat)])

/-- The block filling closed for reason `why` (06 R214): padded, its header written; its signature follows.
(Log entry 39.) -/
def closeBlock (s : State) (why : Nat) : State :=
  match s.log.fill with
  | none => s
  | some f =>
    let n := 4096 - f.records.length
    let recs := (padRecs (ownRec s 0 f.lastDt 0) n s.log.next f.records).reverse
    let h := blockHeader s.log.epoch s.log.prev f why recs
    logSpace (s.updLog fun l =>
      { l with next := l.next + n, fill := none, prev := sha256 (bytesBE 128 h.toNat),
               blocks := l.blocks ++ [⟨f.number, h, none, recs, why⟩] })

/-- A block full of 4,096 records closes by itself (06 R214). -/
def closeIfFull (s : State) : State :=
  match s.log.fill with
  | some f => if 4096 ≤ f.records.length then closeBlock s 1 else s
  | none => s

/-- One record stored (06 R213, R218): lost and counted when no slot can be had; after losses a GAP record goes first and
LOG_GAP is posted. (Log entry 39.) -/
def logStore (s : State) (r : Rec) : State :=
  let canStore := s.log.fill.isSome || slotAvailable s.log
  if !canStore then
    s.updLog fun l =>
      { l with lostNow := l.lostNow + 1, lostTotal := l.lostTotal + 1, lostDt := if l.lostNow = 0 then r.dt else l.lostDt }
  else if s.log.lostNow = 0 then
    closeIfFull (logSpace (s.updLog fun l => logAppend l s.tb.now r))
  else
    let gap := ownRec s 0x06 s.tb.dt (packN [(256, 64, s.log.lostNow), (160, 96, (dtWord s.log.lostDt).toNat)])
    let t := closeIfFull (s.updLog fun l => { logAppend l s.tb.now gap with lostNow := 0 })
    let t := postAll t 0x0604 0 s.log.lostNow
    if t.log.fill.isSome || slotAvailable t.log then
      closeIfFull (logSpace (t.updLog fun l => logAppend l t.tb.now r))
    else
      t.updLog fun l => { l with lostNow := l.lostNow + 1, lostTotal := l.lostTotal + 1, lostDt := r.dt }

end Sys2Proof.Machine
end

