-- ==== Sys2Proof/Machine/Orders.lean ====
section
/-! DEFINITION. How a work order is checked, run and completed (02 R61 to R70). Every order of every chapter goes
through `runOrder` or `runPtr`: the chapter says what its order's form is, what its own checks find, and its effect. -/

namespace Sys2Proof.Machine

/-- The class of an opcode (02 Table 2-10). -/
inductive Cls where
  | read | mutating | ownership | reserved
deriving DecidableEq, Repr

/-- The class bits of an opcode (02 Table 2-10). -/
def clsOf (opcode : Nat) : Cls :=
  if opcode / 0x4000 = 0 then .read else if opcode / 0x4000 = 1 then .mutating
  else if opcode / 0x4000 = 2 then .ownership else .reserved

/-- The form of an order: its opcode, the object kinds it takes (none for an order that names no object), the bits its
instance may use, whether it admits a pointer payload or must carry one, the fields its inline payload may use, the bytes
of result it returns at RESULT_ADDR (0: none), the modes it is accepted in, and whether PREPARE needs READY
(03 Table 3-1). -/
structure Form where
  opcode : Nat
  kinds : List Nat
  inst : Nat
  ptr : Bool
  inline : Bool
  fields : List (Nat × Nat)
  result : Nat
  modes : List Mode
  needReady : Bool
deriving DecidableEq, Repr

/-- What a chapter's own checks find, at their places in 02 R68: reserved encodings (1), absence on this ordering code
(2), an option only the owner has (3), a mode or state of the start that forbids the order (6), a version check (7), no such object (8), an argument
outside its range (9), a code of the chapter (11). -/
structure Checks where
  malformed : Bool := false
  unsupported : Bool := false
  ownerOnly : Bool := false
  wrongMode : Bool := false
  version : Option Nat := none
  badObject : Bool := false
  badArgument : Bool := false
  chapter : Option Nat := none
deriving DecidableEq, Repr

/-- The status codes of subject 2 (02 Table 2-13). -/
def stSuccess : Nat := 0x0000
def stMalformed : Nat := 0x8201
def stUnsupported : Nat := 0x8202
def stNotOwner : Nat := 0x8203
def stStale : Nat := 0x8204
def stBadObject : Nat := 0x8205
def stBadArgument : Nat := 0x8206
def stDmaError : Nat := 0x8207
def stWrongMode : Nat := 0x8208
def stNoOffer : Nat := 0x8209
def stOfferPending : Nat := 0x820A
def stCut : Nat := 0x820B

/-- The object of an order names a kind it takes, and its instance only bits the order permits (00 R15). (Log entry 18.) -/
def objectForm (f : Form) (o : Order) : Bool :=
  if f.kinds.isEmpty then o.object == 0 else f.kinds.contains o.kind && (o.inst &&& f.inst == o.inst)

/-- The pointer fields of a pointer payload (02 Table 2-11). -/
def pointerForm (o : Order) : Bool :=
  decide (o.f 0 64 % 64 = 0) && decide (o.f 64 24 % 64 = 0) && decide (64 ≤ o.f 64 24) && decide (o.f 88 232 = 0)

/-- RESULT_ADDR (02 R64, Table 2-8): 64-byte aligned and not zero for an order with a result, otherwise zero. -/
def resultForm (f : Form) (o : Order) : Bool :=
  if f.result = 0 then o.resultAddr == 0 else o.resultAddr != 0 && decide (o.resultAddr.toNat % 64 = 0)

/-- The 64-byte order has the form its opcode asks for (02 R61 to R64; 00 R15). -/
def headForm (f : Form) (o : Order) : Bool :=
  decide (fld o.flags 4 12 = 0) && o.rsvd == 0 && objectForm f o && resultForm f o &&
  (if o.ptr then f.ptr && pointerForm o else f.inline && onlyFields o.payload.toNat f.fields)

/-- The mode in which orders are judged: HALT from the moment its entry begins (03 R92). -/
def orderMode (s : State) : Mode := if s.mode.haltEntry then .halt else s.mode.mode

/-- A START is pending acceptance or running (03 R109). -/
def startBusy (s : State) : Bool :=
  s.mode.active || s.mode.pendCold.isSome || s.mode.restore.isSome || !s.mode.waiting.isEmpty

/-- The mode test of 03 Table 3-1 and R109, with the modes the chapter lists for the order. -/
def modeAllows (f : Form) (s : State) : Bool :=
  match clsOf f.opcode with
  | .mutating =>
    f.modes.contains (orderMode s) && !startBusy s && (orderMode s != .prepare || !f.needReady || s.mode.ready)
  | _ => f.modes.contains (orderMode s)

/-- NOT_OWNER (02 R81, R82, R87): a mutating or ownership order from a master that is not owner, or a mutating order
from the old owner once a handover or a release drains. -/
def notOwner (c : Cls) (s : State) (o : Order) : Bool :=
  match c with
  | .read | .reserved => false
  | .mutating => s.own.owner != some o.master || s.own.drain.isSome
  | .ownership => s.own.owner != some o.master

/-- The first status of 02 R68 that applies to the order as accepted; `none` when every check passes. (Log entry 19.) -/
def firstFail (f : Form) (s : State) (o : Order) (c : Checks) : Option Nat :=
  let k := clsOf f.opcode
  if !headForm f o || c.malformed then some stMalformed
  else if c.unsupported then some stUnsupported
  else if notOwner k s o || c.ownerOnly then some stNotOwner
  else if k != .read && o.ownGen != s.own.gen then some stStale
  else if k == .ownership && draining s then some stCut
  else if !modeAllows f s || c.wrongMode then some stWrongMode
  else if c.version.isSome then c.version
  else if c.badObject then some stBadObject
  else if c.badArgument then some stBadArgument
  else c.chapter

/-- The second pass of 02 R68, over the contents of a pointer payload; ownership and generation are those tested at
acceptance. (Log entry 19.) -/
def secondFail (c : Checks) : Option Nat :=
  if c.malformed then some stMalformed
  else if c.unsupported then some stUnsupported
  else if c.wrongMode then some stWrongMode
  else if c.version.isSome then c.version
  else if c.badObject then some stBadObject
  else if c.badArgument then some stBadArgument
  else c.chapter

/-- A result of `len` bytes can be written at RESULT_ADDR (02 R64): on M0 all of it lies in the 32 KiB window. (Log
entry 16.) -/
def resultFits (o : Order) (len : Nat) : Bool :=
  o.resultOk && (o.master != .m0 || decide (o.resultAddr.toNat + len ≤ 0x8000))

/-- What an order that passes its checks answers: it completes with a status and DATA, returns a result too, or goes on
running until a later command ends it. -/
inductive Reply where
  | done (status data : Nat)
  | result (bytes : List Byte) (data : Nat)
  | later
deriving DecidableEq, Repr

/-- The reply carried out: the result written before the completion (02 R64), or the order among those running.
(Log entry 19.) -/
def reply (f : Form) (o : Order) (s : State) : Reply → State
  | .done st d => complete s o st d
  | .result bs d => complete (memWrite s o.master o.resultAddr.toNat bs) o stSuccess d
  | .later => s.updHost fun h => { h with running := h.running ++ [⟨BitVec.ofNat 16 f.opcode, o, s.tb.now, s.tb.dt⟩] }

/-- An order with an inline payload: checked, then run. A result that cannot be written completes it with DMA_ERROR and
no effect (02 R67, R68). (Log entry 19.) -/
def runOrder (f : Form) (o : Order) (s : State) (c : Checks) (body : State → State × Reply) : State :=
  match firstFail f s o c with
  | some st => complete s o st 0
  | none =>
    if f.result ≠ 0 ∧ resultFits o f.result = false then complete s o stDmaError 0
    else let r := body s; reply f o r.1 r.2

/-- The second pass of an order with a pointer payload (02 R63, R68), then its effect. (Log entry 19.) -/
def runSecond (f : Form) (o : Order) (s : State) (c : List Byte → Checks) (body : List Byte → State → State × Reply) :
    State :=
  match o.data with
  | .later => s
  | .failed | .held _ _ | .dramError _ _ => complete s o stDmaError 0
  | .bytes bs =>
    match secondFail (c bs) with
    | some st => complete s o st 0
    | none =>
      if f.result ≠ 0 ∧ resultFits o f.result = false then complete s o stDmaError 0
      else let r := body bs s; reply f o r.1 r.2

/-- The entry of an order that was accepted and awaits its payload. -/
def awaitOf (s : State) (o : Order) : Option Running :=
  s.host.awaiting.find? fun r => r.order == { o with data := .later }

/-- The DT at which the order now run was accepted. -/
def acceptDt (s : State) (o : Order) : Nat := match awaitOf s o with | some r => r.dt | none => s.tb.dt

/-- An order that may carry a pointer payload: the first pass over the 64 bytes; then the payload is awaited, or, once
it is here, the second pass runs (02 R63, R68). An inline payload is its 40 bytes, checked in the one pass. -/
def runPtr (f : Form) (o : Order) (s : State) (c1 : Checks) (c2 : List Byte → Checks)
    (body : List Byte → State → State × Reply) : State :=
  if o.ptr && (awaitOf s o).isSome then runSecond f o s c2 body else
  match firstFail f s o c1 with
  | some st => complete s o st 0
  | none =>
    if o.ptr then
      match o.data with
      | .later =>
        s.updHost fun h => { h with awaiting := h.awaiting ++ [⟨BitVec.ofNat 16 f.opcode, o, s.tb.now, s.tb.dt⟩] }
      | _ => runSecond f o s c2 body
    else runSecond f { o with data := .bytes (bytesLE 40 o.payload.toNat) } s c2 body

/-- Every mode but DORMANT, and every mode. -/
def modesOn : List Mode := [.prepare, .service, .coast, .probe, .halt]
def modesAll : List Mode := [.dormant, .prepare, .service, .coast, .probe, .halt]

/-- A read order with an inline payload: its opcode, kinds, instance bits, payload fields, result bytes, modes.
(Log entry 18.) -/
def readForm (opcode : Nat) (kinds : List Nat) (inst : Nat) (fields : List (Nat × Nat)) (result : Nat)
    (modes : List Mode) : Form :=
  { opcode := opcode, kinds := kinds, inst := inst, ptr := false, inline := true, fields := fields, result := result,
    modes := modes, needReady := false }

/-- A mutating order with an inline payload and no result. (Log entry 18.) -/
def setForm (opcode : Nat) (kinds : List Nat) (inst : Nat) (fields : List (Nat × Nat)) (modes : List Mode)
    (needReady : Bool) : Form :=
  { opcode := opcode, kinds := kinds, inst := inst, ptr := false, inline := true, fields := fields, result := 0,
    modes := modes, needReady := needReady }

/-- A mutating order that must carry a pointer payload. (Log entry 18.) -/
def ptrForm (opcode : Nat) (kinds : List Nat) (inst : Nat) (modes : List Mode) (needReady : Bool) : Form :=
  { opcode := opcode, kinds := kinds, inst := inst, ptr := true, inline := false, fields := [], result := 0,
    modes := modes, needReady := needReady }

/-- LENGTH of a pointer payload (02 Table 2-11). -/
def ptrLen (o : Order) : Nat := o.f 64 24

/-- The modes of most mutating orders: PREPARE with READY 1, and SERVICE. -/
def modesSet : List Mode := [.prepare, .service]

end Sys2Proof.Machine
end

