-- ==== Sys2Proof/Machine/VerOps.lean ====
section
/-! DEFINITION. Shared operations on rule versions: which copy a version sees, writes of versioned content (07 R239, 08
R274), and the running sums of the configuration fingerprint (08 R314, R315). -/

namespace Sys2Proof.Machine

/-- The 16-bit number of the version created at place `n` (07 R238): 0, then 1 to 0xFFFF over and over. -/
def verNum (n : Nat) : Nat := if n = 0 then 0 else (n - 1) % 65535 + 1

/-- The slot in a state: 1 staged, 2 active. -/
def slotIn (s : State) (st : Nat) : Option VSlot := s.ver.slots.find? fun v => v.state == st

/-- The active version and the staged one, if it is open. -/
def activeSeq (s : State) : Nat := ((slotIn s 2).map fun v => v.seq).getD 0
def stagedSeq (s : State) : Option Nat := (slotIn s 1).map fun v => v.seq

/-- The live versions (07 R238). -/
def liveSeqs (s : State) : List Nat := (s.ver.slots.filter fun v => v.state != 0).map fun v => v.seq

/-- A version slot changed, by its version. -/
def updSlot (s : State) (seq : Nat) (f : VSlot → VSlot) : State :=
  s.updVer fun x => { x with slots := x.slots.map fun v => if v.state ≠ 0 ∧ v.seq = seq then f v else v }

/-- The in-flight count of a version, by `up` and `down` (07 R244). -/
def countFlight (s : State) (seq up down : Nat) : State :=
  updSlot s seq fun v => { v with inFlight := v.inFlight + up - down }

/-- Bit [23] of the instance: the order names the active version (07 R239). -/
def directBit (o : Order) : Bool := bit o.object 23

/-- NO_STAGE and COMMIT_PENDING, for a write that names the staged version (07 R239). -/
def stageCheck (s : State) : Option Nat :=
  if (stagedSeq s).isNone then some 0x8702 else if s.ver.pend.isSome then some 0x8705 else none

/-- The version checks of a versioned write (07 R239). -/
def versionCheck (s : State) (direct : Bool) : Option Nat := if direct then none else stageCheck s

/-- The version a write names. -/
def targetSeq (s : State) (direct : Bool) : Nat := if direct then activeSeq s else (stagedSeq s).getD (activeSeq s)

/-- The version a read or a lookup order names (07 R260, 08 R318): the staged one when bit [23] is 0 and one is open. -/
def readSeq (s : State) (o : Order) : Nat := if directBit o then activeSeq s else (stagedSeq s).getD (activeSeq s)

/-! Fingerprints -/

/-- The hash of an element from its kind byte and encoding (08 R314). -/
def elementHash (kind : Nat) (enc : List Byte) : BitVec 128 :=
  BitVec.ofNat 128 (fld (sha256 (BitVec.ofNat 8 kind :: enc)) 128 128)

/-- The version element and the bank element (08 Table 8-10); version 0's bank has a digest of zero bytes (R317). -/
def versionElement (seq : Nat) : BitVec 128 := elementHash 0x0E (bytesBE 2 (verNum seq))
def bankElement (digest : BitVec 256) : BitVec 128 := elementHash 0x0F (bytesBE 32 digest.toNat)

/-- An element's hash changes from `old` to `new` in the sums whose versions see the change (08 R315); FP_ACTIVE is the
active sum. -/
def fpChange (s : State) (active staged : Bool) (old new : BitVec 128) : State :=
  let t := if active then s.updFp fun p => { p with active := p.active + new - old } else s
  if staged then t.updVer fun x => { x with stagedFp := x.stagedFp + new - old } else t

/-- A direct write has completed successfully: the configuration diverges (01 R38). -/
def directDone (s : State) (direct : Bool) : State := if direct then diverge s 1 else s

/-! Versioned objects: parser states, profiles, stage programs, table definitions -/

/-- The content of an object that version `v` sees. -/
def seenBy {α : Type} (d : α) (c : Contents α) (v : Nat) : α :=
  match c.find? fun x => decide (x.1 ≤ v) with
  | some x => x.2
  | none => d

/-- The place from which the content that version `v` sees holds. -/
def seenFrom {α : Type} (c : Contents α) (v : Nat) : Nat :=
  match c.find? fun x => decide (x.1 ≤ v) with
  | some x => x.1
  | none => 0

/-- The content that version `v` sees replaced, for every version that sees it. (Log entry 43.) -/
def writeInPlace {α : Type} : Contents α → Nat → α → Contents α
  | [], _, a => [(0, a)]
  | x :: xs, v, a => if x.1 ≤ v then (x.1, a) :: xs else x :: writeInPlace xs v a

/-- A content of the staged version `v` written: its own is replaced, a shared one stays for older versions. -/
def writeStaged {α : Type} (c : Contents α) (v : Nat) (a : α) : Contents α :=
  match c with
  | x :: xs => if x.1 = v then (v, a) :: xs else (v, a) :: c
  | [] => [(v, a)]

/-- An object's content written for a target (07 R239): a direct write changes what the active version sees.
(Log entry 43.) -/
def writeContents {α : Type} (s : State) (c : Contents α) (direct : Bool) (a : α) : Contents α :=
  if direct then writeInPlace c (activeSeq s) a else writeStaged c (targetSeq s false) a

/-- The sums after a content changes from `old` to `new` by an element hash (08 R315). The staged version sees a direct write
of a content it shares. -/
def contentsFp {α : Type} (s : State) (c : Contents α) (direct : Bool) (h : α → BitVec 128) (d new : α) : State :=
  let v := targetSeq s direct
  let stagedSees := match stagedSeq s with
    | some g => !direct || seenFrom c g == seenFrom c v
    | none => false
  fpChange s direct stagedSees (h (seenBy d c v)) (h new)

/-- Contents that the staged version `v` wrote dropped (07 R246, 08 R276). -/
def dropStaged {α : Type} (m : SMap (Contents α)) (v : Nat) : SMap (Contents α) :=
  (m.map fun kv => (kv.1, kv.2.filter fun x => x.1 != v)).filter fun kv => !kv.2.isEmpty

/-! What each object holds at reset, and its element -/

/-- A parser state at reset: DEFAULT_NEXT is REJECT (07 Table 7-1). -/
def parserReset : BitVec 320 := BitVec.ofNat 320 (0x101 * 2 ^ 174)

/-- A port parse profile at reset: both start states REJECT, SPRAY_RX 0 (07 Table 7-10). -/
def profileReset : BitVec 19 := BitVec.ofNat 19 (0x101 + 0x101 * 2 ^ 9)

/-- Element hashes (08 Table 8-10): nothing for an object at its reset content (R314). -/
def parserElement (n : Nat) (w : BitVec 320) : BitVec 128 :=
  if w = parserReset then 0 else elementHash 0x06 (bytesBE 1 n ++ bytesBE 37 (fld w 0 290))
def profileElement (n : Nat) (w : BitVec 19) : BitVec 128 :=
  if w = profileReset then 0 else elementHash 0x07 (bytesBE 2 n ++ bytesBE 3 w.toNat)
def stageElement (n : Nat) (w : BitVec 1024) : BitVec 128 :=
  if w = 0 then 0 else elementHash 0x08 (bytesBE 1 n ++ bytesBE 84 (fld w 0 672))
def defElement (n : Nat) (w : BitVec 36) : BitVec 128 :=
  if bit w 0 then elementHash 0x05 (bytesBE 1 (n / 16) ++ bytesBE 1 (n % 16) ++ bytesBE 5 w.toNat) else 0

/-- The contents of each kind of object. -/
def parserC (s : State) (n : Nat) : Contents (BitVec 320) := SMap.get (fun _ => []) s.ver.parser n
def profileC (s : State) (n : Nat) : Contents (BitVec 19) := SMap.get (fun _ => []) s.ver.profile n
def stageC (s : State) (n : Nat) : Contents (BitVec 1024) := SMap.get (fun _ => []) s.ver.stages n
def defC (s : State) (n : Nat) : Contents (BitVec 36) := SMap.get (fun _ => []) s.ver.defs n

/-- What version `v` sees of them. -/
def parserWord (s : State) (n v : Nat) : BitVec 320 := seenBy parserReset (parserC s n) v
def profileWord (s : State) (n v : Nat) : BitVec 19 := seenBy profileReset (profileC s n) v
def stageWord (s : State) (n v : Nat) : BitVec 1024 := seenBy 0 (stageC s n) v

/-- The definition of table `t` of memory kind `m` (1 exact match, 2 LPM, 3 ACL) in version `v` (08 R269). -/
def tableDef (s : State) (m t v : Nat) : BitVec 36 := seenBy 0 (defC s (16 * m + t)) v

/-- A table exists in a version (08 R269), and its key width, family and quota (Table 8-2). -/
def tableExists (s : State) (m t v : Nat) : Bool := bit (tableDef s m t v) 0
def tableIpv6 (s : State) (t v : Nat) : Bool := bit (tableDef s 2 t v) 11
def tableQuota (s : State) (m t v : Nat) : Nat := fld (tableDef s m t v) 12 24
def tableKeyBits (s : State) (m t v : Nat) : Nat :=
  if m = 2 then (if tableIpv6 s t v then 128 else 32) else fld (tableDef s m t v) 1 10

/-- The tables of each kind (08, Tables within a memory). -/
def tableCount (m : Nat) : Nat := if m = 2 then 8 else 16

/-! Copies inside the tables (08, Versions inside the tables) -/

/-- A version sees a copy: FROM ≤ v, and v < TO or the interval is open. -/
def sees (v from_ : Nat) (to_ : Option Nat) : Bool :=
  decide (from_ ≤ v) && (match to_ with | some t => decide (v < t) | none => true)

/-- Some live version sees a copy (08 R275). -/
def liveSees (s : State) (from_ : Nat) (to_ : Option Nat) : Bool := (liveSeqs s).any fun v => sees v from_ to_

/-- A copy's interval after STAGE_DISCARD of version `v` (08 R276): one it created is seen by none, one it closed is open
again. -/
def discardTo (v from_ : Nat) (to_ : Option Nat) : Option Nat :=
  if from_ = v then some v else if to_ = some v then none else to_

/-! Program banks (10 R357, R358) -/

/-- The program bank of a letter; false is A. -/
def bankOf (s : State) (b : Bool) : Bank := if b then s.lat.bankB else s.lat.bankA

/-- A program bank changed. -/
def updBank (s : State) (b : Bool) (f : Bank → Bank) : State :=
  s.updLat fun x => if b then { x with bankB := f x.bankB } else { x with bankA := f x.bankA }

/-- The digest of a bank (10 R357): zero unless it is ready. -/
def bankDigest (s : State) (b : Bool) : BitVec 256 := if (bankOf s b).state = 2 then (bankOf s b).digest else 0

/-- The digest that a version's bank selection stands for; none selects no bank (10 R358). -/
def selDigest (s : State) (b : Option Bool) : BitVec 256 := match b with | some x => bankDigest s x | none => 0

/-- The bank that version `v` selects. -/
def bankSel (s : State) (v : Nat) : Option Bool :=
  match s.ver.slots.find? fun x => x.state != 0 && x.seq == v with
  | some x => x.bank
  | none => none

/-- Live versions that select a bank, and whether it is in use (10 R358). -/
def bankVersions (s : State) (b : Bool) : Nat := (s.ver.slots.filter fun v => v.state != 0 && v.bank == some b).length
def bankInUse (s : State) (b : Bool) : Bool :=
  decide (0 < bankVersions s b) || (match s.ver.pend with | some p => p.bank == some b | none => false)

/-- The digest of a bank changes from `old` to `new`: the sums of the versions that select it change their bank element
(08 R314, R315). The staged running value is taken with the active version's bank element. -/
def bankElementChange (s : State) (b : Bool) (old new : BitVec 256) : State :=
  let on := decide (bankSel s (activeSeq s) = some b)
  fpChange s on (on && (stagedSeq s).isSome) (bankElement old) (bankElement new)

/-! The staged version -/

/-- The staged fingerprint that COMMIT compares (08 R316) for the bank that the new version selects. -/
def stagedFingerprint (s : State) (bank : Option Bool) : BitVec 128 :=
  let a := activeSeq s
  s.ver.stagedFp - versionElement a + versionElement ((stagedSeq s).getD (a + 1)) -
    bankElement (selDigest s (bankSel s a)) + bankElement (selDigest s bank)

end Sys2Proof.Machine
end

