-- ==== Sys2Proof/Machine/Shaving.lean ====
section
/-! DEFINITION. Telemetry's shared operations (chapter 15): port event counters, selectable counters, the shaving and its
finalisation into the reducers, the evidence log and the export selectors. -/

namespace Sys2Proof.Machine

/-! Counters -/

/-- The slice of a port (01 Table 1-2: 16 ports a slice). -/
def sliceOf (port : Nat) : Nat := port / 16

def getSel (s : State) (slice i : Nat) : SelCtr := SMap.get (fun _ => SelCtr.reset) s.tel.sel (256 * slice + i)

/-- Selectable counters, by rising key, with `n` added to those of a slice that are running and for which `p` holds; a chained
one adds the wraps of its predecessor instead (15 R485, R486). `last` is the key of the counter before and its wraps. -/
def selWalk (slice : Nat) (p : SelCtr → Bool) (n : Nat) : Nat × Nat → SMap SelCtr → SMap SelCtr
  | _, [] => []
  | last, (k, c) :: m =>
    let add :=
      if k / 256 != slice || !c.running then 0
      else if c.chain then (if last.1 + 1 = k then last.2 else 0) else if p c then n else 0
    (k, { c with count := (c.count + add) % 2 ^ 48 }) :: selWalk slice p n (k, (c.count + add) / 2 ^ 48) m

/-- An event of a slice counted by its selectable counters. (Log entry 79.) -/
def selBump (s : State) (slice n : Nat) (p : SelCtr → Bool) : State :=
  s.updTel fun t => { t with sel := selWalk slice p n (2 ^ 20, 0) t.sel }

/-- QUAL of a port event: the port within the slice, or all of them (15 Table 15-5). -/
def qualPort (c : SelCtr) (port : Nat) : Bool := bit (BitVec.ofNat 16 c.qual) 4 || decide (c.qual % 16 = port % 16)

/-- A port event counted (15 R484), by its selectable counters too. -/
def portEvent (s : State) (port ev n : Nat) : State :=
  selBump (s.updTel fun t => { t with cnt := SMap.upd (fun _ => 0) t.cnt (64 * port + ev) fun c => c + BitVec.ofNat 64 n })
    (sliceOf port) n fun c => c.event == ev && qualPort c port

/-- A queue event counted (15 Table 15-5): 0 enqueued copies, 1 enqueued bytes, 2 dequeued copies, 3 admission drops, 4 DRAM
spills. -/
def queueEvent (s : State) (q ev n : Nat) : State :=
  selBump s (q / 256) n fun c => c.event == 0x100 + ev && c.qual % 256 == q % 256

/-- Events 2 to 4 and 18 to 20: unicast, multicast, broadcast, by the destination address. -/
def daKind (bs : List Byte) : Nat :=
  if bs.take 6 = List.replicate 6 0xFF then 2 else if bit (bs.headD 0) 0 then 1 else 0

/-- Events 6 to 15 and 23 to 32, by length (15 Table 15-4). -/
def lenClass (n : Nat) : Nat :=
  if n ≤ 64 then 0 else if n ≤ 127 then 1 else if n ≤ 255 then 2 else if n ≤ 511 then 3 else if n ≤ 1023 then 4
  else if n ≤ 1518 then 5 else if n ≤ 2047 then 6 else if n ≤ 4095 then 7 else if n ≤ 9216 then 8 else 9

/-- Frame events of a port from a first event: frames, bytes, address kind, length. (Log entry 81.) -/
def frameEvents (s : State) (port base lenBase : Nat) (bs : List Byte) : State :=
  let t := portEvent (portEvent s port base 1) port (base + 1) bs.length
  portEvent (portEvent t port (base + 2 + daKind bs) 1) port (lenBase + lenClass bs.length) 1

/-- The drop counter of a cause (15 Table 15-4). -/
def dropEvent (cause : Nat) : Option Nat :=
  if cause = 0x80 then some 33
  else if cause = 0x81 ∨ cause = 0x85 then some 34
  else if 1 ≤ cause ∧ cause ≤ 0x7F then some 35
  else if cause = 0x82 ∨ cause = 0x83 ∨ (0xA0 ≤ cause ∧ cause ≤ 0xA5) then some 36
  else if 0x90 ≤ cause ∧ cause ≤ 0x95 then some 37
  else if 0xC0 ≤ cause ∧ cause ≤ 0xC7 then some 38
  else if 0xD0 ≤ cause ∧ cause ≤ 0xD7 then some 39
  else if cause = 0x84 then some 41
  else none

/-- A drop counted at a port, in its event and by its cause (15 R484, Table 15-5). -/
def countDrop (s : State) (port cause : Nat) : State :=
  let t := match dropEvent cause with | some e => portEvent s port e 1 | none => s
  selBump t (sliceOf port) 1 fun c => c.event == 0x500 + cause && qualPort c port

/-- A copy dropped by an egress stage or its parse (15 R484): DROP_EGRESS alone. -/
def countEgressDrop (s : State) (port cause : Nat) : State :=
  selBump (portEvent s port 40 1) (sliceOf port) 1 fun c => c.event == 0x500 + cause && qualPort c port

/-! The shaving (15 R475, R476) -/

/-- How a packet was finalised: the copy's port, egress DT, queue depth and whether it moved; consumed; dropped, with its
cause. -/
structure Finish where
  eg : Option (Nat × Nat)
  depth : Nat
  moved : Bool
  consumed : Bool
  drop : Bool
  cause : Nat
deriving DecidableEq, Repr

def Finish.sent (port dt depth : Nat) (moved : Bool) : Finish := ⟨some (port, dt), depth, moved, false, false, 0⟩
def Finish.eaten : Finish := ⟨none, 0, false, true, false, 0⟩
def Finish.dropped (cause : Nat) : Finish := ⟨none, 0, false, false, true, cause⟩

/-- A container of a packet's header vector. -/
def hvOf (p : Pkt) (i : Nat) : BitVec 32 := p.hv.getD i 0

/-- FLOW_HASH (07 Table 7-2). -/
def flowHash (p : Pkt) : Nat := (hvOf p 7).toNat * 2 ^ 32 + (hvOf p 6).toNat

/-- The slice that counts a packet's shaving (15 R475). -/
def shavingSlice (p : Pkt) : Nat := match p.origin with | some u => 2 * u | none => sliceOf p.port

/-- A shaving's bits above CHECK (15 Table 15-1). -/
def shavingBits (p : Pkt) (pool : Option Nat) (copies seq : Nat) (f : Finish) : Nat :=
  packN [(508, 4, 1), (505, 3, p.dec.kind), (504, 1, b2n f.drop), (496, 8, f.cause),
    (487, 9, if p.origin.isSome then 0 else p.port), (478, 9, match f.eg with | some e => e.1 | none => 0x1FF),
    (474, 4, p.dec.queue), (458, 16, p.dec.id), (442, 16, verNum p.ver), (428, 14, p.len0),
    (332, 96, (dtWord p.inDt).toNat), (236, 96, match f.eg with | some e => (dtWord e.2).toNat | none => 0),
    (172, 64, flowHash p), (140, 32, p.arrSeq.toNat), (120, 20, min (f.depth / 1024) (2 ^ 20 - 1)),
    (116, 4, p.dec.capture), (108, 8, if p.lathe = 7 then 0 else p.prog), (105, 3, p.lathe), (103, 2, pool.getD 0), (102, 1, b2n pool.isSome),
    (101, 1, b2n p.late), (100, 1, b2n p.diverged), (99, 1, b2n p.unlocked), (98, 1, b2n p.dec.hostCopy),
    (97, 1, b2n (bit (hvOf p 1) 18)), (94, 3, p.esc), (93, 1, b2n p.sat), (92, 1, b2n p.origin.isSome),
    (91, 1, b2n (bit (hvOf p 1) 16)), (90, 1, b2n f.moved), (80, 10, copies), (72, 8, fld (hvOf p 1) 24 8),
    (71, 1, b2n f.consumed), (32, 32, seq)]

/-- A shaving as its 64 bytes: CHECK is the CRC-32C of the bytes above it. -/
def shavingBytes (p : Pkt) (pool : Option Nat) (copies seq : Nat) (f : Finish) : List Byte :=
  let hi := (bytesBE 64 (shavingBits p pool copies seq f)).take 60
  hi ++ bytesBE 4 (crc32c hi).toNat

/-- The filter of 15 Table 15-3 matches a shaving. -/
def filterMatches (w : BitVec 64) (p : Pkt) (f : Finish) : Bool :=
  let port := if bit w 38 then (match f.eg with | some e => e.1 | none => 0x1FF) else if p.origin.isSome then 0 else p.port
  bit w p.dec.capture && bit w (16 + p.dec.kind) &&
    (fld w 24 2 == 0 || (fld w 24 2 == 1 && !f.drop) || (fld w 24 2 == 2 && f.drop)) &&
    (!bit w 26 || p.late) && (!bit w 27 || p.diverged) && (!bit w 37 || fld w 28 9 == port)

/-- The bin of a value (15 R480). -/
def histBin (h : Hist) (x : Nat) : Nat :=
  if x < h.start then 0
  else min 63 (1 + (if h.log then Nat.log2 (x / max h.start 1) else (x - h.start) / max h.width 1))

/-- The metric of a shaving, none when it is skipped. -/
def metricOf (m : Nat) (p : Pkt) (f : Finish) : Option Nat :=
  if m = 0 then (match f.eg with | some e => some ((e.2 - p.inDt) / dtNs) | none => none)
  else if m = 1 then some p.len0 else some (min (f.depth / 1024) (2 ^ 20 - 1))

/-- A histogram with a shaving counted. (Log entry 81.) -/
def histAdd (p : Pkt) (f : Finish) (h : Hist) : Hist :=
  if h.enable && filterMatches h.filter p f then
    match metricOf h.metric p f with
    | some x => { h with bins := h.bins.modify (histBin h x) fun n => satAdd 48 n 1 }
    | none => h
  else h

/-- The counters' index of row `r` in a sketch. -/
def sketchKey (p : Pkt) (r : Nat) : Nat := 4096 * r + flowHash p / 2 ^ (12 * r) % 4096

/-- A flow's estimate. -/
def sketchEst (k : Sketch) (p : Pkt) : Nat :=
  ([1, 2, 3].map fun r => SMap.get (fun _ => 0) k.ctrs (sketchKey p r)).foldl min
    (SMap.get (fun _ => 0) k.ctrs (sketchKey p 0))

/-- A sketch with a shaving counted, and the table entry it takes (15 R481). (Log entry 81.) -/
def sketchAdd (p : Pkt) (f : Finish) (k : Sketch) : Sketch × Option Nat :=
  if k.enable && filterMatches k.filter p f then
    let n := if k.weight then p.len0 else 1
    let k := { k with ctrs := [0, 1, 2, 3].foldl (fun m r => SMap.upd (fun _ => 0) m (sketchKey p r) fun c => satAdd 32 c n)
                                k.ctrs }
    let e := sketchEst k p
    let h := flowHash p
    if k.heavy.any (fun x => x.1 == h) then
      ({ k with heavy := k.heavy.map fun x => if x.1 = h then (h, e) else x }, none)
    else if k.thr ≤ e ∧ k.heavy.length < 32 then ({ k with heavy := k.heavy ++ [(h, e)] }, some k.heavy.length)
    else (k, none)
  else (k, none)

/-- Every sketch, with HEAVY_HITTER for a new table entry. -/
def sketchesAdd (s : State) (p : Pkt) (f : Finish) : State :=
  (s.tel.sketches.map fun kv => kv.1).foldl (fun t i =>
    let r := sketchAdd p f (SMap.get (fun _ => Sketch.reset) t.tel.sketches i)
    let t := t.updTel fun x => { x with sketches := SMap.put (fun _ => Sketch.reset) x.sketches i r.1 }
    match r.2 with
    | some e => postAll t 0x0F04 0 (packN [(0, 3, i), (3, 5, e), (8, 56, flowHash p)])
    | none => t) s

/-- A packet's TIMESTAMP record (15 R482, 06 Table 6-9), when some evidence reducer takes its shaving. (Log entry 81.) -/
def evidence (s : State) (p : Pkt) (f : Finish) : State :=
  if p.origin.isNone && s.tel.evs.any (fun kv => kv.2.enable && filterMatches kv.2.filter p f && bit kv.2.ports p.port) then
    if s.mode.mode == .dormant then s else
    let body := packN [(304, 16, p.port), (288, 16, p.len0), (272, 16, verNum p.ver), (0, 256, (sha256 p.head).toNat)]
    if 4096 ≤ s.log.queue.length then logOffer s 0x08 p.port p.late false p.inDt body
    else s.updLog fun l =>
      { l with queue := l.queue ++ [⟨0x08, p.diverged, p.unlocked, p.late, false, p.inDt, p.port, BitVec.ofNat 320 body⟩] }
  else s

/-! Export (15 R489, R490) -/

/-- The JG-51 record of a shaving (15 Table 15-2). -/
def jg51 (p : Pkt) (seq : Nat) (f : Finish) : List Byte :=
  let ns := (dtWord p.inDt).toNat
  let res := match f.eg with | some e => min ((e.2 - p.inDt) / dtNs) 0xFFFFFFFE | none => 0xFFFFFFFF
  bytesBE 32 (packN [(248, 8, 0x51), (240, 8, f.cause), (224, 16, if p.origin.isSome then 0 else p.port),
    (208, 16, match f.eg with | some e => e.1 | none => 0xFFFF), (204, 4, p.dec.queue), (203, 1, b2n f.drop),
    (202, 1, b2n p.late), (201, 1, b2n p.diverged), (200, 1, b2n p.dec.hostCopy), (184, 16, p.len0),
    (152, 32, nfld ns 48 32), (120, 32, nfld ns 16 32), (88, 32, res), (56, 32, flowHash p % 2 ^ 32),
    (32, 24, min (f.depth / 1024) (2 ^ 20 - 1)), (0, 32, seq)])

/-- Shavings that a selector and all of them may send in a second. -/
def exportRoom (s : State) (x : Export) : Bool :=
  let sec := s.tb.now / 1000000000
  let inSec := fun (y : Export) => if y.second = sec then y.inSecond else 0
  decide (inSec x < x.rateKps * 1000) &&
    decide ((s.tel.exps.map fun kv => inSec kv.2).foldl (· + ·) 0 < 400000000)

/-- A record gathered into a selector's batch. (Log entry 82.) -/
def batchAdd (now : Nat) (x : Export) (bs : List Byte) : Export :=
  let sec := now / 1000000000
  { x with batch := x.batch ++ [bs], since := if x.batch.isEmpty then now else x.since, second := sec,
           inSecond := (if x.second = sec then x.inSecond else 0) + 1 }

/-- One selector offered a matching shaving: its sample count of the slice, then a record or a loss. -/
def exportOne (s : State) (i slice : Nat) (bs : List Byte) : State :=
  let x := SMap.get (fun _ => Export.reset) s.tel.exps i
  let n := x.counts.getD slice 0 + 1
  let put := fun (t : State) (y : Export) => t.updTel fun q => { q with exps := SMap.put (fun _ => Export.reset) q.exps i y }
  if n < x.sampleN then put s { x with counts := x.counts.set slice n }
  else
    let x := { x with counts := x.counts.set slice 0 }
    if exportRoom s x then put s (batchAdd s.tb.now x bs)
    else winEvent (put s { x with lost := x.lost + 1, lostNow := x.lostNow + 1 }) 0x0F01 i i 32 32 1

/-- A freeze whose POST_RECORDS are written takes effect, with CAPTURE_FROZEN (15 R493). (Log entry 83.) -/
def freezeDone (s : State) : State :=
  let c := s.tel.cap
  if c.post = some 0 then
    let t := s.updTel fun q => { q with cap := { q.cap with post := none, state := 1 } }
    postAll t 0x0F02 0 (packN [(0, 1, b2n c.trigger.isSome), (1, 4, c.trigger.getD 0), (32, 32, c.freezeNo)])
  else s

/-- A freeze of a wrapping capture ring (15 R493): by a trigger's selector, or by an order. (Log entry 83.) -/
def freezeCapture (s : State) (by_ : Option Nat) : State :=
  freezeDone (s.updTel fun q =>
    { q with cap := { q.cap with post := some q.cap.postRecords, trigger := by_, freezeNo := q.cap.number } })

/-- Every selector offered a shaving; one with TRIGGER freezes the ring and exports nothing. -/
def exportsAdd (s : State) (p : Pkt) (seq : Nat) (f : Finish) (shav : List Byte) : State :=
  (s.tel.exps.map fun kv => kv.1).foldl (fun t i =>
    let x := SMap.get (fun _ => Export.reset) t.tel.exps i
    if x.enable && filterMatches x.filter p f then
      if x.trigger then
        if t.tel.cap.wrap && t.tel.cap.state == 0 && t.tel.cap.post.isNone then freezeCapture t (some i) else t
      else exportOne t i (shavingSlice p) (if x.fmt32 then jg51 p seq f else shav)
    else t) s

/-- A packet's shaving finalised and fed to the reducers, the log and the selectors (15 R475 to R482). -/
def finalise (s : State) (p : Pkt) (pool : Option Nat) (copies : Nat) (f : Finish) : State :=
  let slice := shavingSlice p
  let seq := SMap.get (fun _ => 0) s.tel.seqs slice + 1
  let t := s.updTel fun q =>
    { q with seqs := SMap.put (fun _ => 0) q.seqs slice seq,
             hists := q.hists.map fun kv => (kv.1, histAdd p f kv.2) }
  let t := selBump t slice 1 fun c => c.event == 0x403
  let t := if p.origin.isNone && p.diverged then portEvent t p.port 62 1 else t
  let t := if p.origin.isNone && p.late then portEvent t p.port 63 1 else t
  let t := evidence (sketchesAdd t p f) p f
  exportsAdd t p seq.toNat f (shavingBytes p pool copies seq.toNat f)

/-- A packet dropped before it is stored: its counter, its shaving, its version count (07 R244). -/
def dropUnstored (s : State) (p : Pkt) (cause : Nat) : State :=
  countFlight (finalise (countDrop s p.port cause) p none 0 (Finish.dropped cause)) p.ver 0 1

/-! Bandwidth (15 R488) -/

/-- A window's bytes counted as a complete one, whose start is the DT `start`. (Log entry 81.) -/
def bwClose (start bytes : Nat) (d : BwDir) : BwDir :=
  { cur := 0, last := bytes, min := if d.windows = 0 then bytes else min d.min bytes, max := max d.max bytes,
    maxDt := if d.windows = 0 ∨ d.max < bytes then start else d.maxDt, windows := satAdd 16 d.windows 1 }

/-- `n` complete windows without a frame, the first starting at the DT `start`. -/
def bwEmpty (start n : Nat) (d : BwDir) : BwDir :=
  if n = 0 then d else { bwClose start 0 d with windows := satAdd 16 d.windows n }

/-- The windows that end before window `k` closed, in both directions. -/
def bwRoll (k : Nat) (b : Bw) : Bw :=
  if k ≤ b.index then b else
  let u := b.windowNs * dtNs
  let f := fun (d : BwDir) =>
    bwEmpty ((b.index + 1) * u) (k - b.index - 1) (if b.whole then bwClose (b.index * u) d.cur d else { d with cur := 0 })
  { b with index := k, whole := true, rx := f b.rx, tx := f b.tx }

/-- A frame charged to the window that holds its start; one whose window is already closed is charged to none.
(Log entry 81.) -/
def bwAdd (s : State) (port : Nat) (tx : Bool) (dt len : Nat) : State :=
  s.updTel fun q =>
    { q with bws := SMap.upd (fun _ => Bw.reset) q.bws port fun b0 =>
        let k := dt / (b0.windowNs * dtNs)
        let b := bwRoll k b0
        if k = b.index then
          if tx then { b with tx := { b.tx with cur := b.tx.cur + len + 20 } }
          else { b with rx := { b.rx with cur := b.rx.cur + len + 20 } }
        else b }

end Sys2Proof.Machine
end

