-- ==== Sys2Proof/Machine/BufOps.lean ====
section
/-! DEFINITION. Shared operations on the buffer (chapter 09): pools, billets and their checks, references, admission. -/

namespace Sys2Proof.Machine

/-! Granules, banks, rows (09 R321) -/

/-- The buffer byte at which a granule begins; the bank and the row of the word at a byte address. -/
def granuleByte (g : Nat) : Nat := 256 * g
def bufBank (a : Nat) : Nat := a / 32 % 1024
def bufRow (a : Nat) : Nat := a / 32768

/-! Fabric cycles (09 R328 to R330) -/

/-- The fabric cycle of the elapsed time, at 2.4 GHz. -/
def elapsedCycle (s : State) : Nat := s.tb.now * 12 / 5

/-- The fabric cycle of the claims: that of the elapsed time, or the one they have reached. (Log entry 62.) -/
def fabricCycle (s : State) : Nat := max s.buf.cyc (elapsedCycle s)

/-- Cycle `c` begun. -/
def newCycle (s : State) (c : Nat) : State :=
  if c = s.buf.cyc then s else s.updBuf fun b => { b with cyc := c, claims := [], fresh := [] }

/-! Pools (09 R322 to R326) -/

/-- The granules of pool `p` and its first INDEX. -/
def poolGranules (s : State) (p : Nat) : Nat := s.buf.g.getD p 0 * 4096
def poolStart (s : State) (p : Nat) : Nat := ((List.range p).map (poolGranules s)).foldl (· + ·) 0

/-- STEP and the billet size of pool `p` (09 Table 9-3). -/
def poolStep (p : Nat) : Nat := 4 ^ p
def billetBytes (p : Nat) : Nat := 256 * 4 ^ p

/-- A billet pointer (09 Table 9-1). -/
def pointerOf (pool index : Nat) : Nat := pool * 2 ^ 20 + index
def ptrPool (ptr : Nat) : Nat := ptr / 2 ^ 20

/-- A pointer is valid (09 R322). -/
def ptrValid (s : State) (ptr : Nat) : Bool :=
  let p := ptrPool ptr
  let i := ptr % 2 ^ 20
  decide (p < 4) && decide (poolStart s p ≤ i) && decide (i < poolStart s p + poolGranules s p) &&
    decide (i % poolStep p = 0)

/-- Billets of pool `p`, those granted, those free. -/
def billetCount (s : State) (p : Nat) : Nat := poolGranules s p / poolStep p
def billetsBusy (s : State) (p : Nat) : Nat := (s.buf.busy.filter fun kv => ptrPool kv.1 == p).length
def billetsFree (s : State) (p : Nat) : Nat := billetCount s p - billetsBusy s p

/-- The smallest-fit pool of a length (09 R325). (Log entry 62.) -/
def fitPool (len : Nat) : Nat := if len ≤ 256 then 0 else if len ≤ 1024 then 1 else if len ≤ 4096 then 2 else 3

def getRec (s : State) (ptr : Nat) : Billet := SMap.get (fun _ => Billet.reset) s.buf.recs ptr
def putRec (s : State) (ptr : Nat) (r : Billet) : State :=
  s.updBuf fun b => { b with recs := SMap.put (fun _ => Billet.reset) b.recs ptr r }
def setBusy (s : State) (ptr : Nat) (on : Bool) : State :=
  s.updBuf fun b => { b with busy := SMap.put (fun _ => false) b.busy ptr on }

/-- The parity of S and REFCOUNT, and whether a record's parity bit is wrong (09 R323). -/
def recParity (r : Billet) : Bool := ((List.range 10).foldl (fun p i => p + nfld r.refs i 1) (b2n r.s)) % 2 == 1
def parityBad (r : Billet) : Bool := r.par != recParity r
/-- A record with its parity bit written. -/
def sealed (r : Billet) : Billet := { r with par := recParity r }
/-- A parity error on S and REFCOUNT of a record. -/
def flipParity (s : State) (ptr : Nat) : State := putRec s ptr { getRec s ptr with par := !(getRec s ptr).par }

/-- The byte at a buffer address (09 R321, R323): of the frame in the allocated billet that holds it. What a billet keeps beyond its
frame, or once it is free, no rule reads. -/
def bufferByte (s : State) (a : Nat) : Option Byte :=
  let i := a / 256
  s.buf.recs.findSome? fun kv =>
    let first := kv.1 % 2 ^ 20
    if first ≤ i ∧ i < first + poolStep (ptrPool kv.1) ∧ kv.2.s = true then kv.2.frame[a - granuleByte first]? else none

/-- A billet counted as leaked, once (09 Table 9-5). -/
def leak (s : State) (ptr : Nat) : State :=
  let r := getRec s ptr
  if r.leaked then s else (putRec s ptr { r with leaked := true }).updBuf fun b => { b with leaked := b.leaked + 1 }

/-- A billet fault counted and reported (09 R335, R349; 17 Table 17-3). -/
def billetFault (s : State) (cause ptr : Nat) : State :=
  let t := s.updBuf fun b => { b with faults := b.faults.modify (cause - 1) fun n => satAdd 16 n 1 }
  let t := winEvent t 0x0902 cause (packN [(0, 3, cause), (3, 22, ptr)]) 32 32 1
  recordError t 16 0x03 cause 1 3 (packN [(0, 22, ptr)])

/-- POOL_LOW and its recovery (09 R349). -/
def poolLow (s : State) (p : Nat) : State :=
  let n := billetCount s p
  let f := billetsFree s p
  if f * 16 < n ∧ s.buf.low.contains p = false then
    postAll (s.updBuf fun b => { b with low := p :: b.low }) 0x0901 0 (packN [(0, 2, p), (2, 1, 1), (8, 24, f)])
  else if n < f * 8 ∧ s.buf.low.contains p = true then
    postAll (s.updBuf fun b => { b with low := b.low.erase p }) 0x0901 0 (packN [(0, 2, p), (8, 24, f)])
  else s

/-- The lowest index from `c` on, by steps, that no rising key of the map holds. -/
def firstGap (step : Nat) : Nat → SMap Bool → Nat
  | c, [] => c
  | c, (k, _) :: m => if k < c then firstGap step c m else if k = c then firstGap step (c + step) m else c

/-- The map of billets that no claim of this cycle can be granted: those taken, and those freed in the cycle (09 R330). -/
def takenMap (s : State) : SMap Bool := s.buf.fresh.foldl (fun m p => SMap.put (fun _ => false) m p true) s.buf.busy

/-- A billet whose map bit wrongly reads free, or a record's parity error, before a grant (09 Table 9-5 causes 3 and 5). -/
def grantUpset (s : State) (u : GrantUpset) : State :=
  match u with
  | .none => s
  | .map p => setBusy s p.toNat false
  | .parity p => flipParity s p.toNat

/-- A grant in pool `p` (09 R328): the lowest billet whose map bit is 1. One whose record fails parity, or whose S is 1, is withheld and
reported, and the claim takes the next (Table 9-5 causes 5 and 3). (Log entry 62.) -/
def grantIn (p : Nat) : Nat → State → State × Option Nat
  | 0, s => (s, none)
  | fuel + 1, s =>
    let ptr := firstGap (poolStep p) (pointerOf p (poolStart s p)) (takenMap s)
    if ptrValid s ptr && ptrPool ptr == p then
      let t := setBusy s ptr true
      if parityBad (getRec s ptr) then grantIn p fuel (leak (billetFault t 5 ptr) ptr)
      else if (getRec s ptr).s then grantIn p fuel (billetFault t 3 ptr) else (poolLow t p, some ptr)
    else (s, none)

/-- One pool tried for a claim (09 R326, R328). -/
def grantPool (s : State) (p : Nat) : State × Option Nat := grantIn p (s.buf.recs.length + 1) s

/-- A claim from its smallest-fit pool upwards (09 R326), `n` pools left to try. (Log entry 62.) -/
def claimFrom : Nat → Nat → State → State × Option Nat
  | 0, _, s => (s, none)
  | n + 1, p, s =>
    match grantPool s p with
    | (t, some ptr) => (t, some ptr)
    | (t, none) =>
      if n = 0 then (t, none) else claimFrom n (p + 1) (t.updBuf fun b => { b with spills := b.spills + 1 })

/-- A claim for a packet of stored length `len`. (Log entry 62.) -/
def claim (s : State) (len : Nat) : State × Option Nat := claimFrom (4 - fitPool len) (fitPool len) s

/-- A granted billet written: its record with the references counted before any copy is seen (09 R331, R334). -/
def writeBillet (s : State) (ptr refs : Nat) (frame : List Byte) (bridge : BitVec 512) : State :=
  putRec s ptr (sealed { Billet.reset with
    s := true, refs := refs, frame := frame, length := frame.length, crc := crc32c (frame ++ bytesBE 64 bridge.toNat),
    bridge := bridge })

/-- A billet freed (09 R330): its S cleared and its map bit set in one cycle, in which no claim is granted it. -/
def freeBillet (s : State) (ptr : Nat) : State :=
  let t := newCycle (setBusy (putRec s ptr Billet.reset) ptr false) (fabricCycle s)
  poolLow (t.updBuf fun b => { b with fresh := ptr :: b.fresh }) (ptrPool ptr)

/-- A release applied at a pointer (09 R330, Table 9-5). -/
def releaseAt (s : State) (ptr : Nat) : State :=
  let s := if parityBad (getRec s ptr) then leak (billetFault s 5 ptr) ptr else s
  let r := getRec s ptr
  if !r.s then billetFault s 1 ptr
  else if r.refs = 0 then leak (billetFault s 4 ptr) ptr
  else if r.refs = 1 ∧ r.leaked = false ∧ r.orphan = false then freeBillet s ptr
  else putRec s ptr (sealed { r with refs := r.refs - 1 })

/-- A reference of a billet released, with what goes wrong then: a pointer that names another billet releases that one, and the
billet it should have named stays allocated (09, Checks on billets). -/
def releaseBillet (s : State) (ptr : Nat) (u : BilletUpset) : State :=
  match u with
  | .none => releaseAt s ptr
  | .pointer q =>
    if ptrValid s q.toNat then releaseAt (putRec s ptr { getRec s ptr with orphan := true }) q.toNat
    else leak (billetFault s 2 q.toNat) ptr
  | .parity => releaseAt (flipParity s ptr) ptr

/-! Stored packets -/

def getStored (s : State) (id : Nat) : Option Stored := SMap.get (fun _ => none) s.buf.stored id
def putStored (s : State) (id : Nat) (x : Option Stored) : State :=
  s.updBuf fun b => { b with stored := SMap.put (fun _ => none) b.stored id x }
def updStored (s : State) (id : Nat) (f : Stored → Stored) : State := putStored s id ((getStored s id).map f)

/-- A new name for a packet or a copy. -/
def freshId (s : State) : Nat × State := (s.fwd.nextId, s.updFwd fun w => { w with nextId := w.nextId + 1 })

def getPg (s : State) (g : Nat) : PgSt := SMap.get (fun _ => PgSt.reset) s.buf.pgs g
def updPg (s : State) (g : Nat) (f : PgSt → PgSt) : State :=
  s.updBuf fun b => { b with pgs := SMap.upd (fun _ => PgSt.reset) b.pgs g f }
def getQueue (s : State) (q : Nat) : QueueSt := SMap.get (fun _ => QueueSt.reset) s.buf.queues q
def updQueue (s : State) (q : Nat) (f : QueueSt → QueueSt) : State :=
  s.updBuf fun b => { b with queues := SMap.upd (fun _ => QueueSt.reset) b.queues q f }

/-- A packet consumed (15 R475): its shaving, unless it has one. -/
def finaliseStored (s : State) (id : Nat) (f : Finish) : State :=
  match getStored s id with
  | some x =>
    if x.final || x.kind != .packet then s
    else
      let seq := (SMap.get (fun _ => 0) s.tel.seqs (shavingSlice x.pkt) + 1).toNat
      finalise (updStored s id fun y => { y with final := true, shav := shavingBytes x.pkt x.pool x.copies seq f })
        x.pkt x.pool x.copies f
  | none => s

/-! PFC's debts (11 R398) -/

def getPfc (s : State) (n : Nat) : PfcSt := SMap.get (fun _ => PfcSt.reset) s.egr.pfc n
def updPfc (s : State) (n : Nat) (f : PfcSt → PfcSt) : State :=
  s.updEgr fun e => { e with pfc := SMap.upd (fun _ => PfcSt.reset) e.pfc n f }

/-- A group paused or unpaused: the port owes a PFC frame when TX_EN names it (11 R398). -/
def pgPause (s : State) (g : Nat) (on : Bool) : State :=
  let t := updPg s g fun p => { p with paused := on }
  let n := g / 8
  if bit (getPfc s n).txEn (g % 8) then
    updPfc t n fun f =>
      { f with due := true, zero := if on then f.zero &&& ~~~(BitVec.ofNat 8 (2 ^ (g % 8)))
                                     else f.zero ||| BitVec.ofNat 8 (2 ^ (g % 8)) }
  else t

/-- PG_O charged, and the pause at XOFF (09 R340). -/
def pgCharge (s : State) (g b : Nat) : State :=
  let t := updPg s g fun p => { p with occ := p.occ + b }
  let p := getPg t g
  if p.lossless && !p.paused && decide (p.xoffKib * 1024 ≤ p.occ) then pgPause t g true else t

/-- PG_O released, and the pause's end at XON. -/
def pgRelease (s : State) (g b : Nat) : State :=
  let t := updPg s g fun p => { p with occ := p.occ - b }
  let p := getPg t g
  if p.paused && decide (p.occ ≤ p.xonKib * 1024) then pgPause t g false else t

/-- A packet's billet given up without its references ending: its write to DRAM has completed (09 R343). -/
def leaveBillet (s : State) (id : Nat) (u : BilletUpset) : State :=
  match getStored s id with
  | some x =>
    match x.ptr with
    | some ptr =>
      let t := releaseBillet s ptr u
      let t := match x.pg with | some g => pgRelease t g x.bytes | none => t
      updStored t id fun y => { y with ptr := none, bytes := 0, pg := none }
    | none => s
  | none => s

/-- A reference of a packet ends (07 R244; 09 R331, R332): the last one ends the packet, with its shaving if no copy has
begun. -/
def endRef (s : State) (id : Nat) (u : BilletUpset) : State :=
  match getStored s id with
  | none => s
  | some x =>
    let t := match x.ptr with | some ptr => releaseBillet s ptr u | none => s
    let t := if x.kind = .packet then countFlight t x.pkt.ver 0 1 else t
    if x.refs ≤ 1 then
      let t := finaliseStored t id (Finish.dropped x.cause)
      let t := match x.pg with | some g => pgRelease t g x.bytes | none => t
      putStored t id none
    else updStored t id fun y => { y with refs := y.refs - 1 }

/-- A copy of a stored packet dropped at `port` with a cause: counted, and its reference ends (15 R484). -/
def dropRef (s : State) (id port cause : Nat) (u : BilletUpset) : State :=
  endRef (updStored (countDrop s port cause) id fun x => { x with cause := cause }) id u

/-- A billet's CRC failed on a read (09 R334): counted, reported, recorded; the copy read is dropped. -/
def crcFailed (s : State) (id port : Nat) : State :=
  let ptr := ((getStored s id).bind fun x => x.ptr).getD 0
  let t := s.updBuf fun b => { b with dropCrc := b.dropCrc + 1 }
  let t := winEvent t 0x0903 port port 32 32 1
  recordError t 16 0x02 port 1 3 (packN [(0, 22, ptr)])

/-! Admission (09 R337 to R340) -/

/-- The sum of a list. -/
def sumN (l : List Nat) : Nat := l.foldl (· + ·) 0

/-- O_q (09 R337): the billets of the copies in the buffer, those held for a spray receiver's order (07 R253) and those staged for DRAM
(R343) included. -/
def occOf (q : QueueSt) : Nat :=
  sumN (q.die.map fun c => c.bytes) + sumN ((q.dram.filter fun d => !d.written).map fun d => d.copy.bytes) + q.resv

/-- F, the free space. -/
def freeSpace (s : State) : Int :=
  let pools := sumN ([0, 1, 2, 3].map fun p => billetsFree s p * billetBytes p)
  let mins := sumN (s.buf.queues.map fun kv => kv.2.minKib * 1024 - occOf kv.2)
  let heads := (s.buf.pgs.map fun kv =>
    if kv.2.lossless then ((kv.2.headKib * 1024 : Nat) : Int) - (kv.2.occ - kv.2.xoffKib * 1024 : Nat) else 0).foldl (· + ·) 0
  (pools : Int) - mins - heads

/-- 64 times the threshold MIN_q + α_q × F. -/
def threshold64 (s : State) (q : QueueSt) : Int :=
  q.minKib * 1024 * 64 + (if q.alpha = 15 then 0 else (2 ^ q.alpha : Nat) * freeSpace s)

/-- The test of R338 for a billet size `b`. -/
def admits (s : State) (q b : Nat) : Bool :=
  let x := getQueue s q
  decide (occOf x + b ≤ x.minKib * 1024) ||
    (x.alpha != 15 && decide (((occOf x + b) * 64 : Nat) ≤ threshold64 s x))

def getQs (s : State) (q : Nat) : QSched := SMap.get QSched.reset s.egr.queues q
def updQs (s : State) (q : Nat) (f : QSched → QSched) : State :=
  s.updEgr fun e => { e with queues := SMap.upd QSched.reset e.queues q f }

/-- A DRAM admission drop counted (09 R343, Table 9-6). -/
def overflowFull (s : State) (q : Nat) : State :=
  let t := updQueue s q fun x => { x with dropOvf := x.dropOvf + 1 }
  winEvent (t.updBuf fun b => { b with dropOvf := b.dropOvf + 1 }) 0x0905 q q 32 32 1

/-- An ADMISSION drop counted. -/
def admissionDrop (s : State) (q : Nat) : State :=
  let t := updQueue s q fun x => { x with dropAdm := x.dropAdm + 1 }
  queueEvent (t.updBuf fun b => { b with dropAdm := b.dropAdm + 1 }) q 3 1

/-! The watchdog's count (11 R399) -/

/-- Priority `g` of a port is paused by received PFC. -/
def rxPaused (s : State) (n g : Nat) : Bool :=
  let f := getPfc s n
  bit f.rxEn g && decide (s.tb.now * 1000 < f.pauseUntil.getD g 0)

/-- W brought up to date: it grows while the queue holds a copy and its priority is paused, and resets when empty. Whatever
changes a pause brings W up to date before and after. -/
def wdRefresh (s : State) (q : Nat) : State :=
  let x := getQueue s q
  let empty := x.die.isEmpty && x.dram.isEmpty
  let grows := !empty && rxPaused s (q / 16) (q % 16 / 2) && (getPfc s (q / 16)).wdEn
  updQs s q fun d =>
    let until_ := (getPfc s (q / 16)).pauseUntil.getD (q % 16 / 2) 0 / 1000
    let w := match d.wFrom with | some t => d.w + (min s.tb.now until_ - t) | none => d.w
    { d with w := if empty then 0 else w, wFrom := if grows then some s.tb.now else none }

/-- A copy put at the end of a queue's on-die part (09 R344: behind what is in DRAM it goes there instead).
(Log entry 61.) -/
def enqueueDie (s : State) (q : Nat) (c : Copy) (len : Nat) : State :=
  let t := updQueue s q fun x => { x with die := x.die ++ [c] }
  wdRefresh (queueEvent (queueEvent t q 0 1) q 1 len) q

end Sys2Proof.Machine
end

