-- ==== Sys2Proof/Machine/NativePcs.lean ====
section
/-! DEFINITION. PCS and FEC: the kinds of 05 Table 5-1, and the transmit side of the native PCS (05 R163): 64b/66b blocks, their
transcoding, the scrambler, the deal to the lanes, RS(544,514), the PAM4 symbols (04 Table 4-2), and the marker block.
(Log entry 94.) -/

namespace Sys2Proof.Machine

/-! The PCS of a port (05 R161) -/

/-- The PCS of Table 5-1: a clause of IEEE 802.3, or the native one. -/
inductive PcsName where
  | clause82 | clause119 | of800 | of1600 | native
deriving DecidableEq, Repr

/-- The FEC of Table 5-1: always RS(544,514), as Clause 91 or Clause 119 uses it, as the PCS itself does, or one codeword stream
a lane. -/
inductive FecName where
  | clause91 | clause119 | ofPcs | perLane
deriving DecidableEq, Repr

/-- A row of Table 5-1, with the PCS lanes that one physical lane carries. -/
structure PcsKind where
  pcs : PcsName
  fec : FecName
  perLane : Nat
deriving DecidableEq, Repr

/-- The PCS and FEC of a width and a rate (05 Table 5-1, 04 Table 4-1). (Log entry 94.) -/
def pcsKind (c : PortCfg) : PcsKind :=
  match c.rate, c.width with
  | 2, _ => ⟨.native, .perLane, 1⟩
  | 0, 0 => ⟨.clause82, .clause91, 20⟩
  | 0, 1 => ⟨.clause119, .clause119, 4⟩
  | 1, 0 => ⟨.clause119, .clause119, 8⟩
  | 1, 1 => ⟨.clause119, .clause119, 8⟩
  | 0, 2 => ⟨.clause119, .clause119, 4⟩
  | 0, _ => ⟨.of800, .ofPcs, 4⟩
  | 1, 2 => ⟨.of800, .ofPcs, 8⟩
  | _, _ => ⟨.of1600, .ofPcs, 2⟩

/-- The bits of a codeword and of a native marker period on a lane (05 R163, R164). -/
def codewordBits : Nat := 5440
def nativePeriod : Nat := 4096 * codewordBits

/-- The marker period in bits of one PCS lane (05 R167). -/
def markerPeriod (c : PortCfg) : Nat := if c.rate = 2 then nativePeriod else Config.amPeriod c.rate c.width

/-- The skew in ns that the lanes of a port tolerate (05 R169). -/
def skewNs (c : PortCfg) : Nat := if c.rate = 2 then 64 else Config.amSkewNs c.rate c.width

/-! 64b/66b blocks (IEEE 802.3 Clause 119 by Clause 82); bit 0 is sent first -/

/-- A data block of eight bytes. -/
def dataBlock (bs : List Byte) : BitVec 66 := BitVec.ofNat 66 (2 + leNat bs * 4)

/-- A control block: its type and the 56 bits after it. -/
def controlBlock (type rest : Nat) : BitVec 66 := BitVec.ofNat 66 (1 + (type + rest * 256) * 4)

/-- Idle characters; error characters; the start of a frame, before its last seven preamble bytes; the sequence ordered set of remote
fault. -/
def idleBlock : BitVec 66 := controlBlock 0x1E 0
def errorBlock : BitVec 66 := controlBlock 0x1E (packN ((List.range 8).map fun i => (7 * i, 7, 0x1E)))
def startBlock : BitVec 66 := controlBlock 0x78 0xD5555555555555
def remoteFaultBlock : BitVec 66 := controlBlock 0x4B 0x020000

/-- The block that ends a frame after `bs`, its last bytes, seven at the most. -/
def endBlock (bs : List Byte) : BitVec 66 :=
  controlBlock ([0x87, 0x99, 0xAA, 0xB4, 0xCC, 0xD2, 0xE1, 0xFF].getD bs.length 0x87) (leNat bs)

/-- The blocks of a frame's bytes after its start, `n` data blocks at the most. -/
def bodyBlocks : Nat → List Byte → List (BitVec 66)
  | 0, bs => [endBlock (bs.take 7)]
  | n + 1, bs => if bs.length < 8 then [endBlock bs] else dataBlock (bs.take 8) :: bodyBlocks n (bs.drop 8)

/-- A MAC frame as 64b/66b blocks. -/
def frameBlocks (f : List Byte) : List (BitVec 66) := startBlock :: bodyBlocks (f.length / 8 + 1) f

/-! Transcoding and scrambling (IEEE 802.3 Clause 119) -/

/-- The data bits of a block; a block is a control block. -/
def payload66 (b : BitVec 66) : Nat := b.toNat / 4
def isControl66 (b : BitVec 66) : Bool := b.getLsbD 0

/-- Four blocks as one of 257 bits: all data, a one and their payloads; otherwise a zero, a bit for each block that is one for
data, and the payloads less the second nibble of the first control block's type. -/
def transcode (bs : List (BitVec 66)) : BitVec 257 :=
  let pay := packN (bs.zipIdx.map fun x => (64 * x.2, 64, payload66 x.1))
  match (bs.zipIdx.find? fun x => isControl66 x.1).map fun x => x.2 with
  | none => BitVec.ofNat 257 (1 + pay * 2)
  | some c =>
    let cut := 64 * c + 4
    let kept := pay % 2 ^ cut + pay / 2 ^ (cut + 4) * 2 ^ cut
    BitVec.ofNat 257 (packN (bs.zipIdx.map fun x => (1 + x.2, 1, b2n (!isControl66 x.1))) + kept * 32)

/-- The self-synchronising scrambler 1 + x^39 + x^58 over `n` bits of `v`, first bit lowest: the register's newest bit is
its lowest. -/
def scramble : Nat → Nat → BitVec 58 → Nat × BitVec 58
  | 0, _, r => (0, r)
  | n + 1, v, r =>
    let b := ((v % 2 == 1) ^^ r.getLsbD 38) ^^ r.getLsbD 57
    let x := scramble n (v / 2) (BitVec.ofNat 58 (r.toNat * 2 + b2n b))
    (b2n b + x.1 * 2, x.2)

/-! RS(544,514) over GF(2^10), x^10 + x^3 + 1 (IEEE 802.3 Clause 119) -/

/-- A product in the field: `n` bits of `b`, lowest first, times `a`. -/
def gfMulN : Nat → Nat → Nat → Nat
  | 0, _, _ => 0
  | n + 1, a, b =>
    let a2 := if a < 512 then a * 2 else (a * 2) ^^^ 0x409
    (if b % 2 = 1 then a else 0) ^^^ gfMulN n a2 (b / 2)

def gfMul (a b : Nat) : Nat := gfMulN 10 a b

/-- A polynomial, highest coefficient first, times x + r. -/
def polyTimes (p : List Nat) (r : Nat) : List Nat :=
  (p ++ [0]).zipWith (fun a b => a ^^^ b) (0 :: p.map (gfMul r))

/-- The product of x + a^j for the `n` powers from `a` on, with the next power. -/
def rsGen : Nat → List Nat × Nat
  | 0 => ([1], 1)
  | n + 1 => let x := rsGen n; (polyTimes x.1 x.2, gfMul 2 x.2)

/-- The generator polynomial of degree 30. -/
def rsPoly : List Nat := (rsGen 30).1

/-- One message symbol taken into the 30 parity symbols, highest first. -/
def rsShift (g : List Nat) (par : List Nat) (m : Nat) : List Nat :=
  let f := m ^^^ par.headD 0
  (par.drop 1 ++ [0]).zipWith (fun a b => a ^^^ gfMul f b) (g.drop 1)

/-- A codeword: 514 message symbols in the order they are sent, and their 30 parity symbols. -/
def rsEncode (msg : List Nat) : List Nat := msg ++ msg.foldl (rsShift rsPoly) (List.replicate 30 0)

/-- The ten-bit symbols of 20 blocks (05 R163). -/
def messageOf (bs : List (BitVec 257)) : List Nat :=
  let v := packN (bs.zipIdx.map fun x => (257 * x.2, 257, x.1.toNat))
  (List.range 514).map fun i => nfld v (10 * i) 10

/-- The codeword of 20 blocks as one number, first bit lowest. -/
def codewordOf (bs : List (BitVec 257)) : Nat :=
  packN ((rsEncode (messageOf bs)).zipIdx.map fun x => (10 * x.2, 10, x.1))

/-! Symbols (04 Table 4-2 and the precoder) -/

/-- The symbol of a pair of bits, the first one `b1` (04 Table 4-2). -/
def pamMap (gray : Bool) (b1 b0 : Nat) : Nat := if gray then (if b1 = 0 then b0 else 3 - b0) else 2 * b1 + b0

/-- The pair of bits of a symbol, first and second. -/
def pamUnmap (gray : Bool) (y : Nat) : Nat × Nat :=
  if gray then (if y < 2 then (0, y) else (1, 3 - y)) else (y / 2, y % 2)

/-- The symbol sent, after the precoder (04, before R127). -/
def precode (on : Bool) (prev x : Nat) : Nat := if on then (x + 4 - prev) % 4 else x

/-- The symbol before the far end's precoder, of what is decided. -/
def unprecode (on : Bool) (prev y : Nat) : Nat := if on then (y + prev) % 4 else y

/-- `n` symbols of a lane's bits, first one lowest, and the last one sent. -/
def pamSymbols (gray pre : Bool) : Nat → Nat → Nat → Nat × Nat
  | 0, _, prev => (0, prev)
  | n + 1, v, prev =>
    let y := precode pre prev (pamMap gray (v % 2) (v / 2 % 2))
    let r := pamSymbols gray pre n (v / 4) y
    (y + r.1 * 4, r.2)

/-! The chain (05 R163 to R165) -/

/-- A block of 257 bits put on one lane; a message that is whole leaves as a codeword. -/
def laneTake (x : List (BitVec 257)) (b : BitVec 257) : List (BitVec 257) × Option Nat :=
  let y := x ++ [b]
  if y.length < 20 then (y, none) else ([], some (codewordOf y))

/-- A block dealt to the next lane of `w` (05 R163 step 3). -/
def dealBlock (w : Nat) (l : Line) (b : BitVec 257) : Line × List (Nat × Nat) :=
  let k := l.deal % w
  let x := laneTake (l.lanes.getD k []) b
  ({ l with lanes := (padLanes w l.lanes).set k x.1, deal := (k + 1) % w, held := l.held && x.2.isNone },
    match x.2 with | some v => [(k, v)] | none => [])
where
  padLanes (w : Nat) (ls : List (List (BitVec 257))) : List (List (BitVec 257)) := ls ++ List.replicate (w - ls.length) []

/-- A 66-bit block taken: the fourth of a group is transcoded, scrambled and dealt. -/
def takeBlock (w : Nat) (a : Line × List (Nat × Nat)) (b : BitVec 66) : Line × List (Nat × Nat) :=
  let bs := a.1.blocks ++ [b]
  if bs.length < 4 then ({ a.1 with blocks := bs }, a.2)
  else
    let x := scramble 257 (transcode bs).toNat a.1.scr
    let r := dealBlock w { a.1 with blocks := [], scr := x.2 } (BitVec.ofNat 257 x.1)
    (r.1, a.2 ++ r.2)

/-- Idle blocks until every lane stands at a codeword boundary, `n` at the most. -/
def fillLine (w : Nat) : Nat → Line × List (Nat × Nat) → Line × List (Nat × Nat)
  | 0, a => a
  | n + 1, a =>
    if a.1.blocks.isEmpty && a.1.lanes.all (fun x => x.isEmpty) then a else fillLine w n (takeBlock w a idleBlock)

/-- The chain brought to a codeword boundary on every lane. -/
def boundary (w : Nat) (l : Line) : Line × List (Nat × Nat) := fillLine w (80 * w) (l, [])

/-- A frame, then an idle block, deleted where an insertion is still owed for (05 R164). -/
def lineFrame (w : Nat) (l : Line) (f : List Byte) : Line × List (Nat × Nat) :=
  let a := (frameBlocks f).foldl (takeBlock w) (l, [])
  if 0 < a.1.owed then ({ a.1 with owed := a.1.owed - 1 }, a.2) else takeBlock w a idleBlock

/-- The four blocks of a structure, the highest bit sent first (05 R165). -/
def structBlocks (v : Nat) : List (BitVec 257) :=
  (List.range 4).map fun i =>
    BitVec.ofNat 257 (packN ((List.range 256).map fun j => (j + 1, 1, nfld v (1023 - 256 * i - j) 1)))

/-- A structure on every lane: at the next codeword boundary, or, `after` a marker, where the lanes stand; in the codeword after one that
holds a structure (05 R165). -/
def lineStruct (w : Nat) (l : Line) (v : Nat) (after : Bool) : Line × List (Nat × Nat) :=
  let a := if after && !l.held then (l, []) else boundary w l
  let a := (structBlocks v).foldl (fun a b => (List.range w).foldl (fun a _ =>
    let r := dealBlock w a.1 b; (r.1, a.2 ++ r.2)) a) a
  ({ a.1 with held := true, owed := a.1.owed + 16 * w }, a.2)

/-- A native marker block (05 Table 5-2). -/
def markerBlock (pos width : Nat) (sw : Bool) (count : BitVec 16) : BitVec 257 :=
  BitVec.ofNat 257 (packN [(248, 8, 0x4D), (184, 64, 0x9A4E3B71C52D86F0), (120, 64, 0x65B1C48E3AD2790F), (117, 3, pos),
    (115, 2, width), (114, 1, b2n sw), (96, 16, count.toNat)])

/-- The markers on every lane, as the first block of a codeword (05 R164). -/
def lineMarkers (w : Nat) (l : Line) (blocks : List (BitVec 257)) : Line × List (Nat × Nat) :=
  let a := boundary w l
  let r := (List.range w).foldl (fun (a : Line × List (Nat × Nat)) k =>
    let bits := BitVec.ofNat 257 (packN ((List.range 257).map fun j => (j, 1, nfld (blocks.getD k 0).toNat (256 - j) 1)))
    let x := dealBlock w a.1 bits
    (x.1, a.2 ++ x.2)) ({ a.1 with deal := 0 }, a.2)
  ({ r.1 with owed := r.1.owed + 4 * w }, r.2)

/-- The ones of a number among its `n` lowest bits. -/
def popCount : Nat → Nat → Nat
  | 0, _ => 0
  | n + 1, v => v % 2 + popCount n (v / 2)

/-- The block holds the native marker pattern, with at most 4 of its 128 bits in error (05 R167). -/
def isMarker (b : BitVec 257) : Bool :=
  decide (popCount 128 (nfld b.toNat 120 128 ^^^ 0x9A4E3B71C52D86F065B1C48E3AD2790F) ≤ 4)

/-! The marker search (05 R167, R168) -/

/-- The marker pattern seen at a bit position: the new search, and whether it is taken as a marker in lock. -/
def Search.seen (w : Search) (period p : Nat) : Search × Bool :=
  if w.lock then (if p = w.pos + period then ({ w with pos := p, misses := 0 }, true) else (w, false))
  else
    match w.cands.find? fun c => c.1 + period == p with
    | some c =>
      if 1 ≤ c.2 then (⟨true, p, 0, [], 0⟩, true)
      else ({ w with cands := w.cands.map fun x => if x = c then (p, c.2 + 1) else x }, false)
    | none =>
      (if w.resume ≤ p ∧ w.cands.length < 8 then { w with cands := w.cands ++ [(p, 0)] } else w, false)

/-- An expected position that passes without the pattern: a candidate dropped, the search going on at the bit after it; in lock a
miss, the third in a row losing it. -/
def Search.missed (w : Search) (period p : Nat) : Search :=
  if w.lock then
    if p ≠ w.pos + period then w
    else if 3 ≤ w.misses + 1 then { Search.reset with resume := p + 1 }
    else { w with pos := p, misses := w.misses + 1 }
  else
    match w.cands.find? fun c => c.1 + period == p with
    | some c => { w with cands := w.cands.filter (fun x => x != c), resume := c.1 + 1 }
    | none => w

end Sys2Proof.Machine
end

