-- ==== Sys2Proof/Machine/TableOps.lean ====
section
/-! DEFINITION. Shared operations on the forwarding tables (chapter 08): lookups, key alignment, placement and moves, entry
images, the shadow. -/

namespace Sys2Proof.Machine

/-! Keys (08 R271) -/

/-- The concatenation of containers, the first most significant (07 R230). -/
def concatContainers (cs : List (BitVec 32)) : Nat := cs.foldl (fun a c => a * 2 ^ 32 + c.toNat) 0

/-- Concatenated containers aligned to a key width at the most significant end of a field (08 R271). -/
def alignKey (field keyBits : Nat) (cs : List (BitVec 32)) : Nat :=
  let n := 32 * cs.length
  let v := concatContainers cs
  (if keyBits ≤ n then v / 2 ^ (n - keyBits) else v * 2 ^ (keyBits - n)) * 2 ^ (field - keyBits)

/-- A key field has no 1 below its key width (08 R272). -/
def keyFits (field keyBits v : Nat) : Bool := decide (v % 2 ^ (field - keyBits) = 0)

/-! Parity (08 R309, R310) -/

/-- The key of a location of a memory among those under repair. -/
def badKey (mem loc : Nat) : Nat := mem * 2 ^ 23 + loc

/-- The location reads as empty: all four quadrant copies have a parity error (08 R310). -/
def unreadable (s : State) (mem loc : Nat) : Bool := fld (SMap.get (fun _ => (0 : BitVec 5)) s.tbl.bad (badKey mem loc)) 0 4 == 15

/-- Locations `a` to `a + n - 1` of a memory written: their copies agree and their parity is good. -/
def mend (b : SMap (BitVec 5)) (mem a n : Nat) : SMap (BitVec 5) :=
  b.filter fun kv => !(decide (badKey mem a ≤ kv.1) && decide (kv.1 < badKey mem a + n))

/-! Exact match -/

def getEm (s : State) (l : Nat) : Option EmCell := SMap.get (fun _ => none) s.tbl.em l
def setEm (s : State) (l : Nat) (c : Option EmCell) : State :=
  s.updTbl fun x => { x with em := SMap.put (fun _ => none) x.em l c, bad := mend x.bad 0 l 1 }

/-- A location's hit bits, which carry no parity, changed. -/
def hitEm (s : State) (l : Nat) (hits : BitVec 4) : State :=
  s.updTbl fun x => { x with em := SMap.upd (fun _ => none) x.em l fun c => c.map fun e => { e with hits := hits } }

/-- The candidate bucket of a key in way `w` (08 R279). -/
def emBucket (w table : Nat) (key : BitVec 128) : Nat :=
  fld (crc32c (BitVec.ofNat 8 w :: BitVec.ofNat 8 table :: bytesBE 16 key.toNat)) 0 17

/-- The 16 candidate locations of a key, lowest way and then lowest cell first (08 R279, R281). (Log entry 53.) -/
def emCandidates (table : Nat) (key : BitVec 128) : List Nat :=
  [0, 1, 2, 3].flatMap fun w =>
    let b := emBucket w table key
    [0, 1, 2, 3].map fun c => w * 524288 + b * 4 + c

/-- The copy of a key that version `v` sees, and its location (08 R280). -/
def emFind (s : State) (table v : Nat) (key : BitVec 128) : Option (Nat × EmCell) :=
  (emCandidates table key).findSome? fun l =>
    match getEm s l with
    | some c => if c.table == table && c.key == key && sees v c.from_ c.to_ then some (l, c) else none
    | none => none

/-- The copy of a key that a lookup of version `v` finds, and its location (08 R280, R310). -/
def emLookup (s : State) (table v : Nat) (key : BitVec 128) : Option (Nat × EmCell) :=
  match emFind s table v key with
  | some x => if unreadable s 0 x.1 then none else some x
  | none => none

/-- A path of exactly `n` moves from candidates `cs` to a free cell: the cells it passes, the new key's first (08 R281).
(Log entry 53.) -/
def emPath (em : SMap (Option EmCell)) : Nat → List Nat → List Nat → Option (List Nat)
  | 0, cs, used =>
    (cs.find? fun l => !used.contains l && (SMap.get (fun _ => none) em l).isNone).map fun l => [l]
  | n + 1, cs, used =>
    cs.findSome? fun l =>
      if used.contains l then none else
      match SMap.get (fun _ => none) em l with
      | some c => (emPath em n (emCandidates c.table c.key) (l :: used)).map fun p => l :: p
      | none => none

/-- The path an insert takes, with the fewest moves of at most 3; none when the table is full for the key. (Log entry 52.) -/
def emPlace (s : State) (table : Nat) (key : BitVec 128) : Option (List Nat) :=
  [0, 1, 2, 3].findSome? fun n => emPath s.tbl.em n (emCandidates table key) []

/-- The moves of a path, from its free end back towards the new key (08 R283); a move keeps the entry's hits (R284).
(Log entry 52.) -/
def emMove : List Nat → State → State
  | a :: b :: rest, s =>
    let t := emMove (b :: rest) s
    setEm (setEm t b (getEm t a)) a none
  | _, s => s

/-- Locations that hold a copy of a table (08 R270). -/
def emCount (s : State) (table : Nat) : Nat :=
  (s.tbl.em.filter fun kv => (kv.2.map fun c => c.table) == some table).length

/-- A memory is locked by a dump (08 R313): 0 exact match, 1 LPM, 2 ACL, 3 action data. -/
def memLocked (s : State) (mem : Nat) : Bool := s.tbl.dumps.any fun d => d.lock && d.mem == mem

/-! LPM (08 R295 to R298) -/

/-- The entries of a family in priority order. -/
def lpmList (s : State) (six : Bool) : List LpmEnt := if six then s.tbl.lpm6 else s.tbl.lpm4
/-- The first unit of entry `i` of a family, and the units it takes. -/
def lpmUnit (six : Bool) (i : Nat) : Nat := if six then (262143 - i) * 4 else i
def lpmUnits (six : Bool) : Nat := if six then 4 else 1

/-- The entries in which two lists of a family differ. -/
def lpmChanged (old l : List LpmEnt) : List Nat := (List.range (max old.length l.length)).filter fun i => old[i]? != l[i]?

/-- A family's list replaced. -/
def setLpm (s : State) (six : Bool) (l : List LpmEnt) : State :=
  let bad := (lpmChanged (lpmList s six) l).foldl (fun b i => mend b 1 (lpmUnit six i) (lpmUnits six)) s.tbl.bad
  s.updTbl fun x => if six then { x with lpm6 := l, bad := bad } else { x with lpm4 := l, bad := bad }

/-- A prefix matches a key in its first `len` bits. -/
def prefixMatches (e : LpmEnt) (key : BitVec 128) : Bool := (e.pfx >>> (128 - e.len)) == (key >>> (128 - e.len))

/-- The first entry of a family that a lookup returns (08 R295, R310). -/
def lpmFind (s : State) (table v : Nat) (six : Bool) (key : BitVec 128) : Option LpmEnt :=
  ((lpmList s six).zipIdx.find? fun x =>
    x.1.valid && x.1.table == table && sees v x.1.from_ x.1.to_ && prefixMatches x.1 key &&
      !unreadable s 1 (lpmUnit six x.2)).map fun x => x.1

/-- A band's entries moved from its end to its front, or from its front to its end, when the hole passes it. -/
def bandOut (b : List LpmEnt) : List LpmEnt := match b with | e :: es => es ++ [e] | [] => []
def bandBack (b : List LpmEnt) : List LpmEnt := match b.getLast? with | some e => e :: b.dropLast | none => []

/-- Prefix lengths from `n - 1` down to 0. -/
def lengthsBelow (n : Nat) : List Nat := (List.range n).reverse

/-- The band of a length. -/
def band (l : List LpmEnt) (n : Nat) : List LpmEnt := l.filter fun e => e.len == n

/-- The list with an entry put at the end of its band, each shorter band's first entry moved past its last (08 R297).
(Log entry 52.) -/
def lpmPut (l : List LpmEnt) (e : LpmEnt) : List LpmEnt :=
  (l.filter fun x => decide (e.len ≤ x.len)) ++ [e] ++ (lengthsBelow e.len).flatMap fun n => bandOut (band l n)

/-- The list with the entry at index `i` removed: its band's last entry fills its place, and each shorter band's last entry
moves to its front (08 R297). -/
def lpmRemove (l : List LpmEnt) (i : Nat) : List LpmEnt :=
  match l[i]? with
  | none => l
  | some e =>
    let before := (l.take i).filter fun x => x.len == e.len
    let after := (l.drop (i + 1)).filter fun x => x.len == e.len
    (l.filter fun x => decide (e.len < x.len)) ++ before ++ bandBack after ++
      (lengthsBelow e.len).flatMap fun n => bandBack (band l n)

/-- M: the non-empty bands of the family shorter than `len` (08 R298). (Log entry 52.) -/
def lpmMoves (l : List LpmEnt) (len : Nat) : Nat := ((lengthsBelow len).filter fun n => !(band l n).isEmpty).length

/-- The entry at index `i` is not the last of its band, so a delete moves that one too (08 R297). -/
def lpmInBand (l : List LpmEnt) (i : Nat) : Bool :=
  match l[i]? with
  | some e => (l.drop (i + 1)).any fun x => x.len == e.len
  | none => false

/-- The gap holds one more entry (08 R297): one unit for IPv4, one whole row for IPv6. (Log entry 53.) -/
def lpmRoom (s : State) (six : Bool) : Bool :=
  let rows := 262144 - s.tbl.lpm6.length
  if six then decide ((s.tbl.lpm4.length + 3) / 4 < rows) else decide (s.tbl.lpm4.length < 4 * rows)

/-- The units that hold copies of a table (08 R270). (Log entry 53.) -/
def lpmCount (s : State) (table : Nat) (six : Bool) : Nat :=
  ((lpmList s six).filter fun e => e.valid && e.table == table).length * (if six then 4 else 1)

/-! ACL and action data -/

def getAcl (s : State) (r : Nat) : Option AclRow := SMap.get (fun _ => none) s.tbl.acl r
def setAcl (s : State) (r : Nat) (a : Option AclRow) : State :=
  s.updTbl fun x => { x with acl := SMap.put (fun _ => none) x.acl r a, bad := mend x.bad 2 r 1 }
def getAct (s : State) (w : Nat) : Option ActWord := SMap.get (fun _ => none) s.tbl.act w
def setAct (s : State) (w : Nat) (a : Option ActWord) : State :=
  s.updTbl fun x => { x with act := SMap.put (fun _ => none) x.act w a, bad := mend x.bad 3 w 1 }

/-- The row an ACL lookup returns (08 R299, R310): the lowest one; bits below the key width are never compared (R300). -/
def aclFind (s : State) (table v keyBits : Nat) (key : BitVec 640) : Option AclRow :=
  (s.tbl.acl.find? fun kv =>
    match kv.2 with
    | some r =>
      r.table == table && sees v r.from_ r.to_ && (((key ^^^ r.key) &&& r.mask) >>> (640 - keyBits) == 0) &&
        !unreadable s 2 kv.1
    | none => false).bind fun kv => kv.2

/-- Rows that hold copies of a table. -/
def aclCount (s : State) (table : Nat) : Nat :=
  (s.tbl.acl.filter fun kv => (kv.2.map fun r => r.table) == some table).length

/-- The physical word of an action index that version `v` sees (08 R303). -/
def actFind (s : State) (index v : Nat) : Option (Nat × ActWord) :=
  [2 * index, 2 * index + 1].findSome? fun l =>
    match getAct s l with
    | some w => if sees v w.from_ w.to_ then some (l, w) else none
    | none => none

/-- The action word a lookup reads (08 R303, R310); reset content is zero (Table 8-10). -/
def actWord (s : State) (index v : Nat) : BitVec 64 :=
  match actFind s index v with
  | some x => if unreadable s 3 x.1 then 0 else x.2.word
  | none => 0

/-! Elements (08 Table 8-10) -/

def emElement (c : EmCell) : BitVec 128 :=
  if c.learned then 0 else
  elementHash 0x01 (bytesBE 1 c.table ++ bytesBE 16 c.key.toNat ++ bytesBE 8 c.ad.toNat)
def lpmElement (e : LpmEnt) : BitVec 128 :=
  elementHash 0x02 (bytesBE 1 e.table ++ bytesBE 1 e.len ++ bytesBE 16 e.pfx.toNat ++ bytesBE 3 e.action)
def aclElement (row : Nat) (r : AclRow) : BitVec 128 :=
  elementHash 0x03 (bytesBE 2 row ++ bytesBE 1 r.table ++ bytesBE 80 r.key.toNat ++ bytesBE 80 r.mask.toNat ++
    bytesBE 3 r.action)
def actElement (index : Nat) (w : BitVec 64) : BitVec 128 :=
  if w = 0 then 0 else elementHash 0x04 (bytesBE 3 index ++ bytesBE 8 w.toNat)

/-! Entry images (08 R305, Table 8-8) -/

/-- CHECK over an image's bits above it, in memory order (log entry 9). -/
def withCheck (n v : Nat) : Nat := v / 2 ^ 32 * 2 ^ 32 + (crc32c ((bytesLE n v).drop 4)).toNat

/-- OPEN, FROM and TO of a copy. -/
def openBit (to_ : Option Nat) : Nat := b2n to_.isNone
def toNum (to_ : Option Nat) : Nat := match to_ with | some t => verNum t | none => 0

/-- The image of an exact-match location; HIT is the OR of the quadrants, 0 in the shadow. -/
def emImage (c : Option EmCell) (shadow : Bool) : Nat :=
  withCheck 64 (match c with
    | none => 0
    | some c =>
      packN [(384, 128, c.key.toNat), (320, 64, c.ad.toNat), (316, 4, c.table), (315, 1, 1), (314, 1, b2n c.learned),
        (313, 1, b2n (!shadow && c.hits != 0)), (312, 1, openBit c.to_), (296, 16, if c.learned then 0 else verNum c.from_),
        (280, 16, toNum c.to_)])

/-- The image of an LPM entry's unit. -/
def lpmImage (e : Option LpmEnt) : Nat :=
  withCheck 32 (match e with
    | some e =>
      if e.valid then
        packN [(128, 128, e.pfx.toNat), (120, 8, e.len), (117, 3, e.table), (116, 1, 1), (115, 1, openBit e.to_),
          (94, 21, e.action), (78, 16, verNum e.from_), (62, 16, toNum e.to_)]
      else 0
    | none => 0)

/-- The image of an ACL row. -/
def aclImage (r : Option AclRow) : Nat :=
  withCheck 192 (match r with
    | none => 0
    | some r =>
      packN [(896, 640, r.key.toNat), (256, 640, r.mask.toNat), (252, 4, r.table), (251, 1, 1), (250, 1, openBit r.to_),
        (229, 21, r.action), (213, 16, verNum r.from_), (197, 16, toNum r.to_)])

/-- The image of a physical action word. -/
def actImage (w : Option ActWord) : Nat :=
  withCheck 32 (match w with
    | none => 0
    | some w =>
      packN [(192, 64, w.word.toNat), (191, 1, 1), (190, 1, openBit w.to_), (174, 16, verNum w.from_),
        (158, 16, toNum w.to_)])

/-- The LPM entry whose first unit is `u`: IPv4 from unit 0 up, IPv6 from the top row down. -/
def lpmAt (s : State) (u : Nat) : Option LpmEnt :=
  if u < s.tbl.lpm4.length then s.tbl.lpm4[u]?
  else if u % 4 = 0 then s.tbl.lpm6[262143 - u / 4]? else none

/-- The image size of a memory, its number of locations, its offset in the shadow (08 Table 8-8, R307). -/
def imageSize (mem : Nat) : Nat := if mem = 0 then 64 else if mem = 2 then 192 else 32
def memLocations (mem : Nat) : Nat :=
  if mem = 0 then 2097152 else if mem = 1 then 1048576 else if mem = 2 then 65536 else 4194304
def shadowOffset (mem : Nat) : Nat :=
  if mem = 0 then 0 else if mem = 1 then 0x08000000 else if mem = 2 then 0x0A000000 else 0x0AC00000

/-- The image of a location of a memory. -/
def imageOf (s : State) (mem loc : Nat) (shadow : Bool) : Nat :=
  match mem with
  | 0 => emImage (getEm s loc) shadow
  | 1 => lpmImage (lpmAt s loc)
  | 2 => aclImage (getAcl s loc)
  | _ => actImage (getAct s loc)

/-- The bytes of a location's image. -/
def imageBytes (s : State) (mem loc : Nat) (shadow : Bool) : List Byte :=
  bytesLE (imageSize mem) (imageOf s mem loc shadow)

/-- The master of the shadow's port. -/
def shadowMaster (s : State) : Master := if s.tbl.shadowPort = 0 then .h0 else .h1

/-- A location written through to a valid shadow (08 R307). (Log entry 55.) -/
def writeThrough (s : State) (mem loc : Nat) : State :=
  if s.tbl.shadow = .valid then
    s.emit (.dma (shadowMaster s) (s.tbl.shadowAddr + shadowOffset mem + loc * imageSize mem) (imageBytes s mem loc true))
  else s

/-- Several locations written through. -/
def writeThroughAll (s : State) (mem : Nat) (locs : List Nat) : State := locs.foldl (fun t l => writeThrough t mem l) s

/-- A family's list replaced, every changed location written through. -/
def setLpmThrough (s : State) (six : Bool) (l : List LpmEnt) : State :=
  writeThroughAll (setLpm s six l) 1 ((lpmChanged (lpmList s six) l).map (lpmUnit six))

/-- An exact-match location, an ACL row, an action word written with its write-through. -/
def emStore (s : State) (l : Nat) (c : Option EmCell) : State := writeThrough (setEm s l c) 0 l
def aclStore (s : State) (r : Nat) (a : Option AclRow) : State := writeThrough (setAcl s r a) 2 r
def actStore (s : State) (l : Nat) (w : Option ActWord) : State := writeThrough (setAct s l w) 3 l

/-! The staged version's part in a change -/

/-- The staged version sees a copy. (Log entry 43.) -/
def stagedSees (s : State) (from_ : Nat) (to_ : Option Nat) : Bool :=
  match stagedSeq s with | some g => sees g from_ to_ | none => false

/-- TO of a copy that a direct insert creates: a staged version that has its own copy keeps it (07 R239).
(Log entries 43 and 51.) -/
def directTo (s : State) (own : Bool) : Option Nat := if own then stagedSeq s else none

/-! The staged version's end -/

/-- The locations of a sparse memory whose interval the discard of version `v` changes. -/
def reopened {α : Type} (m : SMap (Option α)) (v : Nat) (iv : α → Nat × Option Nat) : List Nat :=
  (m.filter fun kv =>
    match kv.2 with
    | some c => decide (discardTo v (iv c).1 (iv c).2 ≠ (iv c).2)
    | none => false).map fun kv => kv.1

/-- An LPM entry's interval after the discard of version `v`. -/
def reopenLpm (v : Nat) (l : List LpmEnt) : List LpmEnt := l.map fun c => { c with to_ := discardTo v c.from_ c.to_ }

/-- The staged version's slot freed and everything it wrote undone (07 R246, 08 R276), written through to the shadow (R307). -/
def dropStage (s : State) : State :=
  match stagedSeq s with
  | none => s
  | some v =>
    let t := s.updVer fun x =>
      { x with slots := x.slots.map fun w => if w.state = 1 then VSlot.free else w, stagedFp := 0,
               parser := dropStaged x.parser v, profile := dropStaged x.profile v, stages := dropStaged x.stages v,
               defs := dropStaged x.defs v }
    let t := t.updTbl fun x =>
      { x with em := x.em.map fun kv => (kv.1, kv.2.map fun c => { c with to_ := discardTo v c.from_ c.to_ }),
               acl := x.acl.map fun kv => (kv.1, kv.2.map fun c => { c with to_ := discardTo v c.from_ c.to_ }),
               act := x.act.map fun kv => (kv.1, kv.2.map fun c => { c with to_ := discardTo v c.from_ c.to_ }) }
    let t := writeThroughAll t 0 (reopened s.tbl.em v fun c => (c.from_, c.to_))
    let t := writeThroughAll t 2 (reopened s.tbl.acl v fun c => (c.from_, c.to_))
    let t := writeThroughAll t 3 (reopened s.tbl.act v fun c => (c.from_, c.to_))
    setLpmThrough (setLpmThrough t false (reopenLpm v t.tbl.lpm4)) true (reopenLpm v t.tbl.lpm6)

end Sys2Proof.Machine
end

