-- ==== Sys2Proof/Machine/Discard.lean ====
section
/-! DEFINITION. What a cold start, PROBE, HALT and DORMANT throw away: the stored packets and those on their way
(09 R345), the staged version (07 R246), and the settings and counters that a cold start restores. -/

namespace Sys2Proof.Machine

/-! What a cold start, PROBE, HALT and DORMANT throw away -/

/-- The reorder buckets of a slice (07 R248). -/
def getBucket (s : State) (slice b : Nat) : Bucket := SMap.get (fun _ => Bucket.reset) s.lat.buckets (4096 * slice + b)
def updBucket (s : State) (slice b : Nat) (f : Bucket → Bucket) : State :=
  s.updLat fun x => { x with buckets := SMap.upd (fun _ => Bucket.reset) x.buckets (4096 * slice + b) f }

/-- A dealt packet's sequence number is still outstanding. -/
def outstanding (s : State) (slice : Nat) (d : Dealt) : Bool :=
  (getBucket s slice d.bucket).out.any fun o => o.seq == d.seq

/-- The packets past step 3 that hold no billet: on their way to or from the lathes, or waiting for step 6;
one that R249 has skipped has its shaving. -/
def loosePackets (s : State) : List Pkt :=
  let live := fun (slice : Nat) (d : Dealt) => if outstanding s slice d then [d.pkt] else []
  let fromItem := fun (slice : Nat) (i : LItem) => match i with | .packet d => live slice d | .marker => []
  let slices := s.lat.slices.flatMap fun kv => kv.2.arrivals ++ kv.2.admission
  let lathes := s.lat.lathes.flatMap fun kv =>
    kv.2.queue.flatMap (fromItem (kv.1 / 6)) ++ (match kv.2.cur with | some r => live (kv.1 / 6) r.dealt | none => [])
  let waiting := s.lat.buckets.flatMap fun kv => kv.2.out.filterMap fun o => o.result
  let moving := s.coll.ctxs.flatMap fun kv => match kv.2.move with | some m => m.held | none => []
  slices ++ lathes ++ waiting ++ s.fwd.toStore.map (fun w => w.pkt) ++ s.fwd.markersIn ++ s.fwd.ptpIn ++ moving

/-- Every packet past step 3 whose shaving is not final gets it now (01 R24), as a drop without a cause. (Log entry 29.) -/
def finaliseAll (s : State) : State :=
  let stored := s.buf.stored.map fun kv => kv.1
  let t := stored.foldl (fun t id => finaliseStored t id (Finish.dropped 0)) s
  (loosePackets s).foldl (fun t p => finalise t p none 0 (Finish.dropped 0)) t

/-- The buffer without its packets; leaked billets and those whose release went astray stay allocated (09 R336, R345). -/
def emptyBuffer (b : BufSt) : BufSt :=
  { b with recs := b.recs.filter (fun kv => kv.2.leaked || kv.2.orphan),
           busy := b.busy.filter (fun kv =>
             let r := SMap.get (fun _ => Billet.reset) b.recs kv.1
             r.leaked || r.orphan),
           stored := [], low := [], ovfBytes := 0,
           queues := b.queues.map fun kv => (kv.1, { kv.2 with die := [], dram := [], spilling := false, resv := 0 }) }

/-- A lathe without its packets; drain markers stay. -/
def emptyLathe (l : Lathe) : Lathe := { l with queue := l.queue.filter (fun i => i == .marker), cur := none }

/-- A context without what it holds (13 R457). -/
def emptyCtx (x : Ctx) : Ctx :=
  { x with chunks := [], complete := [], kept := [], arrived := [], requested := false, relWait := false,
           relHdr := none, upSent := false, oldHome := none, move := x.move.map fun m => { m with held := [] } }

/-- An order running under an opcode completes and is dropped. -/
def endOrder (s : State) (opcode : Nat) (o : Order) (status data : Nat) : State :=
  match s.host.running.find? fun r => r.opcode.toNat == opcode && r.order == o with
  | some r => complete (s.updHost fun h => { h with running := h.running.erase r }) o status data
  | none => s

/-- Status and DATA of a SEQ_GROUP_SET that disabled a group, from its T_s (12 R418, Tables 12-5, 12-6). -/
def seqDone (x : SeqGroup) (o : Order) : Nat × Nat :=
  let ts := match x.cfgs with | c :: _ => c.1 | [] => 0
  let moved := match o.data with
    | .bytes bs => decide (leNat (slice bs 0 1) / 2 % 2 = 1) && decide (dtCount (leNat (slice bs 12 12)) < ts)
    | _ => false
  (if moved then 0x0C01 else stSuccess, fld (dtWord ts) 16 32)

/-- A disabled group whose last packet is gone: its set completes, with GROUP_DRAINED (12 R418, Table 12-12). -/
def endDrain (fan : Bool) (s : State) (e : Nat × Order × Nat × Nat) : State :=
  postAll (endOrder s (if fan then 0x4C02 else 0x4C01) e.2.1 e.2.2.1 e.2.2.2) 0x0C05 0
    (packN [(0, 1, b2n fan), (1, 6, e.1)])

/-- The groups of chapter 12 without their packets (12 R419). (Log entry 29.) -/
def emptyGroups (s : State) : State :=
  let seqs := s.grp.seqs.filterMap fun kv => kv.2.drain.map fun o => (kv.1, o, seqDone kv.2 o)
  let fans := s.grp.fans.filterMap fun kv => kv.2.drain.map fun o => (kv.1, o, stSuccess, 0)
  let t := s.updGrp fun g =>
    { g with seqs := g.seqs.map (fun kv => (kv.1, { kv.2 with held := [], queued := 0, drain := none })),
             fans := g.fans.map (fun kv => (kv.1, { kv.2 with pkts := [], drain := none })) }
  fans.foldl (endDrain true) (seqs.foldl (endDrain false) t)

/-- The packets of every step gone, without a shaving. -/
def clearPackets (s : State) : State :=
  let t := s.updFwd fun w =>
    { w with accepted := [], toStore := [], markersIn := [], ptpIn := [], hostCopies := [], deferred := [],
             ctxs := w.ctxs.map (fun c => { c with held := [] }), drains := [],
             groups := w.groups.map fun kv => (kv.1, { kv.2 with markers := 0 }) }
  let t := t.updLat fun x =>
    { x with slices := x.slices.map (fun kv =>
               (kv.1, { kv.2 with arrivals := [], admission := [], results := 0, lateResults := 0 })),
             lathes := x.lathes.map (fun kv => (kv.1, emptyLathe kv.2)),
             buckets := x.buckets.map fun kv => (kv.1, { kv.2 with out := [] }) }
  let t := t.updBuf emptyBuffer
  let t := t.updEgr fun e =>
    { e with ports := e.ports.map fun kv => (kv.1, { kv.2 with tx := none }),
             queues := e.queues.map fun kv => (kv.1, { kv.2 with deficit := 0, w := 0, wFrom := none }) }
  let t := t.updColl fun c =>
    { c with ctxs := c.ctxs.map (fun kv => (kv.1, emptyCtx kv.2)),
             units := c.units.map fun kv => (kv.1, { kv.2 with input := [] }) }
  let t := t.updTel fun q => { q with cap := { q.cap with waiting := [] } }
  emptyGroups (t.updVer fun x => { x with slots := x.slots.map fun v => { v with inFlight := 0 } })

/-- Every packet held in the buffer discarded (03 Table 3-7 step 1, R97, R120; 09 R345), with the groups' occupancies
released; a frame in transmission is cut. (Log entry 29.) -/
def discardPackets (s : State) : State :=
  let t := clearPackets (finaliseAll s)
  t.buf.pgs.foldl (fun u kv => if kv.2.occ = 0 then u else pgRelease u kv.1 kv.2.occ) t

/-- The staged, uncommitted rule version discarded and a pending commit cancelled, which completes with START_ABORTED
(03 Table 3-7 step 1; 07 R246). (Log entry 29.) -/
def discardStaged (s : State) : State :=
  let t :=
    if s.ver.pend.isSome then
      let t := s.updVer fun x => { x with pend := none }
      match t.host.running.find? fun r => r.opcode.toNat == 0x4705 with
      | some r => endOrder t 0x4705 r.order 0x8302 0
      | none => t
    else s
  dropStage t

/-- An order whose work is lost when the data plane loses its power: scans, calibrations, sparings, dumps,
flushes, fills, drains, loads, tests, trims, moves, snapshots. (Log entry 29.) -/
def dataPlaneOrder (r : Running) : Bool :=
  [0x0403, 0x4403, 0x4404, 0x4405, 0x0804, 0x480A, 0x4809, 0x4708, 0x470A, 0x4A01, 0x4A05, 0x4A06, 0x4A08, 0x4C03,
    0x4C04, 0x4D02, 0x5102, 0x5103, 0x4F0C, 0x0F03, 0x0F04, 0x4F03].contains r.opcode.toNat

/-- An order that a cold start does not end: a read of the log, a drain to a cut. -/
def survivesStart (r : Running) : Bool := [0x0603, 0x8202, 0x8204].contains r.opcode.toNat

/-- The running and awaiting orders for which `p` holds end with WRONG_MODE, the mode they need being gone.
(Log entry 29.) -/
def endOrders (s : State) (p : Running → Bool) : State :=
  let os := (s.host.running ++ s.host.awaiting).filter p
  let t := s.updHost fun h =>
    { h with running := h.running.filter (fun r => !p r), awaiting := h.awaiting.filter fun r => !p r }
  os.foldl (fun t r => complete t r.order stWrongMode 0) t

/-! What a cold start restores -/

/-- The sizes of the capture region and of the overflow region in MiB, fixed at a cold start (09 R342). (Log entry 63.) -/
def regionMib (slots capMib : Nat) : Nat × Nat :=
  let cap := min capMib ((32768 * 1024 - slots * 260 - 1024 * 1024) / 1024)
  (cap, (32768 * 1024 - slots * 260 - cap * 1024) / 1024)

/-- An engine after a cold start: its settings at their resets; what it measures of its laser input, and its latches, stay
(04 R123, R146). (Log entry 28.) -/
def coldEngine (g : Engine) : Engine :=
  { Engine.reset with power := g.power, temp := g.temp, samples := g.samples, warn := g.warn, lowLatch := g.lowLatch,
                      highLatch := g.highLatch, clearSince := g.clearSince }

/-- A lathe's settings and counters after a cold start; its stores and its isolation wait for steps 5 and 7.
(Log entry 28.) -/
def coldLathe (l : Lathe) : Lathe :=
  { Lathe.reset with iso := l.iso, regs := l.regs, badRegs := l.badRegs, mem := l.mem, badMem := l.badMem,
                     validA := l.validA, validB := l.validB, digestA := l.digestA, digestB := l.digestB, flips := l.flips }

/-- Phases and power settings after a cold start (16 R513, R534). -/
def coldPower (p : PwrSt) : PwrSt :=
  { p with phases := [], phase := 0, pend := none, oppTarget := 0, oppMoving := decide (p.opp ≠ 0), prerampEn := true,
           thermStepPct := 5, ibiEn := true, thermW := Phase.reset.capW, requests := [], ballastDw := 0, throttleUs := 0 }

/-- Step 1 of a cold start on the settings and counters of the data plane: ports, crosspoint, monitoring, versions, buffer,
scheduling, groups, contexts, arbiters, telemetry, phases (04 R122, R123; 05 R172, R185, R187; 07 R238, R257; 09 R324, R336,
R342; 11 R392; 12 R419; 13 R457; 14 R471; 15 R495; 16 R513). (Log entry 28.) -/
def coldReset (s : State) : State :=
  let slots := s.log.slotsInForce
  let size := regionMib slots s.buf.capMib
  let t := s.updOpt fun o =>
    { o with lanes := [], ports := [], xps := [], engines := o.engines.map (fun kv => (kv.1, coldEngine kv.2)), step5 := false }
  let t := t.updPcs fun p => { p with sets := [], ports := [] }
  let t := t.updTb fun b => { b with ptp := [], ptpRun := [], ptpOut := [], ltt := [] }
  let t := t.updVer fun _ => VerSt.reset
  let t := t.updLat fun l => { l with slices := [], buckets := [], lathes := l.lathes.map fun kv => (kv.1, coldLathe kv.2) }
  let t := t.updFwd fun w => { FwdSt.reset with nextId := w.nextId }
  let t := t.updBuf fun b => { BufSt.reset with capMib := b.capMib, capForce := size.1, ovfForce := size.2 }
  let t := t.updEgr fun _ => EgrSt.reset
  let t := t.updGrp fun _ => GrpSt.reset
  let t := t.updColl fun _ => CollSt.reset
  let t := t.updArb fun _ => ArbSt.reset
  (t.updTel fun _ => TelSt.reset).updPwr coldPower

end Sys2Proof.Machine
end

