-- ==== Sys2Proof/Machine/Start.lean ====
section
/-! DEFINITION. Starts: their beginning, their abort, the acceptance of START orders (03 R98, R109 to R115), entry to
HALT (16 R531), and the completion of orders that were running. -/

namespace Sys2Proof.Machine

/-- The completion DATA of a START (03 Table 3-9). -/
def startData (s : State) : Nat :=
  packN [(0, 4, s.mode.last.cause), (4, 1, b2n s.mode.last.warm), (5, 4, s.mode.last.failedStep),
    (16, 16, s.mode.last.detail), (32, 32, (s.tb.now - s.mode.startAt) / 1000)]

/-- Orders completed in turn with one status and DATA. -/
def completeAll (s : State) (os : List Order) (status data : Nat) : State :=
  os.foldl (fun t o => complete t o status data) s

/-! Laser enables (04 R148) -/

/-- The modes in which the sources may be enabled. -/
def lasersOn (s : State) : Bool :=
  !s.mode.haltEntry && (match s.mode.mode with
    | .service | .coast | .probe => true
    | .prepare => s.opt.step5
    | _ => false)

/-- ELS_EN_N[1:0] as R148 has them: `elsEn` bit g is 1 while the pin is driven low. -/
def refreshEls (s : State) : State :=
  s.updPin fun p => { p with elsEn := if lasersOn s then ~~~s.opt.forceOff else 0 }

/-- The device in another mode: the laser enables and the tray follow; learning stops outside SERVICE and COAST, with its queued
requests discarded (08 R293). -/
def setMode (s : State) (m : Mode) : State :=
  let t := if m = .probe ∨ m = .halt then partBins s else s
  let t := if m = .service ∨ m = .coast then t else t.updTbl fun x => { x with learnQ := [] }
  noteTray s (refreshEls (t.updMode fun d => { d with mode := m }))

/-- Step 1 of a start (03 Table 3-7, R104; 06 R214, R217, R218): the cause, the mode, READY cleared, the staged version
discarded; a cold start also stops forwarding, discards held packets and clears the committed configuration, closes the
evidence block and, on leaving DORMANT, opens a new epoch's log. (Log entry 28.) -/
def beginStart (s : State) (warm : Bool) (cause : Nat) (req : Option Order) : State :=
  let t := (setMode s (if warm then .coast else .prepare)).updMode fun m =>
    { m with ready := false, active := true, warm := warm, step := 1,
             laneDone := false, last := ⟨cause, warm, 0, 0, 0⟩, startAt := s.tb.now, req := req, joined := [],
             restore := none, ramp := false, haltEntry := false, fromDormant := cause == 1 }
  let t := discardStaged t
  if warm then logNow t 0x07 0 (packN [(319, 1, 1), (315, 4, cause)]) else
  let t := discardPackets (endOrders t fun r => !survivesStart r)
  let t := if cause = 1
    then logNow t 0x01 0 (packN [(288, 32, t.log.epoch.toNat), (224, 64, Config.serial.toNat)])
    else closeBlock t 4
  let t := t.updLog fun l => { l with slotsInForce := l.slots, blocks := l.blocks.drop (l.blocks.length - l.slots) }
  let t := logNow t 0x07 0 (packN [(315, 4, cause)])
  let t := divergeEnd t 0 0
  let t := t.updFp fun p => { p with committedValid := false, committed := 0, activeVersion := 0 }
  refreshEls (coldReset t)

/-- The running start aborted by a trigger of higher precedence (03 R98, R112): its START, those that joined it, and a
pending cold START with those waiting for it complete with START_ABORTED. (Log entry 26.) -/
def abortStart (s : State) (detail : Nat) : State :=
  if s.mode.active then
    let t := s.updMode fun m => { m with last := { m.last with result := 3, failedStep := 0, detail := detail } }
    let t := completeAll t (s.mode.req.toList ++ s.mode.joined) 0x8302 (startData t)
    let t := completeAll t (s.mode.pendCold.toList ++ s.mode.pendJoined) 0x8302 (packN [(0, 4, 3), (16, 16, detail)])
    t.updMode fun m =>
      { m with active := false, step := 0, req := none, joined := [], pendCold := none, pendJoined := [] }
  else
    match s.mode.restore with
    | none => s
    | some o =>
      let t := s.updMode fun m => { m with last := ⟨if o.b 0 then 5 else 3, false, 3, 0, detail⟩ }
      let t := completeAll t (o :: s.mode.joined) 0x8302 (startData t)
      t.updMode fun m => { m with restore := none, joined := [] }

/-- A HALT cause is accepted outside DORMANT (03 R92, R98; 16 R531 steps 2 to 4). -/
def enterHalt (s : State) : State := haltBegin (abortStart s 2)

/-- A START once it is accepted (03 R109 to R114): its mode test and its committed-configuration test, then what it
joins, what it makes pending, or the start it begins. (Log entry 26.) -/
def acceptStart (o : Order) (s : State) : State :=
  let warm := o.b 0
  let busy := s.mode.active || s.mode.pendCold.isSome || s.mode.restore.isSome
  let coldMode := s.mode.mode != .dormant
  let modeOkFor := busy || (if warm
    then s.mode.mode == .service || (s.mode.mode == .prepare && s.mode.warmFailPrepare) || (s.mode.forceCold && coldMode)
    else coldMode)
  let runsCold := !warm || s.mode.forceCold
  let f := setForm 0x4301 [0x03] 0 [(0, 1)] modesAll false
  let k := if s.mode.haltEntry && !warm then some 0x8305
    else if busy then none
    else if s.mode.mode == .halt && haltCause s then some 0x8305
    else if warm && !s.mode.forceCold && (!s.fp.committedValid || s.fp.diverged) then some 0x8303
    else none
  let st :=
    if !headForm f o then some stMalformed
    else if notOwner .mutating s o then some stNotOwner
    else if o.ownGen != s.own.gen then some stStale
    else if s.mode.haltEntry && warm then some stWrongMode
    else if !s.mode.haltEntry && !modeOkFor then some stWrongMode
    else k
  match st with
  | some c => complete s o c 0
  | none =>
    if s.mode.pendCold.isSome then s.updMode fun m => { m with pendJoined := m.pendJoined ++ [o] }
    else if s.mode.active && s.mode.warm && !warm then s.updMode fun m => { m with pendCold := some o }
    else if busy then s.updMode fun m => { m with joined := m.joined ++ [o] }
    else if runsCold then
      if s.mode.mode == .halt then s.updMode fun m => { m with restore := some o, startAt := s.tb.now }
      else beginStart s false (if warm then 5 else 3) (some o)
    else beginStart s true 4 (some o)

/-- What a START meets that needs no wait: its form, its poster and its generation (02 R68). -/
def startFail (o : Order) (s : State) : Option Nat :=
  if !headForm (setForm 0x4301 [0x03] 0 [(0, 1)] modesAll false) o then some stMalformed
  else if notOwner .mutating s o then some stNotOwner
  else if o.ownGen != s.own.gen then some stStale
  else none

/-- A mutating order other than a START that the master posted is still running (03 R109). -/
def mutatingRuns (s : State) (m : Master) : Bool :=
  (s.host.running ++ s.host.awaiting).any fun r => r.order.master == m && clsOf r.opcode.toNat == .mutating

/-- START orders of a master that are accepted and not complete. -/
def startRuns (s : State) (m : Master) : Bool :=
  (s.mode.req.toList ++ s.mode.joined ++ s.mode.pendCold.toList ++ s.mode.pendJoined ++ s.mode.restore.toList).any
    fun o => o.master == m

/-- The waiting STARTs accepted once no other mutating order of the owner runs (03 R109). -/
def retryStarts (s : State) : State :=
  match s.own.owner with
  | none =>
    let w := s.mode.waiting
    w.foldl (fun t o => acceptStart o t) (s.updMode fun m => { m with waiting := [] })
  | some m =>
    if mutatingRuns s m then s else
    let w := s.mode.waiting
    w.foldl (fun t o => acceptStart o t) (s.updMode fun m => { m with waiting := [] })

/-- The first running order of an opcode for which `p` holds. -/
def findRunning (s : State) (opcode : Nat) (p : Order → Bool) : Option Running :=
  s.host.running.find? fun r => r.opcode.toNat == opcode && p r.order

/-- A running order taken off the list. -/
def dropRunning (s : State) (r : Running) : State :=
  s.updHost fun h => { h with running := h.running.erase r }

/-- A running order completes: with a result written first, or with a status and DATA; then waiting STARTs are looked at
again. -/
def finishOrder (s : State) (r : Running) (status data : Nat) : State :=
  retryStarts (complete (dropRunning s r) r.order status data)

/-- A running read order completes with its result, or with DMA_ERROR when that cannot be written (02 R64, R68). -/
def finishResult (s : State) (r : Running) (bytes : List Byte) (data : Nat) : State :=
  if resultFits r.order bytes.length then
    retryStarts (complete (memWrite (dropRunning s r) r.order.master r.order.resultAddr.toNat bytes) r.order stSuccess
      data)
  else finishOrder s r stDmaError 0

/-! The shadow's loss (08 R308) -/

/-- The master of the shadow's port is `m`, and the shadow is in use. -/
def shadowOn (s : State) (m : Master) : Bool :=
  (s.tbl.shadow == .valid || s.tbl.shadow == .filling) && shadowMaster s == m

/-- The shadow becomes invalid, with SHADOW_FAULT (08 R308). (Log entry 55.) -/
def shadowLost (s : State) (cause : Nat) : State :=
  let t := postAll (s.updTbl fun x => { x with shadow := .invalid }) 0x0804 0 cause
  match findRunning t 0x4809 fun _ => true with
  | some r => finishOrder t r stDmaError 0
  | none => t

/-- A host port reset or no longer attached takes its shadow with it (08 R308). -/
def shadowPortLost (s : State) (m : Master) : State := if shadowOn s m && !attached s m then shadowLost s 2 else s

end Sys2Proof.Machine
end

