-- ==== Sys2Proof/Machine/LaneOps.lean ====
section
/-! DEFINITION. Shared operations on lanes, ports, engines and link monitoring (chapters 04 and 05). -/

namespace Sys2Proof.Machine

def getLane (s : State) (p : Nat) : Lane := SMap.get Lane.reset s.opt.lanes p
def updLane (s : State) (p : Nat) (f : Lane → Lane) : State :=
  s.updOpt fun x => { x with lanes := SMap.upd Lane.reset x.lanes p f }
def getPort (s : State) (n : Nat) : Option PortCfg := SMap.get (fun _ => none) s.opt.ports n
def setPort (s : State) (n : Nat) (c : Option PortCfg) : State :=
  s.updOpt fun x => { x with ports := SMap.put (fun _ => none) x.ports n c }
def getEng (s : State) (n : Nat) : Engine := SMap.get (fun _ => Engine.reset) s.opt.engines n
def updEng (s : State) (n : Nat) (f : Engine → Engine) : State :=
  s.updOpt fun x => { x with engines := SMap.upd (fun _ => Engine.reset) x.engines n f }
def getXp (s : State) (p : Nat) : Option Xp := SMap.get (fun _ => none) s.opt.xps p
def setXp (s : State) (p : Nat) (x : Option Xp) : State :=
  s.updOpt fun o => { o with xps := SMap.put (fun _ => none) o.xps p x }
def getPcs (s : State) (n : Nat) : PcsPort := SMap.get (fun _ => PcsPort.reset) s.pcs.ports n
def updPcsPort (s : State) (n : Nat) (f : PcsPort → PcsPort) : State :=
  s.updPcs fun x => { x with ports := SMap.upd (fun _ => PcsPort.reset) x.ports n f }
def getPcsSet (s : State) (n : Nat) : PcsSet := SMap.get (fun _ => PcsSet.reset) s.pcs.sets n
def getLtt (s : State) (n : Nat) : Ltt := SMap.get (fun _ => Ltt.reset) s.tb.ltt n
def updLtt (s : State) (n : Nat) (f : Ltt → Ltt) : State :=
  s.updTb fun b => { b with ltt := SMap.upd (fun _ => Ltt.reset) b.ltt n f }

/-- A port exists. -/
def portExists (s : State) (n : Nat) : Bool := (getPort s n).isSome

/-- A native port (04 R126). -/
def isNative (s : State) (n : Nat) : Bool := match getPort s n with | some c => c.rate == 2 | none => false

/-- The lanes of a port's width code (04 Table 4-16). -/
def lanesOf (c : PortCfg) : Nat := 2 ^ c.width

/-- The port's lane payload rate in Mb/s: 100, 200 or 400 Gb/s a lane (01 Table 1-4). -/
def portMbps (c : PortCfg) : Nat := lanesOf c * (if c.rate = 0 then 100000 else if c.rate = 1 then 200000 else 400000)

/-- The physical lane that carries logical lane `ll` (04 R122). -/
def plOf (s : State) (ll : Nat) : Nat :=
  match (List.range 17).find? fun i => (getLane s (ll / 16 * 17 + i)).ll == some ll with
  | some i => ll / 16 * 17 + i
  | none => ll / 16 * 17 + ll % 16

/-- Port `n` of width code `w` covers logical lane `ll` (04 R124). -/
def covers (n w ll : Nat) : Bool := decide (n ≤ ll) && decide (ll < n + 2 ^ w)

/-- The port whose extent holds logical lane `ll`. -/
def portOfLL (s : State) (ll : Nat) : Option Nat :=
  ([0, 1, 2, 3].map fun w => ll - ll % 2 ^ w).find? fun n =>
    match getPort s n with | some c => covers n c.width ll | none => false

/-- The port that a physical lane serves. -/
def portOfPL (s : State) (p : Nat) : Option Nat := match (getLane s p).ll with | some ll => portOfLL s ll | none => none

/-- The physical lanes of a port, position 0 first. -/
def portPLs (s : State) (n : Nat) : List Nat :=
  match getPort s n with | some c => (List.range (lanesOf c)).map fun i => plOf s (n + i) | none => []

/-- The ports that exist, in ascending number. -/
def portList (s : State) : List Nat := (s.opt.ports.filter fun kv => kv.2.isSome).map fun kv => kv.1

/-- A lane's place in its port's extent. -/
def posOf (s : State) (n p : Nat) : Nat := (getLane s p).ll.getD n - n

/-- The spare lane of an engine (04 R121). -/
def sparePL (e : Nat) : Nat := 17 * e + 16

/-- The lane that a handshake brings into service: the spare, or in a reversion the replaced lane (04 R142, R143). -/
def newLane (e : Nat) (h : Handshake) : Nat := if h.revert then h.pl else sparePL e

/-- The lane that a handshake takes out of service. -/
def oldLane (e : Nat) (h : Handshake) : Nat := if h.revert then sparePL e else h.pl

/-- The lane that receives a lane's position: the one a sparing has changed over to, from the far end's SWITCH on
(04 Table 4-10 step 5). -/
def rxLane (s : State) (p : Nat) : Nat :=
  match (getEng s (p / 17)).hs with
  | some h => if h.taken && oldLane (p / 17) h == p then newLane (p / 17) h else p
  | none => p

/-- The lanes that receive a port, position 0 first. -/
def rxPLs (s : State) (n : Nat) : List Nat := (portPLs s n).map (rxLane s)

/-- The lanes that transmit a lane's data: itself, and during a sparing the lane that comes into service (04 R142). -/
def txLanes (s : State) (p : Nat) : List Nat :=
  match (getEng s (p / 17)).hs with
  | some h => if oldLane (p / 17) h = p then [p, newLane (p / 17) h] else [p]
  | none => [p]

/-! The transmit chain of a native port (05 R163 to R165) -/

/-- A codeword of lane position `k` sent as PAM4 symbols on a lane (04 R127). -/
def sendSymbols (v : Nat) (s : State) (q : Nat) : State :=
  let l := getLane s q
  let r := pamSymbols l.gray l.preTx (codewordBits / 2) v l.preY.toNat
  (updLane s q fun l => { l with preY := BitVec.ofNat 2 r.2 }).emit (.codeword q r.1)

/-- A codeword of a lane position sent on the lanes that carry it. -/
def sendCodeword (n : Nat) (s : State) (x : Nat × Nat) : State :=
  (txLanes s ((portPLs s n).getD x.1 (plOf s (n + x.1)))).foldl (sendSymbols x.2) s

/-- The chain of a native port worked, and the codewords that leave it sent. -/
def lineWork (s : State) (n : Nat) (f : Nat → Line → Line × List (Nat × Nat)) : State :=
  match getPort s n with
  | some c =>
    if c.rate ≠ 2 then s else
    let r := f (lanesOf c) (getPcs s n).line
    r.2.foldl (sendCodeword n) (updPcsPort s n fun p => { p with line := r.1 })
  | none => s

/-- A block of 66 bits into the chain. -/
def lineBlock (s : State) (n : Nat) (b : BitVec 66) : State := lineWork s n fun w l => takeBlock w (l, []) b

/-! Raw conditions and fault signalling (05 R174 to R178) -/

/-- Raw condition `b` of a port present. -/
def rawOn (p : PcsPort) (b : Nat) : Bool := (p.raw.getD b Raw.reset).since.isSome

/-- Raw condition `b` begun or ended at an instant; the spans that a window of 2 s may still reach are kept (05 Table 5-4). -/
def rawTo (now : Nat) (on : Bool) (r : Raw) : Raw :=
  match r.since, on with
  | none, true => { r with since := some now }
  | some t, false =>
    { since := none, spans := (t, now) :: r.spans.filter (fun x => decide (now < x.2 + 2000000000)), ended := now }
  | _, _ => r

def setRawAt (s : State) (n b : Nat) (on : Bool) (at_ : Nat) : State :=
  updPcsPort s n fun p => { p with raw := p.raw.modify b (rawTo at_ on) }

def setRaw (s : State) (n b : Nat) (on : Bool) : State := setRawAt s n b on s.tb.now

/-- A receive-side local-fault source of R176 is present. (Log entry 36.) -/
def rxFault (s : State) (n : Nat) : Bool :=
  let p := getPcs s n
  rawOn p 0 || rawOn p 1 || rawOn p 2 || (rawOn p 3 && (getPcsSet s n).hiserFault)

/-- Any local-fault source of R176 is present: those and the two of the transmit path. -/
def anyFault (s : State) (n : Nat) : Bool :=
  rxFault s n || (portPLs s n).any (fun p => (getLane s p).squelch) || (getEng s (n / 16)).lowLatch

/-- The port starts no frame: it sends remote fault, or receives it (05 R177, R178). (Log entry 36.) -/
def linkFault (s : State) (n : Nat) : Bool := (getPcs s n).sendRf || (getPcs s n).recvRf

/-- The frame under way on a port ended with an error control character (05 R179). -/
def cutTx (s : State) (n : Nat) : State :=
  match (SMap.get (fun _ => PortSched.reset) s.egr.ports n).tx with
  | some x =>
    if x.bad || decide (x.startNs * 1000 + x.wirePs ≤ s.tb.now * 1000) then s else
    let t := s.updEgr fun e => { e with ports := SMap.upd (fun _ => PortSched.reset) e.ports n fun p =>
      { p with tx := some { x with bad := true, wirePs := (s.tb.now - x.startNs) * 1000 } } }
    (lineBlock t n errorBlock).emit (.frameError n)
  | none => s

/-- The port sends remote fault ordered sets in place of frames and idles (05 R177). (Log entry 36.) -/
def sendRemoteFault (s : State) (n : Nat) : State :=
  if (getPcs s n).sendRf then s else
  let t := updPcsPort (cutTx s n) n fun p => { p with sendRf := true }
  (lineBlock t n remoteFaultBlock).emit (.remoteFault n true)

/-- LF's raw condition brought up to date (05 Table 5-4 bit 4), and remote fault sent while a receive-side source is present
(R177). (Log entry 36.) -/
def refreshLf (s : State) (n : Nat) : State :=
  let t := setRaw s n 4 (anyFault s n)
  if rxFault t n then sendRemoteFault t n else t

/-- Every port of an engine. -/
def enginePorts (s : State) (e : Nat) : List Nat := (portList s).filter fun n => n / 16 == e

/-- The average received power of a lane lies below a level (05 Table 5-4 bit 0). -/
def dark (level : Int) (l : Lane) : Bool := match l.power with | some x => decide (x < level) | none => true

/-- LOS, LOL and LOAM brought up to date from the lanes that receive the port (05 Table 5-4), with the span for which every lane
holds marker lock (R171), LSIP's condition, which needs it, and LF. -/
def refreshLoam (s : State) (n : Nat) : State :=
  let ls := (rxPLs s n).map (getLane s)
  let loam := ls.any fun l => !l.marker
  let t := setRaw (setRaw s n 0 (ls.any (dark (getPcsSet s n).losLevel))) n 1 (ls.any fun l => !l.cdr)
  let t := setRaw t n 2 loam
  let t := if loam then setRaw t n 6 false else t
  let t := updPcsPort t n fun p =>
    match p.lockSince, loam with
    | none, false => { p with lockSince := some s.tb.now }
    | some a, true => { p with lockSince := none, lastLock := some (a, s.tb.now), lsipFor := none }
    | _, _ => p
  refreshLf t n

/-- The port whose receiver a lane serves, if it serves one. -/
def rxPortOf (s : State) (p : Nat) : Option Nat :=
  match portOfPL s p with
  | some n => some n
  | none =>
    match (getEng s (p / 17)).hs with
    | some h => if h.taken && newLane (p / 17) h == p then (getEng s (p / 17)).sparePort else none
    | none => none

/-- The port of a lane brought up to date. -/
def refreshLane (s : State) (p : Nat) : State := match rxPortOf s p with | some n => refreshLoam s n | none => s

/-! Receivers -/

/-- Scans of a lane that leaves its receive role or loses lock: their later points have VALID 0 (04 R136). -/
def spoilScans (s : State) (p : Nat) : State :=
  if (getEng s (p / 17)).scans.any (fun x => x.pl == p) then
    updEng s (p / 17) fun g => { g with scans := g.scans.map fun y => if y.pl == p then { y with valid := false } else y }
  else s

/-- A receiver without lock: no CDR lock, no marker lock, its search started again; LOCK_HELD falls with marker lock
(05 R170). -/
def unlockLane (now : Nat) (l : Lane) : Lane :=
  { l with cdr := false, cdrAt := if l.cdr then now else l.cdrAt, marker := false, lost := l.lost || l.marker,
           search := l.search.map fun _ => Search.reset }

/-- The CDR of a lane loses lock (05 Table 5-4 bit 1). -/
def loseCdr (s : State) (p : Nat) : State := refreshLane (updLane (spoilScans s p) p (unlockLane s.tb.now)) p

/-- The CDR of a lane gains lock. -/
def gainCdr (s : State) (p : Nat) : State :=
  if (getLane s p).cdr then s else
  refreshLane (updLane s p fun l => { l with cdr := true, cdrAt := s.tb.now }) p

/-- A lane's receiver leaves its role: no lock, no role's settings (04 R123). -/
def freeLane (now : Nat) (l : Lane) : Lane :=
  { unlockLane now l with role := 0, state := 0, rate := 3, squelch := false, search := [] }

/-- LOCK_HELD (04 Table 4-4): marker lock held since the record was written. (Log entry 32.) -/
def lockHeld (l : Lane) : Bool := l.calValid && l.marker && !l.lost

/-- The STATE of a lane whose receiver is ready, by its role (04 Table 4-4). -/
def readyState (l : Lane) : Nat :=
  match l.role with
  | 0 => 0
  | 2 => if l.ll.isSome then 7 else if l.state = 6 then 6 else 3
  | 5 => 8
  | 6 => 5
  | _ => 4

/-- The sets of C5 for a rate put to use (04 R156). -/
def applySet (rate : Nat) (l : Lane) : Lane :=
  let x := l.sets.getD rate ⟨0, Config.laneSeed rate⟩
  { l with rate := rate, lost := l.lost || l.rate != rate, tx := x.tx, ctle := BitVec.ofNat 8 (fld x.taps 0 8), dfe := BitVec.ofNat 8 (fld x.taps 8 8),
           ffe := BitVec.ofNat 128 (fld x.taps 16 128) }

/-! Sparing (04 R139 to R144) -/

/-- A sparing message (04 Table 4-9). -/
def spareMsg (type pos seq cause : Nat) : BitVec 32 :=
  BitVec.ofNat 32 (packN [(28, 4, type), (25, 3, pos), (8, 8, seq), (0, 8, cause)])

/-- A link idle structure (05 Table 5-3). -/
def idleStruct (s : State) (n slot : Nat) (fp : Bool) : Nat :=
  let g := getEng s (n / 16)
  let msg := if g.sparePort == some n then g.msgOut.toNat else 0
  let v := packN [(1016, 8, 0x53), (1008, 8, (getPcs s n).seq.toNat), (976, 32, msg), (720, 256, slot),
    (592, 128, s.fp.committed.toNat), (576, 16, s.fp.activeVersion.toNat), (575, 1, b2n fp),
    (574, 1, b2n s.fp.committedValid), (573, 1, b2n s.fp.diverged)]
  v + (crc32c (bytesBE 124 (v / 2 ^ 32))).toNat

/-- A structure sent on every lane of a native port, counted by SEQ: after a marker, or at the next codeword boundary (05 R165). -/
def sendIdle (s : State) (n slot : Nat) (fp after : Bool) : State :=
  let v := idleStruct s n slot fp
  let t := lineWork (updPcsPort s n fun p => { p with seq := p.seq + 1 }) n fun w l => lineStruct w l v after
  t.emit (.idle n v)

/-- The sparing message of an engine changed, and sent (04 R141, 05 R165). -/
def setSpareMsg (s : State) (e : Nat) (m : BitVec 32) : State :=
  if (getEng s e).msgOut = m then s else
  let t := updEng s e fun g => { g with msgOut := m }
  match (getEng t e).sparePort with
  | some n => if isNative t n then sendIdle t n 0 false false else t
  | none => t

/-- The spare can serve: SPARE_PORT names a native port of the engine (04 R139). -/
def spareConfigured (s : State) (e : Nat) : Bool :=
  match (getEng s e).sparePort with | some n => isNative s n && n / 16 == e | none => false

/-- The engine's spare state once no handshake runs (04 Table 4-15): active while a lane is spared, else as its lane stands. -/
def restState (s : State) (e : Nat) : Nat :=
  if (getEng s e).spared.isSome then 4
  else if !spareConfigured s e then 0
  else match (getLane s (sparePL e)).state with | 5 => 5 | 6 => 2 | _ => 1

/-- The SPARE or UNSPARE order that waits for engine `e`'s handshake. -/
def spareOrder (s : State) (e : Nat) (revert : Bool) : Option Running :=
  if revert then findRunning s 0x4405 fun o => o.inst == e
  else findRunning s 0x4404 fun o => o.inst / 17 == e

/-- A handshake ended without a switch: mirroring stops, nothing more is sent (04 R142). -/
def dropSpare (s : State) (e : Nat) : State :=
  let t := updEng s e fun g => { g with hs := none }
  setSpareMsg (updEng t e fun g => { g with spareState := restState t e }) e 0

/-- A handshake abandoned (04 R142, R144), with SPARE_ABANDONED and SPARE_REFUSED for the order that waits. -/
def abandonSpare (s : State) (e cause : Nat) : State :=
  match (getEng s e).hs with
  | none => s
  | some h =>
    let t := postAll (dropSpare s e) 0x0403 0 (packN [(0, 10, h.pl), (16, 4, cause)])
    if h.order then
      match spareOrder t e h.revert with
      | some r => finishOrder t r 0x8405 0
      | none => t
    else t

/-- A path change on a port's lane position 0 (06 R205, R207). -/
def pathChange (s : State) (n : Nat) : State :=
  updLtt s n fun l => { l with pathAt := some s.tb.now, pathToSend := true }

/-- The same for the port that a lane serves, where the lane stands at position 0. -/
def pathChanged (s : State) (p : Nat) : State :=
  match portOfPL s p with
  | some n => if (getLane s p).ll == some n then pathChange s n else s
  | none => s

/-- The switch made (04 R143, Table 4-10 step 6): the lane that came into service carries the logical lane; the replaced lane is
failed and sends PRBS31Q, or, after a reversion, the spare returns to standby. SPARE_SWITCHED is posted and the order that
waits completes. -/
def completeSpare (s : State) (e : Nat) (h : Handshake) : State :=
  let new := newLane e h
  let old := oldLane e h
  let ll := (getLane s old).ll
  let s := spoilScans s old
  let t :=
    if h.revert then
      let t := updLane s old fun l => { unlockLane s.tb.now l with ll := none, state := 6, cdr := l.cdr, pattern := 2 }
      let t := updLane t new fun l => { l with ll := ll, role := 1, state := 4, rate := 2, pattern := 0, failCause := 0 }
      updEng t e fun g => { g with spared := none, spareState := 2, hs := none, revertLockSince := none,
                                   spareLockSince := some s.tb.now }
    else
      let t := updLane s new fun l => { l with ll := ll, state := 7, pattern := 0 }
      let t := updLane t old fun l => { unlockLane s.tb.now l with ll := none, role := 6, state := 5, pattern := 2, failCause := 0 }
      updEng t e fun g => { g with spared := some h.pl, spareState := 4, hs := none, revertLockSince := none }
  let t := postAll t 0x0402 0 (packN [(0, 10, h.pl), (10, 9, ll.getD 0x1FF), (19, 1, b2n h.revert), (20, 4, h.cause)])
  let t := refreshLane (pathChanged t new) new
  if h.order then
    match spareOrder t e h.revert with
    | some r =>
      finishOrder t r (if h.merged then 0x0401 else stSuccess) (if h.revert then h.pl else sparePL e)
    | none => t
  else t

/-- What a handshake does next of itself (04 Table 4-10, R144): a request served, its lane deskewed, is answered; SWITCH is to be set
once the ACK has come and the lane is deskewed, or, in answer, once the far end's has come; both switched, it is complete, and
the end that asked sends DONE. -/
def advanceSpare (s : State) (e : Nat) : State :=
  match (getEng s e).hs with
  | none => s
  | some h =>
    let ack := h.peer.isSome && h.deskewed && !h.sentAck
    let go := h.sw == 0 && ((h.requester && h.acked && h.deskewed) || (h.peer.isSome && h.taken))
    let h := { h with sentAck := h.sentAck || ack, sw := if go then 1 else h.sw }
    let t := updEng s e fun g => { g with hs := some h }
    let t := if ack then setSpareMsg t e (spareMsg 2 h.pos (h.peer.getD 0) 0) else t
    if h.requester && h.sw == 2 && h.taken then
      setSpareMsg (completeSpare t e h) e (spareMsg 5 h.pos h.seq 0)
    else t

/-- A handshake begun by this end (04 R142): the lane mirrored, and REQ, or REVERT_REQ, sent. -/
def beginSpare (s : State) (e pl pos cause : Nat) (order revert : Bool) : State :=
  let seq := ((getEng s e).seqOut + 1) % 256
  let h : Handshake :=
    { requester := true, peer := none, revert := revert, pos := pos, pl := pl, seq := seq, cause := cause, order := order,
      merged := false, deskewed := false, acked := false, sentAck := false, sw := 0, taken := false, began := s.tb.now }
  setSpareMsg (updEng s e fun g => { g with seqOut := seq, spareState := 3, hs := some h }) e
    (spareMsg (if revert then 4 else 1) pos seq 0)

/-- The spare can be used for a lane of its port (04 R139, R140): standby, no handshake, nothing spared. -/
def spareReady (s : State) (e pl : Nat) : Bool :=
  let g := getEng s e
  g.spareState == 2 && g.hs.isNone && g.spared.isNone &&
    (match g.sparePort with | some n => isNative s n && portOfPL s pl == some n | none => false)

/-- The spare brought in line with SPARE_PORT and the port it names (04 R139): training for a native port of its engine, which
it keeps once begun; a spare that failed its calibration stays failed. DESIGN CHOICE (log entry 95): SPARE_PORT may name no
such port, and the spare then waits in its role, not configured. -/
def trainSpare (s : State) (e : Nat) : State :=
  let ok := spareConfigured s e
  let conf := (getEng s e).sparePort.isSome
  let l := getLane s (sparePL e)
  if l.role == 6 || (getEng s e).spared.isSome then updEng s e fun g => { g with spareState := restState s e }
  else if ok && l.role == 2 && l.pattern == 2 then s
  else
    let t := updLane (spoilScans s (sparePL e)) (sparePL e) fun l =>
      if ok then { applySet 2 (unlockLane s.tb.now l) with role := 2, state := if l.signal then 3 else 2, pattern := 2, preTx := true,
                                                           preRx := true, gray := true, search := [Search.reset] }
      else if conf then { freeLane s.tb.now l with role := 2, rate := 2, pattern := 0 }
      else if l.role = 2 then { freeLane s.tb.now l with pattern := 0 } else l
    updEng t e fun g => { g with spareState := if ok then 1 else 0, spareLockSince := none }

/-! Calibration -/

/-- A lane fails its calibration (04 R129): role and state failed, LANE_FAILED posted; a spare's state is failed too. -/
def failLane (s : State) (p cause : Nat) : State :=
  let t := updLane (spoilScans s p) p fun l => { unlockLane s.tb.now l with state := 5, role := 6, failCause := cause }
  let t := if p % 17 = 16 ∧ (getLane s p).role = 2 then updEng t (p / 17) fun g => { g with spareState := 5 } else t
  refreshLane (postAll t 0x0401 0 (packN [(0, 10, p), (10, 6, cause)])) p

/-- The CRC-16 of a lane's coefficient record (04 Table 4-3). (Log entry 93.) -/
def calCheck (rate : Nat) (tx : BitVec 32) (ctle dfe : BitVec 8) (ffe : BitVec 128) : BitVec 16 :=
  BitVec.ofNat 16 (crcMsb 16 0x1021 0xFFFF
    (Config.coeffRecord rate tx (BitVec.ofNat 144 (packN [(0, 8, ctle.toNat), (8, 8, dfe.toNat), (16, 128, ffe.toNat)]))))

/-- The coefficient record of C7 written (04 Table 4-3): taps, check code, temperature, DT. (Log entries 31, 32, 93.) -/
def writeCal (now : Nat) (c : LaneCal) (l : Lane) : Lane :=
  { l with calValid := true, lost := false, calCheck := calCheck l.rate l.tx c.ctle c.dfe c.ffe, calTemp := c.temp,
           calDt := now, ctle := c.ctle, dfe := c.dfe, ffe := c.ffe, failCause := 0 }

/-- Steps C1 to C5 done on a lane (04 R129): a set for each lane rate the ordering code enables. -/
def writeSets (c : LaneCal) (l : Lane) : Lane :=
  { l with sets := (if Config.codeS then [0, 1] else [0, 1, 2]).map fun r => ⟨c.tx, Config.laneSeed r⟩ }

end Sys2Proof.Machine
end

