-- ==== Sys2Proof/Machine/EgrOps.lean ====
section
/-! DEFINITION. Shared operations on egress (chapter 11): wire time, gates, shapers, frames on a port, PFC frames. -/

namespace Sys2Proof.Machine

def getSched (s : State) (n : Nat) : PortSched := SMap.get (fun _ => PortSched.reset) s.egr.ports n
def updSched (s : State) (n : Nat) (f : PortSched → PortSched) : State :=
  s.updEgr fun e => { e with ports := SMap.upd (fun _ => PortSched.reset) e.ports n f }
def getEsc (s : State) (n : Nat) : EscSt := SMap.get (fun _ => EscSt.reset) s.egr.esc n
def getOper (s : State) (n : Nat) : Option Gcl := SMap.get (fun _ => none) s.egr.oper n
def getPend (s : State) (n : Nat) : Option Gcl := SMap.get (fun _ => none) s.egr.pend n

/-- The wire time of a frame in ps (11 R384): 20 bytes beside its transmitted length, at the port's speed. -/
def wirePs (s : State) (n len : Nat) : Nat :=
  match getPort s n with
  | some c => (len + 20) * 8 * 1000000 / portMbps c
  | none => 0

/-- Picoseconds as DT units, rounded up. -/
def psUnits (ps : Nat) : Nat := (ps * 65536 + 999) / 1000

/-! Gates (11 R387 to R391) -/

/-- The list that gates a port: a DISABLE list leaves every gate open. -/
def gating_ (s : State) (n : Nat) : Option Gcl :=
  match getOper s n with | some g => if g.disable then none else some g | none => none

/-- The entries of a cycle of `left` DT units from index `i` on, each with its units: the last one persists, and nothing
runs beyond the cycle. -/
def segments : Nat → Nat → List GclEntry → List (Nat × GclEntry × Nat)
  | _, _, [] => []
  | i, left, [e] => if left = 0 then [] else [(i, e, left)]
  | i, left, e :: es =>
    let u := min left (e.ns * dtNs)
    if left = 0 then [] else (i, e, u) :: segments (i + 1) (left - u) es

/-- The segments of a list's cycle. -/
def cycleOf (g : Gcl) : List (Nat × GclEntry × Nat) := segments 0 (g.cycleNs * dtNs) g.entries

/-- The place of a DT in a list's cycle (11 R388). -/
def cyclePos (g : Gcl) (dt : Nat) : Nat := (((dt : Int) - g.takeover) % ((g.cycleNs * dtNs : Nat) : Int)).toNat

/-- A cycle's segments from place `pos` on, the first one cut to what is left of it, then once round. -/
def segsFrom : Nat → List (Nat × GclEntry × Nat) → List (Nat × GclEntry × Nat) → List (Nat × GclEntry × Nat)
  | _, [], done => done
  | pos, (i, e, u) :: xs, done =>
    if u ≤ pos then segsFrom (pos - u) xs (done ++ [(i, e, u)])
    else ((i, e, u - pos) :: xs) ++ done ++ [(i, e, pos)]

def segsAt (g : Gcl) (dt : Nat) : List (Nat × GclEntry × Nat) := segsFrom (cyclePos g dt) (cycleOf g) []

/-- The entry in force at a DT. -/
def entryAt (g : Gcl) (dt : Nat) : Option (Nat × GclEntry) := ((segsAt g dt).head?).map fun x => (x.1, x.2.1)

/-- The units from now for which `p` holds of the entries without a break; none: for ever. -/
def runLen (p : GclEntry → Bool) (l : List (Nat × GclEntry × Nat)) : Option Nat :=
  if l.all fun x => p x.2.1 || x.2.2 == 0 then none
  else some (((l.takeWhile fun x => p x.2.1 || x.2.2 == 0).map fun x => x.2.2).foldl (· + ·) 0)

/-- What starts now and takes `units` ends in time for a bound. -/
def within (units : Nat) (b : Option Nat) : Bool := match b with | some k => decide (units ≤ k) | none => true

/-- The units to a takeover already scheduled. -/
def toTakeover (s : State) (n : Nat) : Option Nat := (getPend s n).map fun g => g.takeover - s.tb.dt

/-- No frame of `units` that starts now reaches into a protected entry (11 R385, R391). -/
def clearOfProtected (s : State) (n units : Nat) : Bool :=
  let here := match gating_ s n with
    | some g => within units (runLen (fun e => !e.prot) (segsAt g s.tb.dt))
    | none => true
  let next := match getPend s n with
    | some g =>
      let k := g.takeover - s.tb.dt
      g.disable || decide (units ≤ k) ||
        within (units - k) (runLen (fun e => !e.prot) (segsAt g g.takeover))
    | none => true
  here && next

/-- The length test of a queue's head frame (11 R391). -/
def gatePasses (s : State) (n q units : Nat) : Bool :=
  match gating_ s n with
  | some g =>
    within units (runLen (fun e => bit e.gates q) (segsAt g s.tb.dt)) && within units (toTakeover s n) &&
      (match entryAt g s.tb.dt with | some e => bit e.2.gates q | none => true)
  | none => true

/-- The gates in force and whether they are a protected entry's (11 Table 11-6). -/
def gatesNow (s : State) (n : Nat) : Nat × BitVec 16 × Bool :=
  match gating_ s n with
  | some g => match entryAt g s.tb.dt with | some e => (e.1, e.2.gates, e.2.prot) | none => (0, 0xFFFF, false)
  | none => (0, 0xFFFF, false)

/-- A span lies inside one protected entry of the operating list (12 R425). -/
def inProtected (s : State) (n fromDt units : Nat) : Bool :=
  match gating_ s n with
  | some g =>
    match (segsAt g fromDt).find? fun x => x.2.2 != 0 with
    | some x => x.2.1.prot && decide (units ≤ x.2.2) && within units ((getPend s n).map fun p => p.takeover - fromDt)
    | none => false
  | none => false

/-! Shapers (11 R393 to R395) -/

def getShaper (s : State) (i : Nat) : Shaper := SMap.get (fun _ => Shaper.reset) s.egr.shapers i

/-- T at an instant, in 1/8,000 of a byte. -/
def tokensAt (x : Shaper) (now : Nat) : Int :=
  if x.enable then min ((x.burst : Int) * 8000) (x.tokens + x.rate * (now - x.since : Nat)) else x.tokens

/-- The shaper lets a frame start. -/
def shaperOpen (s : State) (i : Nat) : Bool :=
  let x := getShaper s i
  !x.enable || decide (0 ≤ tokensAt x s.tb.now)

/-- A frame of a transmitted length charged. -/
def shaperCharge (s : State) (i len : Nat) : State :=
  s.updEgr fun e =>
    { e with shapers := SMap.upd (fun _ => Shaper.reset) e.shapers i fun x =>
        if x.enable then
          { x with tokens := tokensAt x s.tb.now - 8000 * max 0 ((len : Int) + x.overhead), since := s.tb.now }
        else x }

/-! Frames on a port -/

/-- The port can start a frame: it exists, forwards (03 Table 3-1), sends none, and has no link fault (05 R177, R178). -/
def portFree (s : State) (n : Nat) : Bool :=
  portExists s n && modeOk s && !s.mode.haltEntry && (getSched s n).tx.isNone && !linkFault s n

/-- A frame begins at a DT (10 of 01 Table 1-3), through the chain of a native port (05 R163), charged to the port's transmit bandwidth. -/
def startTx (s : State) (n : Nat) (kind : TxKind) (bytes : List Byte) (dt : Nat) : State :=
  let t := updSched s n fun p => { p with tx := some ⟨kind, bytes, dt, s.tb.now, wirePs s n bytes.length, false⟩ }
  let t := lineWork t n fun w l => lineFrame w l bytes
  bwAdd (t.emit (.frame n bytes dt)) n true dt bytes.length

/-- A frame closed with its FCS (IEEE 802.3). (Log entry 46.) -/
def withFcs (bs : List Byte) : List Byte := bs ++ bytesLE 4 (crc32 bs).toNat

/-- A frame's FCS computed afresh (07 R237). (Log entry 46.) -/
def refcs (frame : List Byte) : List Byte := withFcs (frame.take (frame.length - 4))

/-- The groups a port pauses the far end for (11 R398). (Log entry 64.) -/
def txPaused (s : State) (n : Nat) : List Nat :=
  (List.range 8).filter fun g => (getPg s (8 * n + g)).paused && bit (getPfc s n).txEn g

/-- A PFC frame (11, Priority-based flow control): TX_QUANTA for the paused priorities, zero for those it ends. -/
def pfcFrame (s : State) (n : Nat) : List Byte :=
  let on := txPaused s n
  let f := getPfc s n
  let en := (List.range 8).filter fun g => on.contains g || bit f.zero g
  withFcs (padTo 60 (bytesBE 6 0x0180C2000001 ++ bytesBE 6 (Config.portMac n).toNat ++ bytesBE 2 0x8808 ++
    bytesBE 2 0x0101 ++ bytesBE 2 (sumN (en.map fun g => 2 ^ g)) ++
    (List.range 8).flatMap fun g => bytesBE 2 (if on.contains g then f.quanta else 0)))

/-- The PFC frame that a port owes sent, as its next frame (11 R385, R398). -/
def pfcTry (s : State) (n : Nat) : State :=
  let f := getPfc s n
  let on := txPaused s n
  if !f.due then s
  else if on.isEmpty && f.zero == 0 then updPfc s n fun x => { x with due := false }
  else if portFree s n && clearOfProtected s n (psUnits (wirePs s n 64)) then
    let t := startTx s n .mac (pfcFrame s n) s.tb.dt
    let t := updPfc t n fun x =>
      { x with due := false, zero := 0, sentPs := s.tb.now * 1000, txFrames := x.txFrames + 1 }
    let t := portEvent t n 22 1
    on.foldl (fun t g => portEvent t n (52 + g) 1) t
  else s

/-- Frames resume on a port that sent remote fault: it sends the current state of its pauses (11 R398). -/
def pfcResume (s : State) (n : Nat) : State :=
  pfcTry (if (txPaused s n).isEmpty then s else updPfc s n fun x => { x with due := true }) n

/-- Every port's owed PFC frame tried, after groups have changed. -/
def pfcTryAll (s : State) : State :=
  ((s.egr.pfc.filter fun kv => kv.2.due).map fun kv => kv.1).foldl pfcTry s

end Sys2Proof.Machine
end

