-- ==== Sys2Proof/Machine/GrpOps.lean ====
section
/-! DEFINITION. Shared operations on sequencer groups and fan-out groups (chapter 12): arrival, drops, the end of a drain,
slots, release records. -/

namespace Sys2Proof.Machine

/-- A running order named by the order itself completes. -/
def finishThis (s : State) (opcode : Nat) (o : Order) (status data : Nat) : State :=
  match findRunning s opcode fun x => x == o with
  | some r => finishOrder s r status data
  | none => s

def getSeq (s : State) (g : Nat) : SeqGroup := SMap.get (fun _ => SeqGroup.reset) s.grp.seqs g
def updSeq (s : State) (g : Nat) (f : SeqGroup → SeqGroup) : State :=
  s.updGrp fun x => { x with seqs := SMap.upd (fun _ => SeqGroup.reset) x.seqs g f }
def getFan (s : State) (g : Nat) : FanGroup := SMap.get (fun _ => FanGroup.reset) s.grp.fans g
def updFan (s : State) (g : Nat) (f : FanGroup → FanGroup) : State :=
  s.updGrp fun x => { x with fans := SMap.upd (fun _ => FanGroup.reset) x.fans g f }
def getTrim (s : State) (n : Nat) : Trim := SMap.get (fun _ => Trim.reset) s.grp.trims n
def updTrim (s : State) (n : Nat) (f : Trim → Trim) : State :=
  s.updGrp fun x => { x with trims := SMap.upd (fun _ => Trim.reset) x.trims n f }

/-- The settings of a sequencer group now, and those in force for an ingress DT (12 R409, R411, R418). -/
def seqNow (x : SeqGroup) : SeqCfg := match x.cfgs with | c :: _ => c.2 | [] => SeqCfg.reset
def seqAt (x : SeqGroup) (dt : Nat) : SeqCfg :=
  match x.cfgs.find? fun c => decide (c.1 ≤ dt) with | some c => c.2 | none => SeqCfg.reset

/-- A group is enabled: its settings now enable it, or it drains (12 R418, R420). -/
def seqEnabled (x : SeqGroup) : Bool := (seqNow x).enable || x.drain.isSome

/-- The group that reserves a queue as its gateway queue (12 R410). -/
def reservedBy (s : State) (q : Nat) : Option Nat :=
  (s.grp.seqs.find? fun kv =>
    let c := (kv.2.cfgs.find? fun c => c.2.enable).map fun c => c.2
    seqEnabled kv.2 && (match c with | some c => 16 * c.gateway + c.queue == q | none => false)).map fun kv => kv.1

/-- FRAME_HASH (12 R430): the first 12 bytes of the SHA-256 a TIMESTAMP record would carry. -/
def frameHash (p : Pkt) : Nat := fld (sha256 p.head) 160 96

/-- The part of a record's body that SEQ_PRESENT and SEQ_DROP share (12 Table 12-4). -/
def seqBody (p : Pkt) (rank mid : Nat) : Nat :=
  packN [(224, 96, (dtWord p.inDt).toNat), (192, 32, p.arrSeq.toNat), (128, 64, mid), (120, 8, rank), (111, 9, p.port),
    (0, 96, frameHash p)]

/-- The group holds nothing any more: a set that disabled it completes (12 R418), and what still arrives finds it disabled
(R409; log entry 69). -/
def seqDrained (s : State) (g : Nat) : State :=
  let x := getSeq s g
  match x.drain with
  | some o =>
    if x.held.isEmpty && x.queued == 0 then
      let t := updSeq s g fun y => { y with drain := none, cfgs := y.cfgs.take 1 }
      let t := finishThis t 0x4C01 o (seqDone x o).1 (seqDone x o).2
      postAll t 0x0C05 0 (packN [(1, 6, g)])
    else s
  | none => s

/-- A packet dropped on arrival at a sequencer group (12 R409, R415, R416), with its record (R431) and event (R434). -/
def seqDrop (s : State) (id g cause : Nat) (p : Pkt) (rank : Nat) : State :=
  let c := seqAt (getSeq s g) p.inDt
  let t := updSeq s g fun y => { y with drops := y.drops + 1 }
  let t := if 1 ≤ c.record then
    logOffer t 0x11 g p.late false t.tb.dt (seqBody p rank (cause * 2 ^ 56)) else t
  let t := winEvent t 0x0C02 g (packN [(0, 4, g), (8, 8, cause)]) 32 32 1
  dropRef t id p.port cause .none

/-- A copy that another path would place in a reserved gateway queue is refused (12 R410): counted among the drops of the group that
reserves it. (Log entry 69.) -/
def reservedDrop (s : State) (q : Nat) : State :=
  match reservedBy s q with
  | some g =>
    winEvent (updSeq s g fun y => { y with drops := y.drops + 1 }) 0x0C02 g (packN [(0, 4, g), (8, 8, 0xC3)]) 32 32 1
  | none => s

/-- A packet's key comes before another's (12 R411): ingress DT, rank, arrival sequence modulo 2^32. -/
def keyBefore (a b : SeqHeld) : Bool :=
  decide (a.inDt < b.inDt) || (a.inDt == b.inDt &&
    (decide (a.rank < b.rank) || (a.rank == b.rank && (a.arrSeq - b.arrSeq).msb)))

/-- A packet put among the held ones in key order, behind its equals. -/
def seqInsert (h : SeqHeld) : List SeqHeld → List SeqHeld
  | [] => [h]
  | x :: xs => if keyBefore h x then h :: x :: xs else x :: seqInsert h xs

/-- A member packet arrives at its group (12 R409, R412, R415, R416). (Log entry 69.) -/
def seqArrive (s : State) (id g : Nat) : State :=
  match getStored s id with
  | none => s
  | some x =>
    let p := x.pkt
    if 16 ≤ g then dropRef s id p.port 0xC4 .none else
    let y := getSeq s g
    let c := seqAt y p.inDt
    if !c.enable then seqDrop s id g 0xC4 p 0 else
    match c.members.find? fun m => m.1 == p.port with
    | none => seqDrop s id g 0xC2 p 0
    | some m =>
      let due := p.inDt + c.window * dtNs
      let late := decide (due < s.tb.dt)
      let p := { p with late := late }
      let t := updStored s id fun z => { z with pkt := p }
      let t := updSeq t g fun z =>
        { z with maxTransit := max z.maxTransit (min ((s.tb.dt - p.inDt) / dtNs) (2 ^ 32 - 1)),
                 late := if late then z.late + 1 else z.late }
      let t := if late then winEvent t 0x0C01 g g 32 32 1 else t
      if late && c.lateMode then seqDrop t id g 0xC0 p m.2
      else if c.hold ≤ y.held.length + y.queued then seqDrop t id g 0xC1 p m.2
      else updSeq t g fun z => { z with held := seqInsert ⟨id, p.inDt, m.2, p.arrSeq, due, late⟩ z.held }

/-! Fan-out (12 R421 to R427) -/

/-- 51.2 ns in fifths of a DT unit. -/
def gridFifths : Nat := 16777216

/-- The first slot of a group at or after `lo` (12 R423); slots fall to whole DT units. (Log entry 70.) -/
def slotFrom (x : FanGroup) (lo : Nat) : Nat :=
  let step : Int := x.period * gridFifths
  let k : Int := (5 * lo - x.base5 + step - 1) / (max step 1)
  ((x.base5 + k * step) / 5).toNat

/-- The trim of a port in DT units (12 R428): steps of 62.5 ps, 4,096 units each. -/
def trimUnits (s : State) (n : Nat) : Int := (getTrim s n).cur * 4096

/-- The instant of a copy: S plus the port's trim. -/
def copyDue (s : State) (x : FanPkt) (n : Nat) : Nat := ((x.sched : Int) + trimUnits s n).toNat

/-- The member ports of a bitmap that exist. -/
def membersOf (s : State) (m : BitVec 512) : List Nat := (portList s).filter fun n => bit m n

/-- A packet's arrival at its fan-out group (12 R421, R424). (Log entries 69 and 70.) -/
def fanArrive (s : State) (id g : Nat) : State :=
  match getStored s id with
  | none => s
  | some x =>
    let p := x.pkt
    let y := getFan s g
    if 64 ≤ g ∨ y.enable = false then dropRef s id p.port 0xC4 .none
    else if y.limit ≤ (y.pkts.filter fun k => decide (s.tb.dt < k.sched)).length then dropRef s id p.port 0xC5 .none
    else
      let ports := membersOf s y.members
      if ports.isEmpty then dropRef s id p.port 0x85 .none else
      let lo := max (max (p.inDt + y.leadNs * dtNs) (s.tb.dt + dtUs)) (match y.lastS with | some t => t + 1 | none => 0)
      let sched := slotFrom y lo
      let k : FanPkt :=
        { pkt := id, inDt := p.inDt, inPort := p.port, hash := BitVec.ofNat 96 (frameHash p), sched := sched, moved := false,
          unprot := false, standard := ports.any fun n => !isNative s n,
          copies := ports.map fun n => ⟨n, 0, false, none, false, false, 0, 0⟩ }
      updFan s g fun z => { z with lastS := some sched, pkts := z.pkts ++ [k] }

/-- Five slots of a FANOUT_COPIES body (12 Table 12-4). -/
def copiesBody (cs : List FanCopy) : Nat :=
  packN (cs.zipIdx.flatMap fun x =>
    [(64 * x.2 + 55, 9, x.1.port), (64 * x.2 + 52, 3, x.1.outcome), (64 * x.2, 48, x.1.delay)])

/-- The FANOUT_COPIES records of the copies listed, five at a time. (Log entry 70.) -/
def copiesRecords : Nat → State → Nat → Nat → Bool → List FanCopy → State
  | 0, s, _, _, _, _ => s
  | n + 1, s, g, sched, moved, cs =>
    if cs.isEmpty then s
    else copiesRecords n (logOffer s 0x19 g false moved sched (copiesBody (cs.take 5))) g sched moved (cs.drop 5)

/-- A GROUP_CONFIG record (12 Table 12-4) of a set with a payload, at a DT and effective from another. (Log entry 73.) -/
def configRecord (s : State) (fan : Bool) (g dt eff : Nat) (on : Bool) (payload : List Byte) : State :=
  logOffer s 0x12 g false false dt (packN [(224, 96, (dtWord eff).toNat), (223, 1, b2n fan), (222, 1, b2n on),
    (0, 128, fld (sha256 payload) 128 128)])

/-- A set that disabled a fan-out group completes once no copy is pending (12, Work orders), with its record and event. -/
def fanDrained (s : State) (g : Nat) : State :=
  let x := getFan s g
  match x.drain with
  | some o =>
    if x.pkts.isEmpty then
      let eff := match findRunning s 0x4C02 fun k => k == o with | some r => r.dt | none => s.tb.dt
      let t := configRecord (updFan s g fun y => { y with drain := none }) true g s.tb.dt eff false x.payload
      postAll (finishThis t 0x4C02 o stSuccess 0) 0x0C05 0 (packN [(0, 1, 1), (1, 6, g)])
    else s
  | none => s

/-- A packet whose last copy has begun or been dropped: its release counted and recorded (12 R431). -/
def fanDone (s : State) (g id : Nat) : State :=
  let x := getFan s g
  match x.pkts.find? fun k => k.pkt == id && k.copies.all fun c => c.done with
  | none => s
  | some k =>
    let listed := k.copies.filter fun c => c.outcome != 0
    let t := updFan s g fun y =>
      { y with pkts := y.pkts.filter fun j => j.pkt != id, releases := y.releases + 1 }
    let body := packN [(224, 96, (dtWord k.inDt).toNat), (160, 64, (x.releases + 1).toNat), (150, 10, k.copies.length),
      (141, 9, k.inPort), (131, 10, listed.length), (130, 1, b2n k.unprot), (129, 1, b2n k.standard), (0, 96, k.hash.toNat)]
    let unsent := k.copies.any fun c => decide (2 ≤ c.outcome)
    let t := if x.record = 2 ∨ (x.record = 1 ∧ (k.moved || k.unprot || unsent) = true) then
        copiesRecords k.copies.length (logOffer t 0x18 g false k.moved k.sched body) g k.sched k.moved listed
      else t
    fanDrained t g

/-- One copy of a pending packet changed. -/
def updCopy (s : State) (g id port : Nat) (f : FanCopy → FanCopy) : State :=
  updFan s g fun y =>
    { y with pkts := y.pkts.map fun k =>
        if k.pkt = id then { k with copies := k.copies.map fun c => if c.port = port then f c else c } else k }

/-- A fan-out copy dropped (12 R426): 2 port fault, 3 in an egress stage, 4 stale. (Log entry 70.) -/
def fanCopyDrop (s : State) (g id port outcome cause : Nat) : State :=
  let t := updCopy s g id port fun c => { c with done := true, outcome := outcome }
  let t := updFan t g fun y => { y with dropped := y.dropped + 1 }
  let t := winEvent t 0x0C04 g (packN [(0, 6, g), (8, 8, cause)]) 32 32 1
  fanDone t g id

/-- The slots that a pending packet takes after a step of DT has passed its own (12 R427). -/
def freeSlot_ (x : FanGroup) (used : List Nat) : Nat → Nat → Nat
  | 0, lo => slotFrom x lo
  | n + 1, lo => let t := slotFrom x lo; if used.contains t then freeSlot_ x used n (t + 1) else t

/-- A fan-out group after a step of DT from `old` to `new` (12 R427). -/
def fanStep (old new : Nat) (x : FanGroup) : FanGroup :=
  let d5 : Int := 5 * ((new : Int) - old)
  let m : Int := (d5 + gridFifths / 2) / gridFifths
  let delta5 := d5 - m * gridFifths
  let y := { x with base5 := x.base5 + delta5, lastS := x.lastS.map fun t => ((t : Int) + delta5 / 5).toNat }
  let pending := fun (k : FanPkt) => decide (old < k.sched)
  let moved := y.pkts.map fun k =>
    if pending k then (true, { k with sched := ((k.sched : Int) + delta5 / 5).toNat }) else (false, k)
  moved.foldl (fun (z : FanGroup) e =>
    let k := e.2
    if e.1 && decide (k.sched < new) then
      let used := (moved.map (fun j => j.2) ++ z.pkts).map fun j => j.sched
      let t := freeSlot_ z used used.length (new + dtUs)
      { z with lastS := some (max t (z.lastS.getD 0)),
               pkts := z.pkts ++ [{ k with sched := t, moved := true,
                                            copies := k.copies.map fun c => if c.done then c else { c with blocked := true } }] }
    else { z with pkts := z.pkts ++ [k] }) { y with pkts := [] }

/-- Bandwidth windows within which DT steps are not complete (15 R488). -/
def bwStep (new : Nat) (b : Bw) : Bw :=
  { b with index := new / (b.windowNs * dtNs), whole := false, rx := { b.rx with cur := 0 }, tx := { b.tx with cur := 0 } }

/-- GRID_ORIGIN (12 R422) in fifths of a DT unit: the device's own at the start, moved with the steps of DT, which leave the
transmit grid where it stands. -/
def gridOrigin5 (s : State) : Int := 5 * (Config.gridOrigin : Int) + s.tb.gridShift

/-- The phase φ of a DT given in fifths of a DT unit (12 R422). -/
def gridPhase (s : State) (dt5 : Int) : Nat := ((dt5 - gridOrigin5 s) % (gridFifths : Int)).toNat

/-- What a step of DT does to chapters 12 and 15. -/
def stepGroups (s : State) (old new : Nat) : State :=
  let s := s.updTb fun b =>
    { b with gridShift := (((b.gridShift : Int) + 5 * ((new : Int) - old)) % (gridFifths : Int)).toNat }
  let t := s.updGrp fun x => { x with fans := x.fans.map fun kv => (kv.1, fanStep old new kv.2) }
  (portList s).foldl (fun t n => t.updTel fun q =>
    { q with bws := SMap.upd (fun _ => Bw.reset) q.bws n (bwStep new) }) t

end Sys2Proof.Machine
end

