-- ==== Sys2Proof/Machine/Arbiters.lean ====
section
/-! DEFINITION. The commands of chapter 14 (Table 14-4). -/

namespace Sys2Proof.Machine

/-- Settings in the ENTRY_j layout with SET zero (14 Table 14-6). -/
def entriesWord (l : List ArbEntry) : Nat :=
  packN ((l.take 7).zipIdx.flatMap fun e => [(16 * e.2, 3, e.1.prio), (16 * e.2 + 3, 5, e.1.burst)])

/-- The READ_ARB result (14 Table 14-6). -/
def arbWord (s : State) (a : Arb) : Nat :=
  packN [(0, 112, entriesWord a.live), (112, 13, a.liveStarve), (128, 112, entriesWord a.shadow), (240, 13, a.shadowStarve),
    (253, 1, b2n (a.live != a.shadow || a.liveStarve != a.shadowStarve)), (254, 1, b2n s.arb.pend.isSome),
    (256, 32, a.maxWait), (288, 4, a.maxReq), (320, 64, a.starves.toNat)]

/-- The instance bits of an arbiter's kind (14 R472). -/
def arbMask (kind : Nat) : Nat := if kind = 0xE1 then 0xF else if kind = 0xE2 then 0x1FF else 0x7

/-- 14 R472: READ_ARB. (Log entry 78.) -/
def execReadArb (o : Order) (s : State) : Host.Outcome State Fault Refusal :=
  .next (runOrder (readForm 0x0E01 [0xE1, 0xE2, 0xE3] (arbMask o.kind) [] 64 modesOn) o s {} fun t =>
    (t, .result (bytesLE 64 (arbWord t (getArb t o.kind o.inst))) 0))

/-- An entry of ARB_SET: SET, PRIO, BURST (14 Table 14-5). -/
def setEntry (o : Order) (j : Nat) : Bool × ArbEntry := (o.b (16 * j + 8), ⟨o.f (16 * j) 3, o.f (16 * j + 3) 5⟩)

/-- Shadow settings with an ARB_SET's entries written. -/
def shadowSet (o : Order) (a : Arb) : Arb :=
  { a with shadow := a.shadow.zipIdx.map fun e => if (setEntry o e.2).1 then (setEntry o e.2).2 else e.1,
           shadowStarve := if o.b 125 then o.f 112 13 else a.shadowStarve }

/-- 14 R467, R472: ARB_SET writes shadows; instance bit 22 names every instance of the kind. (Log entry 78.) -/
def execArbSet (o : Order) (s : State) : Host.Outcome State Fault Refusal :=
  let n := if o.kind = 0xE3 then 6 else 7
  let all := decide (nfld o.inst 22 1 = 1)
  let js := (List.range 7).filter fun j => (setEntry o j).1
  let c : Checks :=
    { malformed := (all && decide (o.inst ≠ 2 ^ 22)) || js.any fun j => o.f (16 * j + 9) 7 != 0,
      badArgument := o.kind != 0xE1 && (js.any (fun j => decide (n ≤ j) || decide ((setEntry o j).2.burst = 0) ||
          decide (16 < (setEntry o j).2.burst)) ||
        (o.b 125 && (decide (o.f 112 13 < 16) || decide (4096 < o.f 112 13)))),
      chapter := if s.arb.pend.isSome then some 0x8E01 else if o.kind = 0xE1 then some 0x8E02 else none }
  .next (runOrder (setForm 0x4E01 [0xE1, 0xE2, 0xE3] (arbMask o.kind + 2 ^ 22) [(0, 112), (112, 14)] modesSet true) o s c
    fun t =>
      let is := if all then List.range (arbMask o.kind + 1) else [o.inst]
      (is.foldl (fun u i => updArbOf u o.kind i (shadowSet o)) t, .done stSuccess 0))

/-- 14 R468: ARB_COMMIT sets T_a. -/
def execArbCommit (o : Order) (s : State) : Host.Outcome State Fault Refusal :=
  .next (runOrder (setForm 0x4E02 [0xE4] 0 [] modesSet true) o s
    { chapter := if s.arb.pend.isSome then some 0x8E01 else none } fun t =>
    (t.updArb fun a => { a with pend := some (t.tb.dt + 2 * dtUs) }, .later))

/-- An instance's shadow settings made live. -/
def arbLive (a : Arb) : Arb := { a with live := a.shadow, liveStarve := a.shadowStarve }

/-- Once T_a has come every instance copies its shadow settings to its live ones, and the commit completes (14 R468, R469). -/
def arbTakes (s : State) : State :=
  match s.arb.pend with
  | none => s
  | some ta =>
    if s.tb.dt < ta then s else
    let t := s.updArb fun a =>
      { a with banks := a.banks.map fun kv => (kv.1, arbLive kv.2), drams := a.drams.map fun kv => (kv.1, arbLive kv.2),
               pend := none }
    match findRunning t 0x4E02 fun _ => true with
    | some r => finishOrder t r stSuccess (fld (dtWord ta) 16 32)
    | none => t

/-- 14 R468: the commit instant T_a. -/
def execArbCommitInstant (s : State) : Host.Outcome State Fault Refusal := .next (arbTakes s)

end Sys2Proof.Machine
end

