-- ==== Sys2Proof/Machine/CollOps.lean ====
section
/-! DEFINITION. Shared operations on the collective units (chapter 13): the collective header, arrival at a unit. -/

namespace Sys2Proof.Machine

def getCtx (s : State) (n : Nat) : Ctx := SMap.get (fun _ => Ctx.reset) s.coll.ctxs n
def updCtx (s : State) (n : Nat) (f : Ctx → Ctx) : State :=
  s.updColl fun x => { x with ctxs := SMap.upd (fun _ => Ctx.reset) x.ctxs n f }
def getUnit (s : State) (u : Nat) : CollUnit := SMap.get (fun _ => CollUnit.reset) s.coll.units u
def updUnit (s : State) (u : Nat) (f : CollUnit → CollUnit) : State :=
  s.updColl fun x => { x with units := SMap.upd (fun _ => CollUnit.reset) x.units u f }

/-- Where a collective packet's UDP header begins (13 R438), whether it is IPv6, and where its IP header begins. -/
structure CollFrame where
  ip : Nat
  six : Bool
  udp : Nat
deriving DecidableEq, Repr

/-- A 16-bit field of a frame. -/
def be16 (f : List Byte) (i : Nat) : Nat := beNat (slice f i 2)

/-- The framing of 13 R438: Ethernet with at most one 802.1Q tag, IPv4 without options and not in fragments, or IPv6 without
extension headers, and UDP. -/
def udpFrame (f : List Byte) : Option CollFrame :=
  let ip := if be16 f 12 = 0x8100 then 18 else 14
  let ty := be16 f (ip - 2)
  if ty = 0x0800 ∧ f.getD ip 0 = 0x45 ∧ f.getD (ip + 9) 0 = 17 ∧ be16 f (ip + 6) % 0x4000 = 0 then
    some ⟨ip, false, ip + 20⟩
  else if ty = 0x86DD ∧ (f.getD ip 0).toNat / 16 = 6 ∧ f.getD (ip + 6) 0 = 17 then some ⟨ip, true, ip + 40⟩
  else none

/-- The collective header of a frame as a number, and the bytes of its payload; none where the framing is not found.
(Log entry 74.) -/
def collParse (s : State) (f : List Byte) : Option (Nat × List Byte) :=
  match udpFrame f with
  | none => none
  | some c =>
    let len := be16 f (c.udp + 4)
    if be16 f (c.udp + 2) = s.coll.udpPort ∧ 40 ≤ len ∧ c.udp + len + 4 ≤ f.length then
      some (beNat (slice f (c.udp + 8) 32), slice f (c.udp + 40) (len - 40))
    else none

/-- CHUNK of a collective header (13 Table 13-2). -/
def chunkOf (h : Nat) : BitVec 32 := BitVec.ofNat 32 (nfld h 160 32)

/-- `a` comes before `b` modulo 2^32. -/
def seqBefore (a b : BitVec 32) : Bool := (a - b).msb

/-- The home before a context's last move still answers the retries of a chunk below that move's C_cut: chunk
C_cut - 1 + WINDOW has not completed (13 R456). -/
def oldAnswers (x : Ctx) (c : BitVec 32) : Option Nat :=
  match x.oldHome with
  | some h =>
    let last := h.2 - 1 + BitVec.ofNat 32 x.cfg.window
    if seqBefore c h.2 && !(x.complete.contains last || seqBefore last x.base) then some h.1 else none
  | none => none

/-- The unit that handles a chunk of a context (13 R436, R456): during a move, the old home for chunks below C_cut. -/
def chunkHome (x : Ctx) (c : BitVec 32) : Nat :=
  match oldAnswers x c, x.move with
  | some u, _ => u
  | none, some m => if !m.isolation && seqBefore c m.cut then m.old else x.home
  | none, none => x.home

/-- The unit to which a packet of a context goes (13 R436, R456). -/
def collHome (s : State) (n : Nat) (f : List Byte) : Nat :=
  match collParse s f with
  | some h => chunkHome (getCtx s n) (chunkOf h.1)
  | none => (getCtx s n).home

/-- A drop counted by its context, with COLL_DROPS (13 Tables 13-8, 13-12). -/
def ctxDrop (s : State) (n cause : Nat) : State :=
  let t := updCtx s n fun x =>
    { x with fault := cause, duplicates := if cause = 0xD5 then x.duplicates + 1 else x.duplicates,
             drops := if cause = 0xD5 then x.drops else x.drops + 1 }
  winEvent t 0x0D05 n (packN [(0, 12, n), (16, 8, cause)]) 32 32 1

/-- Billet bytes in a unit's input queue. -/
def inputBytes (u : CollUnit) : Nat := sumN (u.input.map fun e => e.2)

/-- A packet passed from unit `u` to its context's home `h`: counted where it is passed, or at the home when `u` is isolated
(13 R436, 17 R544). -/
def relayedAt (s : State) (u h : Nat) : State :=
  updUnit s (if bit s.err.cuIsolated u then h else u) fun x => { x with relayed := x.relayed + 1 }

/-- A collective packet at step 7 (13 R436, R437): relayed to its context's home where that is another unit, and queued there
unless the queue is full. (Log entry 74.) -/
def collArrive (s : State) (id n : Nat) : State :=
  match getStored s id with
  | none => s
  | some x =>
    let p := x.pkt
    if 4096 ≤ n then dropRef s id p.port 0xD1 .none else
    let h := collHome s n p.frame
    let t := if p.port / 32 = h then s else relayedAt s (p.port / 32) h
    if t.coll.limitKib * 1024 < inputBytes (getUnit t h) + x.bytes then
      dropRef (ctxDrop (updUnit t h fun u => { u with inputFull := u.inputFull + 1 }) n 0xD6) id p.port 0xD6 .none
    else updUnit t h fun u => { u with input := u.input ++ [(id, x.bytes)] }

end Sys2Proof.Machine
end

