-- ==== Sys2Proof/Machine/Tables.lean ====
section
/-! DEFINITION. The commands of chapter 08: table orders, learning and aging, repair, the shadow, dumps and bulk writes. -/

namespace Sys2Proof.Machine

/-! Table writes, as an order or as a record of TABLE_BULK (08 R312) -/

/-- A table write judged: what its checks find, and its outcome, a status or the new state with its DATA. -/
structure TWrite where
  malformed : Bool
  version : Option Nat
  badObject : Bool
  badArgument : Bool
  run : Except Nat (State × Nat)

/-- The checks of a table write posted as an order. -/
def TWrite.checks (w : TWrite) : Checks :=
  { malformed := w.malformed, version := w.version, badObject := w.badObject, badArgument := w.badArgument,
    chapter := match w.run with | .error e => some e | .ok _ => none }

/-- The status with which a table write fails, if it does (02 R68). -/
def TWrite.fails (w : TWrite) : Option Nat := secondFail w.checks

/-- The effect of a table write that passed its checks. -/
def TWrite.effect (w : TWrite) (t : State) : State × Reply :=
  match w.run with
  | .ok r => (r.1, .done stSuccess r.2)
  | .error e => (t, .done e 0)

/-- A new exact-match copy placed with its moves (08 R281, R283), or QUOTA_EXCEEDED, TABLE_FULL, TABLE_LOCKED. -/
def emInsert (s : State) (quota : Nat) (c : EmCell) : Except Nat (State × Nat) :=
  if quota ≠ 0 ∧ quota < emCount s c.table + 1 then .error 0x8802
  else match emPlace s c.table c.key with
    | none => .error 0x8801
    | some p =>
      if 1 < p.length && memLocked s 0 then .error 0x8805
      else
        let t := setEm (emMove p s) (p.headD 0) (some c)
        .ok (writeThroughAll t 0 p, p.length - 1)

/-- The sums after an exact-match change that the versions of the flags see. -/
def emFp (s : State) (active staged : Bool) (old new : Option EmCell) : State :=
  let h := fun (c : Option EmCell) => match c with | some x => emElement x | none => 0
  fpChange s active staged (h old) (h new)

/-- A new configured copy for the target version (08 R274). -/
def emNew (s : State) (direct : Bool) (table quota : Nat) (key : BitVec 128) (ad : BitVec 64) :
    Except Nat (State × Nat) :=
  let v := targetSeq s direct
  let own := direct && (match stagedSeq s with | some g => (emFind s table g key).isSome | none => false)
  let c : EmCell := ⟨table, key, ad, false, 0, v, directTo s own, 0⟩
  match emInsert s quota c with
  | .error e => .error e
  | .ok (t, m) => .ok (emFp t direct ((stagedSeq s).isSome && !own) none (some c), m)

/-- 08 R286, Table 8-20: EM_WRITE by its OP and by what the target version sees. -/
def emWrite (s : State) (direct : Bool) (table op : Nat) (key : BitVec 128) (ad : BitVec 64) : Except Nat (State × Nat) :=
  let v := targetSeq s direct
  let quota := tableQuota s 1 table v
  match emFind s table v key with
  | none => if op = 2 then .error 0x8804 else emNew s direct table quota key ad
  | some (l, c) =>
    if op = 2 then
      if c.learned then .ok (emStore s l none, 0)
      else if direct then .ok (emFp (emStore s l none) true (stagedSees s c.from_ c.to_) (some c) none, 0)
      else if c.from_ = v then .ok (emFp (emStore s l none) false true (some c) none, 0)
      else .ok (emFp (emStore s l (some { c with to_ := some v })) false true (some c) none, 0)
    else if c.learned then
      if direct then
        let n : EmCell := { c with ad := ad, learned := false, from_ := v }
        .ok (emFp (emStore s l (some n)) true (stagedSees s v c.to_) none (some n), 0)
      else
        let closed := setEm s l (some { c with to_ := some v })
        match emNew closed direct table quota key ad with
        | .error e => .error e
        | .ok (t, m) => .ok (writeThrough t 0 l, m)
    else if op = 0 then .error 0x8803
    else
      let n : EmCell := { c with ad := ad }
      if direct then .ok (emFp (emStore s l (some n)) true (stagedSees s c.from_ c.to_) (some c) (some n), 0)
      else if c.from_ = v then .ok (emFp (emStore s l (some n)) false true (some c) (some n), 0)
      else
        let closed := emFp (setEm s l (some { c with to_ := some v })) false true (some c) none
        match emNew closed direct table quota key ad with
        | .error e => .error e
        | .ok (t, m) => .ok (writeThrough t 0 l, m)

/-- A successful write of a target, with its divergence when it is direct (01 R38). -/
def wrote (direct : Bool) (r : Except Nat (State × Nat)) : Except Nat (State × Nat) :=
  match r with
  | .ok (t, m) => .ok (directDone t direct, m)
  | .error e => .error e

/-- EM_WRITE of an instance and an inline payload (08 Table 8-3, R318). -/
def emOrder (s : State) (inst p : Nat) : TWrite :=
  let d := inst / 2 ^ 23 % 2 == 1
  let table := inst % 16
  let v := targetSeq s d
  let key := BitVec.ofNat 128 (nfld p 16 128)
  { malformed := inst &&& 0x80000F != inst || !onlyFields p [(0, 2), (16, 192)] || nfld p 0 2 == 3,
    version := versionCheck s d, badObject := !tableExists s 1 table v,
    badArgument := !keyFits 128 (tableKeyBits s 1 table v) key.toNat,
    run := wrote d (emWrite s d table (nfld p 0 2) key (BitVec.ofNat 64 (nfld p 144 64))) }

/-- An LPM copy with its sums. -/
def lpmFp (s : State) (active staged : Bool) (old new : Option LpmEnt) : State :=
  let h := fun (c : Option LpmEnt) => match c with | some x => lpmElement x | none => 0
  fpChange s active staged (h old) (h new)

/-- A new LPM copy in its band (08 R297, R298), or QUOTA_EXCEEDED, TABLE_FULL, TABLE_LOCKED. -/
def lpmInsert (s : State) (six : Bool) (quota : Nat) (e : LpmEnt) : Except Nat (State × Nat) :=
  let m := lpmMoves (lpmList s six) e.len
  if quota ≠ 0 ∧ quota < lpmCount s e.table six + (if six then 4 else 1) then .error 0x8802
  else if !lpmRoom s six then .error 0x8801
  else if 0 < m && memLocked s 1 then .error 0x8805
  else .ok (setLpmThrough s six (lpmPut (lpmList s six) e), m)

/-- An LPM copy removed (08 R297). -/
def lpmDelete (s : State) (six : Bool) (i len : Nat) : Except Nat (State × Nat) :=
  let m := lpmMoves (lpmList s six) len
  if (decide (0 < m) || lpmInBand (lpmList s six) i) && memLocked s 1 then .error 0x8805
  else .ok (setLpmThrough s six (lpmRemove (lpmList s six) i), m)

/-- The copy of a prefix that version `v` sees, and its index. -/
def lpmSeen (s : State) (six : Bool) (table len v : Nat) (p : BitVec 128) : Option (Nat × LpmEnt) :=
  ((lpmList s six).zipIdx.find? fun x =>
    x.1.valid && x.1.table == table && x.1.len == len && x.1.pfx == p && sees v x.1.from_ x.1.to_).map fun x => (x.2, x.1)

/-- A new LPM copy for the target version (08 R274). -/
def lpmNew (s : State) (direct six : Bool) (table quota len action : Nat) (p : BitVec 128) : Except Nat (State × Nat) :=
  let v := targetSeq s direct
  let own := direct && (match stagedSeq s with | some g => (lpmSeen s six table len g p).isSome | none => false)
  let e : LpmEnt := ⟨true, table, len, p, action, v, directTo s own⟩
  match lpmInsert s six quota e with
  | .error x => .error x
  | .ok (t, m) => .ok (lpmFp t direct ((stagedSeq s).isSome && !own) none (some e), m)

/-- LPM_WRITE by its OP (08 R297, with OP and QUOTA as in R285 and R286). -/
def lpmWrite (s : State) (direct six : Bool) (table op len action : Nat) (p : BitVec 128) : Except Nat (State × Nat) :=
  let v := targetSeq s direct
  let quota := tableQuota s 2 table v
  let list := lpmList s six
  match lpmSeen s six table len v p with
  | none => if op = 2 then .error 0x8804 else lpmNew s direct six table quota len action p
  | some (i, e) =>
    let shared := !direct && e.from_ != v
    let sg := !direct || stagedSees s e.from_ e.to_
    if op = 2 then
      if shared then .ok (lpmFp (setLpmThrough s six (list.set i { e with to_ := some v })) false true (some e) none, 0)
      else match lpmDelete s six i len with
        | .error x => .error x
        | .ok (t, m) => .ok (lpmFp t direct sg (some e) none, m)
    else if op = 0 then .error 0x8803
    else if shared then
      let closed := lpmFp (setLpm s six (list.set i { e with to_ := some v })) false true (some e) none
      match lpmNew closed direct six table quota len action p with
      | .error x => .error x
      | .ok (t, m) => .ok (writeThrough t 1 (lpmUnit six i), m)
    else
      let n : LpmEnt := { e with action := action }
      .ok (lpmFp (setLpmThrough s six (list.set i n)) direct sg (some e) (some n), 0)

/-- LPM_WRITE of an instance and an inline payload (08 Table 8-5). -/
def lpmOrder (s : State) (inst p : Nat) : TWrite :=
  let d := inst / 2 ^ 23 % 2 == 1
  let table := inst % 8
  let v := targetSeq s d
  let six := tableIpv6 s table v
  let len := nfld p 2 8
  let pfx := BitVec.ofNat 128 (nfld p 32 128)
  { malformed := inst &&& 0x800007 != inst || !onlyFields p [(0, 10), (32, 149)] || nfld p 0 2 == 3,
    version := versionCheck s d, badObject := !tableExists s 2 table v,
    badArgument := decide (tableKeyBits s 2 table v < len) || !keyFits 128 len pfx.toNat,
    run := wrote d (lpmWrite s d six table (nfld p 0 2) len (nfld p 160 21) pfx) }

/-- One ACL row written for a target (08 R300 to R302); `new` is none for VALID 0. (Log entry 51.) -/
def aclWrite (s : State) (direct : Bool) (table row : Nat) (new : Option AclRow) : Except Nat (State × Nat) :=
  let v := targetSeq s direct
  let quota := tableQuota s 3 table v
  let old := getAcl s row
  let h := fun (c : Option AclRow) => match c with | some x => aclElement row x | none => 0
  let above := new.isSome && quota != 0 && (old.map fun r => r.table) != some table && decide (quota < aclCount s table + 1)
  match old with
  | none =>
    if above then .error 0x8802
    else .ok (fpChange (aclStore s row new) direct (stagedSeq s).isSome 0 (h new), 0)
  | some r =>
    let seenNow := sees v r.from_ r.to_
    let others := (liveSeqs s).any fun g => (direct || g != v) && sees g r.from_ r.to_
    if direct then
      if above then .error 0x8802 else
      let sg := stagedSees s r.from_ r.to_
      let n := new.map fun x =>
        if seenNow then { x with from_ := r.from_, to_ := r.to_ } else { x with from_ := v, to_ := none }
      let t := fpChange (aclStore s row n) true false (if seenNow then h old else 0) (h n)
      let sgNew := match n with | some x => stagedSees s x.from_ x.to_ | none => false
      .ok (fpChange t false (stagedSeq s).isSome (if sg then h old else 0) (if sgNew then h n else 0), 0)
    else if new.isSome then
      if others then .error 0x8807
      else if above then .error 0x8802
      else .ok (fpChange (aclStore s row new) false true (if seenNow then h old else 0) (h new), 0)
    else if !seenNow then .ok (s, 0)
    else if r.from_ = v then .ok (fpChange (aclStore s row none) false true (h old) 0, 0)
    else .ok (fpChange (aclStore s row (some { r with to_ := some v })) false true (h old) 0, 0)

/-- ACL_WRITE of an instance and its 192-byte record (08 Table 8-6). -/
def aclOrder (s : State) (inst : Nat) (bs : List Byte) : TWrite :=
  let d := inst / 2 ^ 23 % 2 == 1
  let table := nfld inst 16 4
  let row := inst % 65536
  let v := targetSeq s d
  let p := leNat (padTo 192 bs)
  let kb := tableKeyBits s 3 table v
  let key := nfld p 0 640
  let mask := nfld p 640 640
  let new : AclRow := ⟨table, BitVec.ofNat 640 key, BitVec.ofNat 640 mask, nfld p 1280 21, v, none⟩
  { malformed := !onlyFields p [(0, 1302)], version := versionCheck s d, badObject := !tableExists s 3 table v,
    badArgument := !keyFits 640 kb key || !keyFits 640 kb mask,
    run := wrote d (aclWrite s d table row (if nfld p 1301 1 = 1 then some new else none)) }

/-- The physical word that a write of an action index takes when the target version sees none of its own (08 R303, R304):
one that no live version but the target sees. -/
def freeWord (s : State) (index v : Nat) : Option Nat :=
  [2 * index, 2 * index + 1].find? fun l =>
    match getAct s l with
    | some w => !((liveSeqs s).any fun g => g != v && sees g w.from_ w.to_) && !sees v w.from_ w.to_
    | none => true

/-- One action word written for a target; none when it is ACTION_BUSY. (Log entry 51.) -/
def actWriteOne (s : State) (direct : Bool) (index : Nat) (w : BitVec 64) : Option State :=
  let v := targetSeq s direct
  let h := actElement index
  match actFind s index v with
  | some (l, c) =>
    if direct || c.from_ = v then
      some (fpChange (actStore s l (some { c with word := w })) direct (!direct || stagedSees s c.from_ c.to_) (h c.word)
        (h w))
    else
      (freeWord s index v).map fun f =>
        let t := actStore (actStore s l (some { c with to_ := some v })) f (some ⟨w, v, none⟩)
        fpChange t false true (h c.word) (h w)
  | none =>
    let own := direct && (match stagedSeq s with | some g => (actFind s index g).isSome | none => false)
    (freeWord s index v).map fun f =>
      fpChange (actStore s f (some ⟨w, v, directTo s own⟩)) direct ((stagedSeq s).isSome && !own) 0 (h w)

/-- The words of an ACTION_WRITE, one at a time (08 R304); all or nothing. -/
def actWrite (direct : Bool) : List (BitVec 64) → Nat → State → Option State
  | [], _, s => some s
  | w :: ws, i, s => (actWriteOne s direct i w).bind fun t => actWrite direct ws (i + 1) t

/-- ACTION_WRITE of an instance and an inline payload (08 Table 8-7). -/
def actOrder (s : State) (inst p : Nat) : TWrite :=
  let d := inst / 2 ^ 23 % 2 == 1
  let n := nfld p 21 2
  let i := nfld p 0 21
  let words := (List.range n).map fun j => BitVec.ofNat 64 (nfld p (64 + 64 * j) 64)
  { malformed := inst &&& 0x800000 != inst || !onlyFields p [(0, 23), (64, 64 * n)] || n == 0,
    version := versionCheck s d, badObject := false, badArgument := decide (2097151 < i + n - 1),
    run := wrote d (match actWrite d words i s with | some t => .ok (t, 0) | none => .error 0x8808) }

/-- 08 R286: EM_WRITE. -/
def execEmWrite (o : Order) (s : State) : Host.Outcome State Fault Refusal :=
  let w := emOrder s o.inst o.payload.toNat
  .next (runOrder (setForm 0x4802 [0x81] 0x80000F [(0, 2), (16, 192)] modesSet true) o s w.checks w.effect)

/-- 08 R297: LPM_WRITE. -/
def execLpmWrite (o : Order) (s : State) : Host.Outcome State Fault Refusal :=
  let w := lpmOrder s o.inst o.payload.toNat
  .next (runOrder (setForm 0x4803 [0x82] 0x800007 [(0, 10), (32, 149)] modesSet true) o s w.checks w.effect)

/-- 08 R300: ACL_WRITE. -/
def execAclWrite (o : Order) (s : State) : Host.Outcome State Fault Refusal :=
  let d := directBit o
  .next (runPtr (ptrForm 0x4804 [0x83] 0x8FFFFF modesSet true) o s
    { malformed := ptrLen o != 192, version := versionCheck s d,
      badObject := !tableExists s 3 (nfld o.inst 16 4) (targetSeq s d) }
    (fun bs => (aclOrder s o.inst bs).checks) fun bs t => (aclOrder t o.inst bs).effect t)

/-- 08 R303, R304: ACTION_WRITE. -/
def execActionWrite (o : Order) (s : State) : Host.Outcome State Fault Refusal :=
  let w := actOrder s o.inst o.payload.toNat
  .next (runOrder (setForm 0x4805 [0x84] 0x800000 [(0, 23), (64, 192)] modesSet true) o s w.checks w.effect)

/-- One record of TABLE_BULK (08 R312). -/
def bulkRecord (s : State) (bs : List Byte) : TWrite :=
  let v := leNat bs
  let inst := nfld v 8 24
  let p := nfld v 64 320
  let w := match nfld v 0 8 with
    | 0x02 => emOrder s inst p
    | 0x03 => lpmOrder s inst p
    | 0x05 => actOrder s inst p
    | _ => ⟨true, none, false, false, .error stMalformed⟩
  { w with malformed := w.malformed || nfld v 32 32 != 0 || nfld v 384 128 != 0 }

/-- The records of TABLE_BULK in order, up to the first that fails: the state, the records performed, the failing status. -/
def bulkRun : Nat → List Byte → State → Nat → State × Nat × Option Nat
  | 0, _, s, n => (s, n, none)
  | k + 1, bs, s, n =>
    let w := bulkRecord s (bs.take 64)
    match w.fails, w.run with
    | none, .ok r => bulkRun k (bs.drop 64) r.1 (n + 1)
    | some e, _ => (s, n, some e)
    | none, .error e => (s, n, some e)

/-- 08 R312: TABLE_BULK. -/
def execTableBulk (o : Order) (s : State) : Host.Outcome State Fault Refusal :=
  .next (runPtr (ptrForm 0x4806 [0x85] 0 modesSet true) o s {} (fun _ => {}) fun bs t =>
    let r := bulkRun (ptrLen o / 64) (padTo (ptrLen o) bs) t 0
    match r.2.2 with
    | none => (r.1, .done stSuccess (packN [(0, 32, r.2.1)]))
    | some e => (r.1, .done e (packN [(0, 32, r.2.1), (32, 16, r.2.1)])))

/-! Definitions and settings -/

/-- Some live version sees an entry of a table, learned or configured (08 R269). -/
def tableInUse (s : State) (m t : Nat) : Bool :=
  match m with
  | 1 => s.tbl.em.any fun kv => match kv.2 with | some c => c.table == t && liveSees s c.from_ c.to_ | none => false
  | 2 => (s.tbl.lpm4 ++ s.tbl.lpm6).any fun e => e.valid && e.table == t && liveSees s e.from_ e.to_
  | _ => s.tbl.acl.any fun kv => match kv.2 with | some r => r.table == t && liveSees s r.from_ r.to_ | none => false

/-- TABLE_DEF's ranges (08 Table 8-2), tested where ENABLE is 1 (log entry 10). -/
def tableDefBad (m : Nat) (w : BitVec 36) : Bool :=
  let kb := fld w 1 10
  bit w 0 && (match m with
    | 1 => decide (kb < 8) || decide (128 < kb) || kb % 8 != 0 || bit w 11
    | 2 => kb != 0
    | _ => decide (kb < 32) || decide (640 < kb) || kb % 32 != 0 || bit w 11)

/-- 08 R269, R239: TABLE_DEF. -/
def execTableDef (o : Order) (s : State) : Host.Outcome State Fault Refusal :=
  let d := directBit o
  let m := o.kind - 0x80
  let table := if m = 3 then nfld o.inst 16 4 else if m = 2 then o.inst % 8 else o.inst % 16
  let mask := if m = 3 then 0x8F0000 else if m = 2 then 0x800007 else 0x80000F
  let k := 16 * m + table
  let w := BitVec.ofNat 36 (o.f 0 36)
  let c : Checks :=
    { malformed := o.inst &&& mask != o.inst, version := versionCheck s d, badArgument := tableDefBad m w,
      chapter := if tableInUse s m table then some 0x8806 else none }
  .next (runOrder (setForm 0x4801 [0x81, 0x82, 0x83] 0x8FFFFF [(0, 36)] modesSet true) o s c fun t =>
    let u := contentsFp t (defC t k) d (defElement k) 0 w
    let n := writeContents t (defC t k) d w
    (directDone (u.updVer fun x => { x with defs := SMap.put (fun _ => []) x.defs k n }) d, .done stSuccess 0))

/-- 08 R289 to R291: LEARN_SET. -/
def execLearnSet (o : Order) (s : State) : Host.Outcome State Fault Refusal :=
  .next (runOrder (setForm 0x4807 [0x81] 0xF [(0, 68)] [.prepare, .service, .coast] true) o s {} fun t =>
    let l : LearnSet := ⟨o.b 0, o.b 1, o.b 2, o.b 3, BitVec.ofNat 64 (o.f 4 64)⟩
    (t.updTbl fun x => { x with learn := SMap.put (fun _ => LearnSet.reset) x.learn o.inst l }, .done stSuccess 0))

/-- 08 R291: AGE_SET. -/
def execAgeSet (o : Order) (s : State) : Host.Outcome State Fault Refusal :=
  .next (runOrder (setForm 0x4808 [0x85] 0 [(0, 20)] modesSet true) o s
    { badArgument := decide (o.f 0 20 < 100) || decide (1000000 < o.f 0 20) } fun t =>
    (t.updTbl fun x => { x with agePeriod := o.f 0 20 }, .done stSuccess 0))

/-! Reads and lookups -/

/-- Copies that no live version sees and that are not yet freed (08 R275). -/
def pendingFree (s : State) : Nat :=
  (s.tbl.em.filter fun kv => match kv.2 with | some c => !liveSees s c.from_ c.to_ | none => false).length +
  ((s.tbl.lpm4 ++ s.tbl.lpm6).filter fun e => e.valid && !liveSees s e.from_ e.to_).length +
  (s.tbl.acl.filter fun kv => match kv.2 with | some c => !liveSees s c.from_ c.to_ | none => false).length +
  (s.tbl.act.filter fun kv => match kv.2 with | some c => !liveSees s c.from_ c.to_ | none => false).length

/-- SHADOW_STATE's number (08 Table 8-13). -/
def shadowNum : ShadowState → Nat
  | .none => 0
  | .filling => 1
  | .valid => 2
  | .invalid => 3

/-- READ_TABLES's occupancy counts (08 Table 8-13). -/
def tablesCounts (s : State) : Nat :=
  packN [(0, 22, s.tbl.em.length),
    (22, 22, (s.tbl.em.filter fun kv => match kv.2 with | some c => c.learned | none => false).length),
    (44, 21, (s.tbl.lpm4.filter fun e => e.valid).length + 4 * (s.tbl.lpm6.filter fun e => e.valid).length),
    (65, 17, s.tbl.acl.length), (82, 23, s.tbl.act.length), (105, 23, pendingFree s)]

/-- READ_TABLES's result (08 Table 8-13); the counts of contents that HALT has not preserved are free (03 R120). -/
def tablesRecord (s : State) : Nat :=
  packN [(0, 128, if s.tbl.gone then freeNat s else tablesCounts s), (128, 64, s.tbl.learnDropped), (192, 64, s.tbl.aged),
    (256, 32, s.tbl.repairs), (288, 32, s.tbl.lost), (320, 2, shadowNum s.tbl.shadow),
    (322, 2, s.tbl.shadowPort), (384, 96, (dtWord s.tbl.compareDt).toNat)]

/-- A read of contents that HALT has not preserved draws a free value (03 R120). (Log entry 1.) -/
def drawGone (s : State) : State := if s.tbl.gone then s.drawn else s

/-- A lookup order's answer: NOT_FOUND, or its DATA; in contents that HALT has not preserved, either one, of a free value. -/
def lookupReply (s : State) (bits : Nat) (found : Option Nat) : Reply :=
  let n := freeNat s
  match if s.tbl.gone then (if n % 2 = 0 then none else some (n / 2 % 2 ^ bits)) else found with
  | some d => .done stSuccess d
  | none => .done 0x0801 0

/-- `n` reads of the maintenance requester of table side port 0 (14 Table 14-1); which quadrant's is not stated: TQ0's. (Log entry 78.) -/
def maintain (s : State) (n : Nat) : State := arbUseAll s 0xE1 12 (List.replicate n 0)

/-- 08 R318: READ_TABLES. -/
def execReadTables (o : Order) (s : State) : Host.Outcome State Fault Refusal :=
  .next (runOrder (readForm 0x0801 [0x85] 0 [] 128 modesOn) o s {} fun t =>
    (drawGone t, .result (bytesLE 128 (tablesRecord t)) 0))

/-- 08 R318: EM_LOOKUP. -/
def execEmLookup (o : Order) (s : State) : Host.Outcome State Fault Refusal :=
  let v := readSeq s o
  let table := o.inst % 16
  let c : Checks :=
    { badObject := !tableExists s 1 table v, badArgument := !keyFits 128 (tableKeyBits s 1 table v) (o.f 16 128) }
  .next (runOrder (readForm 0x0802 [0x81] 0x80000F [(16, 128)] 0 modesOn) o s c fun t =>
    (maintain (drawGone t) 1, lookupReply t 64 ((emLookup t table v (BitVec.ofNat 128 (o.f 16 128))).map fun x => x.2.ad.toNat)))

/-- 08 R318: LPM_LOOKUP. -/
def execLpmLookup (o : Order) (s : State) : Host.Outcome State Fault Refusal :=
  let v := readSeq s o
  let table := o.inst % 8
  .next (runOrder (readForm 0x0803 [0x82] 0x800007 [(32, 128)] 0 modesOn) o s
    { badObject := !tableExists s 2 table v } fun t =>
    (maintain (drawGone t) 1, lookupReply t 29 ((lpmFind t table v (tableIpv6 t table v) (BitVec.ofNat 128 (o.f 32 128))).map fun e =>
      packN [(0, 21, e.action), (21, 8, e.len)])))

/-! Dumps (08 R313) -/

/-- 08 R313: TABLE_DUMP begins; with LOCK, which only the owner has, its memory is locked. -/
def execTableDump (o : Order) (s : State) : Host.Outcome State Fault Refusal :=
  let mem := o.f 0 2
  let n := o.f 26 23
  let c : Checks :=
    { ownerOnly := o.b 2 && s.own.owner != some o.master,
      badArgument := decide (n < 1) || decide (4194304 < n) || decide (memLocations mem < o.f 3 23 + n) }
  .next (runOrder (readForm 0x0804 [0x85] 0 [(0, 49)] 64 modesOn) o s c fun t =>
    (t.updTbl fun x => { x with dumps := x.dumps ++ [⟨mem, o.b 2, t.tb.now, o⟩] }, .later))

/-- The images of `n` locations of a dump; those of contents that HALT has not preserved are free (03 R120). -/
def dumpBytes (s : State) (o : Order) (n : Nat) : List Byte :=
  if s.tbl.gone then bytesLE (n * imageSize (o.f 0 2)) (freeNat s)
  else (List.range n).flatMap fun i => imageBytes s (o.f 0 2) (o.f 3 23 + i) false

/-- A dump taken off the list, its lock released. -/
def endDump (s : State) (d : Dump) : State := s.updTbl fun x => { x with dumps := x.dumps.filter fun e => e != d }

/-- 08 R313: a dump writes its last image, releases its lock and completes. -/
def execTableDumpDone (s : State) : Host.Outcome State Fault Refusal :=
  .next (
    match s.tbl.dumps with
    | d :: _ =>
      match findRunning s 0x0804 (· == d.order) with
      | some r => finishResult (maintain (endDump (drawGone s) d) (d.order.f 26 23)) r (dumpBytes s d.order (d.order.f 26 23)) 0
      | none => endDump s d
    | [] => s)

/-- 08 R313: a dump still running at 50 ms ends with DUMP_TIMEOUT; `n` images were written. -/
def execDumpTimeout (n : Nat) (s : State) : Host.Outcome State Fault Refusal :=
  .next (
    match s.tbl.dumps with
    | d :: _ =>
      if s.tb.now < d.began + 50000000 then s else
      let t := maintain (endDump (drawGone s) d) n
      let m := min n (d.order.f 26 23)
      let t := if m = 0 then t else memWrite t d.order.master d.order.resultAddr.toNat (dumpBytes s d.order m)
      match findRunning t 0x0804 (· == d.order) with
      | some r => finishOrder t r 0x8809 0
      | none => t
    | [] => s)

/-! Learning and aging (08 R287 to R294) -/

/-- Learning and aging run in SERVICE and COAST (08 R293). -/
def learnRuns (s : State) : Bool := modeOk s && !s.mode.haltEntry

/-- What the update engine's sources ask of a slot, in their precedence (08 R268, Table 8-17): a repair, an order of the owner at
work on the tables, learning. (Log entry 54.) -/
def repairWaits (s : State) : Bool := !s.tbl.bad.isEmpty
def ownerAtWork (s : State) : Bool := repairWaits s || !s.tbl.flushes.isEmpty
def learnWaits (s : State) : Bool :=
  learnRuns s && (match s.tbl.learnQ with | r :: _ => r.move || !memLocked s 0 | [] => false)

/-- Learn requests discarded and counted, with their event (08 R320). -/
def learnDrop (s : State) (table : Nat) : State :=
  winEvent (s.updTbl fun x => { x with learnDropped := (x.learnDropped + 1) % 2 ^ 64 }) 0x0803 table table 32 32 1

/-- A request queued for the update engine (08 R287, Table 8-21). -/
def learnRequest (s : State) (r : LearnReq) : State :=
  if s.tbl.learnQ.any (fun q => q.table == r.table && q.key == r.key && q.move == r.move) then s
  else if 4096 ≤ s.tbl.learnQ.length then learnDrop s r.table
  else s.updTbl fun x => { x with learnQ := x.learnQ ++ [r] }

def learnSet (s : State) (t : Nat) : LearnSet := SMap.get (fun _ => LearnSet.reset) s.tbl.learn t

/-- The action data of a learned entry (08 R289). -/
def learnedAd (l : LearnSet) (port : Nat) : BitVec 64 :=
  if l.portInAd then BitVec.ofNat 64 (l.ad.toNat / 512 * 512 + port % 512) else l.ad

/-- 08 R288: the update engine serves the learn request at the head of its queue. -/
def execLearnInsert (s : State) : Host.Outcome State Fault Refusal :=
  .next (
    match s.tbl.learnQ with
    | r :: rs =>
      if r.move || memLocked s 0 || !learnRuns s || ownerAtWork s then s else
      let t := s.updTbl fun x => { x with learnQ := rs }
      if (liveSeqs t).any fun v => (emFind t r.table v r.key).isSome then t
      else
        let c : EmCell := ⟨r.table, r.key, learnedAd (learnSet t r.table) r.port, true, 0, 0, none, t.tb.now⟩
        match emInsert t (tableQuota t 1 r.table (activeSeq t)) c with
        | .ok (u, _) => u
        | .error _ => learnDrop t r.table
    | [] => s)

/-- The learned copy of a key that some live version sees (08 R290). -/
def learnedFind (s : State) (table : Nat) (key : BitVec 128) : Option (Nat × EmCell) :=
  (liveSeqs s).findSome? fun v => (emFind s table v key).filter fun x => x.2.learned

/-- 08 R290: the engine rewrites a learned entry's port bits in place. -/
def execStationMove (s : State) : Host.Outcome State Fault Refusal :=
  .next (
    match s.tbl.learnQ with
    | r :: rs =>
      if !r.move || !learnRuns s || ownerAtWork s then s else
      let t := s.updTbl fun x => { x with learnQ := rs }
      match learnedFind t r.table r.key with
      | some (l, c) => emStore t l (some { c with ad := BitVec.ofNat 64 (c.ad.toNat / 512 * 512 + r.port % 512) })
      | none => t
    | [] => s)

/-- The sweep has a visit to make to a cell: its entry is learned in a table that ages, some live version sees it, and
AGE_PERIOD_MS have passed since its insertion or its last visit (08 R291, R292). (Log entry 54.) -/
def ageDue (s : State) (c : EmCell) : Bool :=
  c.learned && (learnSet s c.table).age && liveSees s c.from_ c.to_ && decide (c.visit + s.tbl.agePeriod * 1000000 ≤ s.tb.now)
def ageRuns (s : State) : Bool := learnRuns s && !memLocked s 0 && !ownerAtWork s && !learnWaits s
def ageWaits (s : State) : Bool :=
  learnRuns s && !memLocked s 0 && s.tbl.em.any fun kv => match kv.2 with | some c => ageDue s c | none => false

/-- 08 R291, R292: the sweep visits the learned entry at a location, once in a period. `hit` are the quadrants hit in the
cycle of the visit. (Log entries 5 and 54.) -/
def execAgingVisit (l : Nat) (hit : BitVec 4) (s : State) : Host.Outcome State Fault Refusal :=
  .next (
    match getEm s l with
    | some c =>
      if !ageDue s c || !ageRuns s then s
      else if c.hits = 0 ∧ hit = 0 then
        emStore (s.updTbl fun x => { x with aged := (x.aged + 1) % 2 ^ 64 }) l none
      else setEm s l (some { c with hits := hit, visit := s.tb.now })
    | none => s)

/-- 08 R294: FLUSH_LEARNED; the table's queued requests are discarded at acceptance. -/
def execFlushLearned (o : Order) (s : State) : Host.Outcome State Fault Refusal :=
  .next (runOrder (setForm 0x480A [0x81] 0xF [(0, 10)] [.prepare, .service, .coast] true) o s {} fun t =>
    (t.updTbl fun x =>
      { x with learnQ := x.learnQ.filter fun q => q.table != o.inst,
               flushes := x.flushes ++ [⟨o.inst, if o.b 0 then some (o.f 1 9) else none, o⟩] }, .later))

/-- A learned entry that a flush deletes. -/
def flushes (f : Flush) (c : EmCell) : Bool :=
  c.learned && c.table == f.table && (match f.port with | some p => fld c.ad 0 9 == p | none => true)

/-- 08 R294: the learned entries of a flush are deleted and FLUSH_LEARNED completes. -/
def execFlushDone (s : State) : Host.Outcome State Fault Refusal :=
  .next (
    match s.tbl.flushes with
    | f :: fs =>
      let locs := (s.tbl.em.filter fun kv => match kv.2 with | some c => flushes f c | none => false).map fun kv => kv.1
      let t := locs.foldl (fun u l => emStore u l none) (s.updTbl fun x => { x with flushes := fs })
      match findRunning t 0x480A (· == f.order) with
      | some r => finishOrder t r stSuccess locs.length
      | none => t
    | [] => s)

/-! Freeing, repair, compare, shadow -/

/-- The engine has a slot for the freeing of copies (08 R268). -/
def freeRuns (s : State) : Bool := !ownerAtWork s && !learnWaits s && !ageWaits s

/-- 08 R275, R276: a copy that no live version sees returns to the free pool; a lost LPM place is closed too. -/
def execCopyFree (mem loc : Nat) (s : State) : Host.Outcome State Fault Refusal :=
  .next (
    if !freeRuns s then s else
    match mem with
    | 0 => match getEm s loc with
      | some c => if liveSees s c.from_ c.to_ then s else emStore s loc none
      | none => s
    | 1 =>
      match lpmAt s loc with
      | some e =>
        if (e.valid && liveSees s e.from_ e.to_) || memLocked s 1 then s
        else
          let six := decide (s.tbl.lpm4.length ≤ loc)
          setLpmThrough s six (lpmRemove (lpmList s six) (if six then 262143 - loc / 4 else loc))
      | none => s
    | 2 => match getAcl s loc with
      | some c => if liveSees s c.from_ c.to_ then s else aclStore s loc none
      | none => s
    | _ => match getAct s loc with
      | some c => if liveSees s c.from_ c.to_ then s else actStore s loc none
      | none => s)

/-- The place of creation of a version number among the live versions; an ended one keeps its number. -/
def seqOf (s : State) (n : Nat) : Nat := ((liveSeqs s).find? fun v => verNum v == n).getD n

/-- FROM and TO of an image. -/
def toOf (s : State) (open_ : Bool) (n : Nat) : Option Nat := if open_ then none else some (seqOf s n)

/-- The content of an exact-match, LPM, ACL or action-word image (08 Table 8-8). -/
def emOfImage (s : State) (v : Nat) (hits : BitVec 4) (visit : Nat) : Option EmCell :=
  if nfld v 315 1 = 0 then none else
  some ⟨nfld v 316 4, BitVec.ofNat 128 (nfld v 384 128), BitVec.ofNat 64 (nfld v 320 64), nfld v 314 1 == 1, hits,
    seqOf s (nfld v 296 16), toOf s (nfld v 312 1 == 1) (nfld v 280 16), visit⟩
def lpmOfImage (s : State) (v : Nat) : LpmEnt :=
  ⟨nfld v 116 1 == 1, nfld v 117 3, nfld v 120 8, BitVec.ofNat 128 (nfld v 128 128), nfld v 94 21,
    seqOf s (nfld v 78 16), toOf s (nfld v 115 1 == 1) (nfld v 62 16)⟩
def aclOfImage (s : State) (v : Nat) : Option AclRow :=
  if nfld v 251 1 = 0 then none else
  some ⟨nfld v 252 4, BitVec.ofNat 640 (nfld v 896 640), BitVec.ofNat 640 (nfld v 256 640), nfld v 229 21,
    seqOf s (nfld v 213 16), toOf s (nfld v 250 1 == 1) (nfld v 197 16)⟩
def actOfImage (s : State) (v : Nat) : Option ActWord :=
  if nfld v 191 1 = 0 then none else
  some ⟨BitVec.ofNat 64 (nfld v 192 64), seqOf s (nfld v 174 16), toOf s (nfld v 190 1 == 1) (nfld v 158 16)⟩

/-- A location's content replaced by an image's. -/
def putImage (s : State) (mem loc v : Nat) : State :=
  match mem with
  | 0 =>
    let old := getEm s loc
    setEm s loc (emOfImage s v ((old.map fun c => c.hits).getD 0) ((old.map fun c => c.visit).getD s.tb.now))
  | 1 =>
    if loc < s.tbl.lpm4.length then setLpm s false (s.tbl.lpm4.set loc (lpmOfImage s v))
    else if loc % 4 = 0 then setLpm s true (s.tbl.lpm6.set (262143 - loc / 4) (lpmOfImage s v)) else s
  | 2 => setAcl s loc (aclOfImage s v)
  | _ => setAct s loc (actOfImage s v)

/-- The configured element at a location: its hash and the versions' interval. -/
def elementAt (s : State) (mem loc : Nat) : Option (BitVec 128 × Nat × Option Nat) :=
  match mem with
  | 0 => (getEm s loc).bind fun c => if c.learned then none else some (emElement c, c.from_, c.to_)
  | 1 => (lpmAt s loc).bind fun e => if e.valid then some (lpmElement e, e.from_, e.to_) else none
  | 2 => (getAcl s loc).map fun r => (aclElement loc r, r.from_, r.to_)
  | _ => (getAct s loc).map fun w => (actElement (loc / 2) w.word, w.from_, w.to_)

/-- A location invalidated (08 R309); the other units of an IPv6 row hold no entry of their own (Table 8-8, log entry 53). -/
def invalidate (s : State) (mem loc : Nat) : State :=
  match mem with
  | 1 =>
    if loc < s.tbl.lpm4.length then
      match s.tbl.lpm4[loc]? with | some e => setLpm s false (s.tbl.lpm4.set loc { e with valid := false }) | none => s
    else if loc % 4 ≠ 0 then s
    else match s.tbl.lpm6[262143 - loc / 4]? with
      | some e => setLpm s true (s.tbl.lpm6.set (262143 - loc / 4) { e with valid := false })
      | none => s
  | 0 => setEm s loc none
  | 2 => setAcl s loc none
  | _ => setAct s loc none

/-- A location lost: invalidated everywhere. An element that a version covers leaves the sums, and the configuration diverges when
the active one does (01 R38); one at its reset content is covered by none (R314). (Log entry 53.) -/
def loseLocation (s : State) (mem loc : Nat) : State :=
  let t := (writeThrough (invalidate s mem loc) mem loc).updTbl fun x => { x with lost := (x.lost + 1) % 2 ^ 32 }
  match elementAt s mem loc with
  | some (h, f, to_) =>
    let a := sees (activeSeq s) f to_ && h != 0
    let covered := liveSees s f to_ && h != 0
    let u := postAll (fpChange t a (stagedSees s f to_) h 0) 0x0802 0 (packN [(0, 2, mem), (2, 23, loc), (25, 1, b2n covered)])
    if a then diverge u 2 else u
  | none => postAll t 0x0802 0 (packN [(0, 2, mem), (2, 23, loc)])

/-- An image less its HIT bit and CHECK, which repairs do not compare (08 R309). -/
def repairKey (mem v : Nat) : Nat := if mem = 0 then (v - nfld v 313 1 * 2 ^ 313) / 2 ^ 32 else v / 2 ^ 32

/-- The content that a strict majority of at least two candidates holds. (Log entry 56.) -/
def majority (cs : List Nat) : Option Nat :=
  cs.find? fun c => let n := (cs.filter fun d => d == c).length; decide (2 ≤ n) && decide (cs.length < 2 * n)

/-- 08 R309: the update engine acts on a location under repair. `quads` are the images that the four quadrants hold, none for
a parity error; `shadow` is the shadow's image when its CHECK is correct. (Log entry 56.) -/
def execTableRepair (mem loc : Nat) (quads : List (Option Nat)) (shadow : Option Nat) (s : State) :
    Host.Outcome State Fault Refusal :=
  .next (
    if quads.length ≠ 4 ∨ memLocations mem ≤ loc ∨ 3 < mem then s else
    let key := repairKey mem
    let qs := (quads.filterMap id).map key
    let sh := if s.tbl.shadow = .valid then shadow.map key else none
    let all := qs ++ sh.toList
    let shadowBad := s.tbl.shadow == .valid && shadow.isNone
    if qs.length = 4 ∧ shadowBad = false ∧ all.all (fun x => some x == all.head?) then
      s.updTbl fun x => { x with bad := mend x.bad mem loc 1 }
    else
    let errs := packN (quads.zipIdx.map fun x => (x.2, 1, b2n x.1.isNone))
    let rec_ := fun (t : State) (level outcome : Nat) =>
      recordError t 16 0x01 mem level outcome
        (packN [(0, 23, loc), (23, 4, errs), (27, 1, b2n shadowBad)])
    match majority all with
    | some k =>
      let img := ((quads.filterMap id) ++ shadow.toList).find? fun v => key v == k
      let t := if some k = some (key (imageOf s mem loc false)) then s else putImage s mem loc (img.getD 0)
      let mask := packN (quads.zipIdx.map fun x => (x.2, 1, b2n ((x.1.map key) != some k)))
      let shw := s.tbl.shadow == .valid && (shadow.map key) != some k
      let t := if shw then writeThrough t mem loc else t
      let t := t.updTbl fun x => { x with repairs := (x.repairs + 1) % 2 ^ 32, bad := mend x.bad mem loc 1 }
      rec_ (postAll t 0x0801 0 (packN [(0, 2, mem), (2, 23, loc), (25, 4, mask), (29, 1, b2n shw),
        (30, 1, b2n ((majority qs).isNone && qs.any fun x => some x != qs.head?))])) 0 1
    | none => rec_ ((loseLocation s mem loc).updTbl fun x => { x with bad := mend x.bad mem loc 1 }) 1 3)

/-- Every location of the four memories, which one pass of the compare reads. -/
def compareTotal : Nat := 2097152 + 1048576 + 65536 + 4194304

/-- The memory and location at a place of the pass, which takes the memories in turn. (Log entry 56.) -/
def compareAt (n : Nat) : Nat × Nat :=
  if n < 2097152 then (0, n) else if n < 3145728 then (1, n - 2097152) else if n < 3211264 then (2, n - 3145728)
  else (3, n - 3211264)

/-- A slot that no other source claims (08 R268). -/
def spareSlot (s : State) : Bool := freeRuns s && decide (pendingFree s = 0)

/-- 08 R311: the background compare reads one location in a spare slot; the last of a pass sets COMPARE_DT. `parity` are the
quadrant copies in which it finds a parity error, `differ` says that it finds two copies that differ: the location is then under
repair (R309). (Log entry 56.) -/
def execBackgroundCompare (parity : BitVec 4) (differ : Bool) (s : State) : Host.Outcome State Fault Refusal :=
  .next (
    if (modeOk s || s.mode.mode == .prepare) && spareSlot s then
      let k := compareAt s.tbl.comparePos
      let t := s.updTbl fun x =>
        { x with bad := SMap.put (fun _ => (0 : BitVec 5)) x.bad (badKey k.1 k.2) (BitVec.ofNat 5 (parity.toNat + 16 * b2n differ)) }
      if s.tbl.comparePos + 1 < compareTotal then t.updTbl fun x => { x with comparePos := x.comparePos + 1 }
      else t.updTbl fun x => { x with comparePos := 0, compareDt := s.tb.dt, compareDone := x.compareDone + 1 }
    else s)

/-- 08 R307, R308: SHADOW_SET names the shadow's region and starts filling it, or removes the shadow. (Log entry 55.) -/
def execShadowSet (o : Order) (s : State) : Host.Outcome State Fault Refusal :=
  let p := o.f 0 2
  .next (runOrder (setForm 0x4809 [0x85] 0 [(0, 2), (76, 52)] modesSet true) o s { malformed := p == 2 } fun t =>
    if p = 3 then
      (if t.tbl.shadow = .valid ∨ t.tbl.shadow = .filling then shadowLost t 3 else t, .done stSuccess 0)
    else
      let u := if t.tbl.shadow = .filling then shadowLost t 3 else t
      (u.updTbl fun x => { x with shadow := .filling, shadowPort := p, shadowAddr := o.f 64 64 }, .later))

/-- The images of the shadow that are not those of an empty location, by their offsets in the region (08 R307). -/
def shadowImages (s : State) : List (Nat × List Byte) :=
  let at_ := fun (mem loc : Nat) => (shadowOffset mem + loc * imageSize mem, imageBytes s mem loc true)
  s.tbl.em.map (fun kv => at_ 0 kv.1) ++ (List.range s.tbl.lpm4.length).map (fun i => at_ 1 (lpmUnit false i)) ++
    (List.range s.tbl.lpm6.length).map (fun i => at_ 1 (lpmUnit true i)) ++ s.tbl.acl.map (fun kv => at_ 2 kv.1) ++
    s.tbl.act.map (fun kv => at_ 3 kv.1)

/-- 08 R307: the region is filled; SHADOW_STATE is valid and SHADOW_SET completes. (Log entry 55.) -/
def execShadowFillDone (s : State) : Host.Outcome State Fault Refusal :=
  .next (
    if s.tbl.shadow ≠ .filling then s else
    let t := (s.emit (.shadowFill (shadowMaster s) s.tbl.shadowAddr (shadowImages s))).updTbl fun x => { x with shadow := .valid }
    let t := postAll t 0x0805 0 t.tbl.shadowPort
    match findRunning t 0x4809 fun _ => true with
    | some r => finishOrder t r stSuccess 0
    | none => t)

/-- 08 R308: a DMA access to the shadow fails (cause 1), or its host port was reset or is detached (cause 2). -/
def execShadowFault (cause : Nat) (s : State) : Host.Outcome State Fault Refusal :=
  .next (
    let on := s.tbl.shadow == .valid || s.tbl.shadow == .filling
    if on && (cause == 1 || (cause == 2 && !attached s (shadowMaster s))) then shadowLost s cause else s)

end Sys2Proof.Machine
end

