-- ==== Sys2Proof/Machine/Versions.lean ====
section
/-! DEFINITION. The commands of chapter 07 that read, write, open, commit, discard and retire rule versions. -/

namespace Sys2Proof.Machine

/-! Reads -/

/-- A slot of READ_VERSIONS (07 Table 7-12). -/
def slotRecord (v : VSlot) : Nat :=
  if v.state = 0 then 0 else packN [(0, 16, verNum v.seq), (16, 3, v.state), (32, 32, v.inFlight)]

/-- READ_VERSIONS's result (07 Table 7-12). -/
def versionsRecord (s : State) : Nat :=
  packN ([(0, 128, s.ver.stagedFp.toNat), (128, 96, (dtWord s.ver.commitDt).toNat), (224, 1, b2n s.ver.pend.isSome)] ++
    (s.ver.slots.zipIdx.map fun x => (256 + 64 * x.2, 64, slotRecord x.1)))

/-- 07 R260: READ_VERSIONS. -/
def execReadVersions (o : Order) (s : State) : Host.Outcome State Fault Refusal :=
  .next (runOrder (readForm 0x0701 [0x74] 0 [] 128 modesOn) o s {} fun t =>
    (t, .result (bytesLE 128 (versionsRecord t)) 0))

/-- 07 R260: READ_PARSER. -/
def execReadParser (o : Order) (s : State) : Host.Outcome State Fault Refusal :=
  .next (runOrder (readForm 0x0702 [0x71] 0x8000FF [] 64 modesOn) o s {} fun t =>
    (t, .result (bytesLE 64 (parserWord t (o.inst % 256) (readSeq t o)).toNat) 0))

/-- 07 R260: READ_STAGE. -/
def execReadStage (o : Order) (s : State) : Host.Outcome State Fault Refusal :=
  .next (runOrder (readForm 0x0703 [0x73] 0x80001F [] 128 modesOn) o s { badObject := decide (23 < o.inst % 32) } fun t =>
    (t, .result (bytesLE 128 (stageWord t (o.inst % 32) (readSeq t o)).toNat) 0))

/-! Writes of versioned programs (07 R239, R240) -/

/-- NEXT of transition `k` and the fields of extraction `j` of a parser state word (07 Table 7-1). -/
def transNext (w : BitVec 320) (k : Nat) : Nat := fld w (10 + 41 * k + 32) 9
def extSrc (w : BitVec 320) (j : Nat) : Nat := fld w (183 + 20 * j) 8
def extCount (w : BitVec 320) (j : Nat) : Nat := fld w (183 + 20 * j + 8) 4
def extDst (w : BitVec 320) (j : Nat) : Nat := fld w (183 + 20 * j + 12) 6
def extEmit (w : BitVec 320) (j : Nat) : Bool := bit w (183 + 20 * j + 18)

/-- What PARSER_SET refuses with BAD_ARGUMENT (07, Table 7-1). (Log entry 44.) -/
def parserBad (w : BitVec 320) : Bool :=
  (List.range 4).any (fun k => decide (0x101 < transNext w k)) || decide (0x101 < fld w 174 9) ||
    (List.range 4).any fun j =>
      decide (8 < extCount w j) || (decide (1 ≤ extCount w j) &&
        (decide (extDst w j < 8) || decide (47 < extDst w j) || decide (47 < extDst w j + extCount w j - 1)))

/-- The fields of a parser state word (07 Table 7-1): all but its reserved bits. (Log entry 44.) -/
def parserFields : List (Nat × Nat) :=
  [(0, 9), (10, 192), (203, 19), (223, 19), (243, 19), (263, 18), (282, 8)]

/-- 07 R224, R239, R240: PARSER_SET. -/
def execParserSet (o : Order) (s : State) : Host.Outcome State Fault Refusal :=
  let d := directBit o
  let n := o.inst % 256
  .next (runOrder (setForm 0x4701 [0x71] 0x8000FF parserFields modesSet true) o s
    { version := versionCheck s d, badArgument := parserBad o.payload } fun t =>
    let u := contentsFp t (parserC t n) d (parserElement n) parserReset o.payload
    let c := writeContents t (parserC t n) d o.payload
    (directDone (u.updVer fun x => { x with parser := SMap.put (fun _ => []) x.parser n c }) d, .done stSuccess 0))

/-- 07 R223, R239, R240: PORT_PARSE_SET. -/
def execPortParseSet (o : Order) (s : State) : Host.Outcome State Fault Refusal :=
  let d := directBit o
  let n := o.inst % 512
  let w := BitVec.ofNat 19 (o.f 0 19)
  .next (runOrder (setForm 0x4702 [0x72] 0x8001FF [(0, 19)] modesSet true) o s
    { version := versionCheck s d, badArgument := decide (0x101 < o.f 0 9) || decide (0x101 < o.f 9 9) } fun t =>
    let u := contentsFp t (profileC t n) d (profileElement n) profileReset w
    let c := writeContents t (profileC t n) d w
    (directDone (u.updVer fun x => { x with profile := SMap.put (fun _ => []) x.profile n c }) d, .done stSuccess 0))

/-- Hit action and miss action `k` of a stage program (07 Table 7-3). -/
def hitAction (w : BitVec 1024) (k : Nat) : Nat := fld w (160 + 32 * k) 32
def missAction (w : BitVec 1024) (k : Nat) : Nat := fld w (416 + 32 * k) 32

/-- An action that R232 refuses in stage `n`: a reserved OP, one not of the stage's direction, a wrong DST or DROP cause.
(Log entry 44.) -/
def actionBad (n a : Nat) : Bool :=
  let op := nfld a 26 6
  let dst := nfld a 20 6
  let writes := op == 1 || op == 2 || op == 3 || op == 4
  let ingressOnly := op == 5 || op == 6 || op == 7 || op == 0x0A || op == 0x0B || op == 0x0C || op == 0x0D
  decide (0x0E < op) || (decide (16 ≤ n) && ingressOnly) || (if writes then decide (dst < 8) else dst != 0) ||
    (op == 8 && (decide (nfld a 0 8 < 1) || decide (0x7F < nfld a 0 8)))

/-- What STAGE_SET refuses with BAD_ARGUMENT (07 R232), its table judged in version `v`. Every slot is tested, those beyond the
counts too. (Log entry 44.) -/
def stageBad (s : State) (n v : Nat) (w : BitVec 1024) : Bool :=
  let k := fld w 0 2
  let id := fld w 2 12
  let keys := fld w 14 5
  decide (20 < keys) || decide (8 < fld w 140 4) || decide (8 < fld w 144 4) ||
    (List.range 8).any (fun i => actionBad n (hitAction w i) || actionBad n (missAction w i)) ||
    (k != 0 && (decide (tableCount k ≤ id) || !tableExists s k id v ||
      (decide (1 ≤ keys) && decide (tableKeyBits s k id v ≤ (keys - 1) * 32))))

/-- The fields of a stage program (07 Table 7-3). (Log entry 44.) -/
def stageFields : List (Nat × Nat) := [(0, 19), (20, 128), (160, 512)]

/-- 07 R232, R239, R240: STAGE_SET. -/
def execStageSet (o : Order) (s : State) : Host.Outcome State Fault Refusal :=
  let d := directBit o
  let n := o.inst % 32
  let word := fun (bs : List Byte) => BitVec.ofNat 1024 (leNat (padTo 128 bs))
  .next (runPtr (ptrForm 0x4703 [0x73] 0x80001F modesSet true) o s
    { malformed := ptrLen o != 128, version := versionCheck s d, badObject := decide (23 < n) }
    (fun bs =>
      { malformed := !onlyFields (word bs).toNat stageFields, version := versionCheck s d,
        badArgument := stageBad s n (targetSeq s d) (word bs) })
    fun bs t =>
      let u := contentsFp t (stageC t n) d (stageElement n) 0 (word bs)
      let c := writeContents t (stageC t n) d (word bs)
      (directDone (u.updVer fun x => { x with stages := SMap.put (fun _ => []) x.stages n c }) d, .done stSuccess 0))

/-! Opening, committing, discarding, retiring -/

/-- 07 R238: STAGE_OPEN. -/
def execStageOpen (o : Order) (s : State) : Host.Outcome State Fault Refusal :=
  let c : Checks :=
    { chapter := if (stagedSeq s).isSome then some 0x8703
                 else if (slotIn s 0).isNone then some 0x8704 else none }
  .next (runOrder (setForm 0x4704 [0x74] 0 [] modesSet true) o s c fun t =>
    let a := activeSeq t
    let i := t.ver.slots.findIdx fun v => v.state == 0
    (t.updVer fun x => { x with slots := x.slots.set i ⟨1, a + 1, 0, bankSel t a, 0⟩, stagedFp := t.fp.active },
      .done stSuccess (verNum (a + 1))))

/-- The bank that a COMMIT selects (07 Table 7-11). -/
def commitBank (s : State) (o : Order) : Option Bool :=
  if o.b 226 then bankSel s (activeSeq s) else some (o.b 225)

/-- 07 R241: COMMIT; a mismatch reports bits [63:0] of the staged fingerprint. (Log entry 42.) -/
def execCommit (o : Order) (s : State) : Host.Outcome State Fault Refusal :=
  let at_ := o.f 129 96
  let c : Checks :=
    { badArgument := o.b 128 && (!dtOk at_ || decide (s.tb.dt + dtSec < dtCount at_)),
      chapter := if (stagedSeq s).isNone then some 0x8702 else if s.ver.pend.isSome then some 0x8705 else none }
  .next (runOrder (setForm 0x4705 [0x74] 0 [(0, 227)] modesSet true) o s c fun t =>
    let bank := commitBank t o
    let fp := stagedFingerprint t bank
    if fp ≠ BitVec.ofNat 128 (o.f 0 128) then (t, .done 0x8701 (fld fp 0 64))
    else if (match bank with | some b => (bankOf t b).state != 2 | none => false) then (t, .done 0x8706 0)
    else
      let early := t.tb.dt + 2 * dtUs
      let tc := if o.b 128 then max (dtCount at_) early else early
      (t.updVer fun x => { x with pend := some ⟨tc, o.b 128 && tc != dtCount at_, bank, fp⟩, commitDt := tc }, .later))

/-- 07 R246: STAGE_DISCARD. -/
def execStageDiscard (o : Order) (s : State) : Host.Outcome State Fault Refusal :=
  let c : Checks :=
    { chapter := if (stagedSeq s).isNone then some 0x8702 else if s.ver.pend.isSome then some 0x8705 else none }
  .next (runOrder (setForm 0x4706 [0x74] 0 [] modesSet true) o s c fun t =>
    (dropStage t, .done stSuccess (verNum ((stagedSeq t).getD 0))))

/-- The staged version becomes active at T_c (07 R242; 08 R316; 01 R37): the fingerprints, ACTIVE_VERSION and the slots. A
change since the acceptance that diverged the configuration leaves it so (log entry 8). -/
def commitNow (s : State) (p : PendCommit) (v : Nat) : State :=
  let fp := stagedFingerprint s p.bank
  let t := s.updVer fun x =>
    { x with pend := none, stagedFp := 0,
             slots := x.slots.map fun w =>
               if w.state = 2 then { w with state := 3, ended := p.tc }
               else if w.state = 1 then { w with state := 2, bank := p.bank } else w }
  let t := t.updFp fun f =>
    { f with active := fp, committed := p.expected, committedValid := true, activeVersion := BitVec.ofNat 16 (verNum v) }
  if fp = p.expected then divergeEnd t fp.toNat (verNum v) else t

/-- Once T_c has come the staged version becomes active and COMMIT completes (07 R242). (Log entry 8.) -/
def commitTakes (s : State) : State :=
  match s.ver.pend, stagedSeq s with
  | some p, some v =>
    if s.tb.dt < p.tc then s else
    let t := commitNow s p v
    match findRunning t 0x4705 fun _ => true with
    | some r =>
      finishOrder t r (if p.moved then 0x0701 else stSuccess)
        (packN [(0, 16, verNum v), (16, 16, verNum (activeSeq s)), (32, 32, fld (dtWord p.tc) 16 32)])
    | none => t
  | _, _ => s

/-- 07 R242: the commit instant. (Log entry 5.) -/
def execCommitInstant (s : State) : Host.Outcome State Fault Refusal := .next (commitTakes s)

/-- A version that may retire (07 R245). -/
def mayRetire (s : State) (v : VSlot) : Bool :=
  v.state == 3 && v.inFlight == 0 && decide (v.ended + 10 * dtUs ≤ s.tb.dt)

/-- 07 R245: a version that is no longer active retires; its slot is free. -/
def execVersionRetired (s : State) : Host.Outcome State Fault Refusal :=
  .next (
    match s.ver.slots.find? (mayRetire s) with
    | some v =>
      postAll (s.updVer fun x => { x with slots := x.slots.map fun w => if w = v then VSlot.free else w }) 0x0701 0
        (packN [(0, 16, verNum v.seq), (16, 48, s.tb.dt / dtSec)])
    | none => s)

end Sys2Proof.Machine
end

