-- ==== Sys2Proof/Machine/Pipeline.lean ====
section
/-! DEFINITION. The parser and the match stages as they run on a packet (07 R223 to R237). -/

namespace Sys2Proof.Machine

/-! The parser (07 R224, R225) -/

/-- A parse under way: the cursor, owner flags, containers, the containers of FLOW_KEY states, the frame offset from which
each container was last extracted with EMIT, the state reached and the states run. -/
structure Parse where
  cursor : Nat
  flags : Nat
  hv : List (BitVec 32)
  flow : List Nat
  emits : List (Nat × Nat)
  trunc : Bool
  limit : Bool
  state : Nat
  visits : Nat
deriving DecidableEq, Repr

/-- A parse about to enter a start state. -/
def Parse.start (st : Nat) : Parse :=
  { cursor := 0, flags := 0, hv := List.replicate 64 0, flow := [], emits := [], trunc := false, limit := false,
    state := st, visits := 0 }

/-- The parser cannot see byte `i` of a frame (07 R225). -/
def unseen (frame : List Byte) (i : Nat) : Bool := decide (256 ≤ i) || decide (frame.length - 4 ≤ i)

/-- Byte `i` of a frame as the parser reads it. -/
def pbyte (frame : List Byte) (i : Nat) : Nat := if unseen frame i then 0 else (frame.getD i 0).toNat

/-- `n` bytes from `i` as a number, first byte most significant, and whether some of them read as zero. -/
def pbytes (frame : List Byte) (i n : Nat) : Nat × Bool :=
  ((List.range n).foldl (fun a k => a * 256 + pbyte frame (i + k)) 0, (List.range n).any fun k => unseen frame (i + k))

/-- One 4-byte container extracted. -/
def extractOne (frame : List Byte) (off dst : Nat) (emit : Bool) (p : Parse) : Parse :=
  let b := pbytes frame off 4
  { p with hv := p.hv.set dst (BitVec.ofNat 32 b.1), trunc := p.trunc || b.2,
           emits := if emit then (dst, off) :: p.emits.filter (fun e => e.1 != dst) else p.emits }

/-- Extraction `j` of a state (07 R224 action 2). -/
def extract (frame : List Byte) (w : BitVec 320) (j : Nat) (p : Parse) : Parse :=
  let n := extCount w j
  let d := extDst w j
  let q := (List.range n).foldl (fun p i => extractOne frame (p.cursor + extSrc w j + 4 * i) (d + i) (extEmit w j) p) p
  if bit w 280 then { q with flow := q.flow ++ (List.range n).map fun i => d + i } else q

/-- The next state for a key (07 R224 action 5). -/
def parseNext (w : BitVec 320) (key : Nat) : Nat :=
  match (List.range 4).find? fun k =>
      let v := fld w (10 + 41 * k) 16
      let m := fld w (10 + 41 * k + 16) 16
      !(v == 0 && m == 0 && transNext w k == 0) && (key &&& m) == (v &&& m) with
  | some k => transNext w k
  | none => fld w 174 9

/-- One state's actions (07 R224). -/
def parseState (frame : List Byte) (w : BitVec 320) (p : Parse) : Parse :=
  let key := pbytes frame (p.cursor + fld w 0 8) (if bit w 8 then 2 else 1)
  let q := [0, 1, 2, 3].foldl (fun q j => extract frame w j q) { p with trunc := p.trunc || key.2 }
  let nib := pbytes frame (p.cursor + fld w 272 8) 1
  let adv := fld w 263 8 + (if bit w 271 then 4 * (nib.1 % 16) else 0)
  { q with trunc := q.trunc || (bit w 271 && nib.2), cursor := p.cursor + adv, flags := q.flags ||| fld w 282 8,
           state := parseNext w key.1, visits := p.visits + 1 }

/-- The parse run to its end under the states that version `v` sees, at most 32 of them (07 R225). (Log entry 45.) -/
def parseRun (s : State) (v : Nat) (frame : List Byte) : Nat → Parse → Parse
  | 0, p => if 0x100 ≤ p.state then p else { p with limit := true }
  | n + 1, p =>
    if 0x100 ≤ p.state then p else parseRun s v frame n (parseState frame (parserWord s p.state v) p)

/-- CRC-64 of ECMA-182, initial value all ones, final value inverted (07 R229). -/
def crc64 (bs : List Byte) : BitVec 64 :=
  BitVec.ofNat 64 (crcMsb 64 0x42F0E1EBA9EA3693 (2 ^ 64 - 1) bs ^^^ (2 ^ 64 - 1))

/-- FLOW_HASH of a finished parse (07 R229). -/
def parseHash (p : Parse) : Nat :=
  let cs := (List.range 64).filter fun i => p.flow.contains i
  if cs.isEmpty then 0 else (crc64 (cs.flatMap fun i => bytesBE 4 (p.hv.getD i 0).toNat)).toNat

/-- The header vector after the ingress parse (07 Table 7-2). -/
def ingressHv (p : Parse) (port len ver dt : Nat) (spray diverged : Bool) : List (BitVec 32) :=
  let h := parseHash p
  let d := (dtWord dt).toNat
  let w := fun n => BitVec.ofNat 32 n
  [w (packN [(0, 9, port), (16, 14, len)]),
   w (packN [(0, 16, verNum ver), (16, 1, b2n p.trunc), (17, 1, b2n p.limit), (18, 1, b2n spray), (19, 1, b2n diverged),
     (24, 8, p.flags)]),
   w d, w (d / 2 ^ 32), w (d / 2 ^ 64), w (packN [(0, 9, min p.cursor 256), (9, 9, p.state), (18, 6, p.visits)]),
   w h, w (h / 2 ^ 32)] ++ p.hv.drop 8

/-! Match stages (07 R230 to R233) -/

/-- A packet in the stages: containers, decision, the containers written, whether STOP has run. -/
structure StageRun where
  hv : List (BitVec 32)
  dec : Decision
  wrote : List Nat
  stop : Bool
deriving DecidableEq, Repr

/-- A destination set, unless DROP is set (07 R233). -/
def decideTo (d : Decision) (kind id queue : Nat) : Decision :=
  if d.drop then d else { d with kind := kind, id := id, queue := queue }

/-- One action (07 Table 7-4): `hv0` are the containers as the packet entered the stage, `ad` the action data.
(Log entry 45.) -/
def runAction (hv0 : List (BitVec 32)) (ad : BitVec 64) (a : Nat) (r : StageRun) : StageRun :=
  let arg := nfld a 0 20
  let dst := nfld a 20 6
  let put := fun (v : BitVec 32) => { r with hv := r.hv.set dst v, wrote := dst :: r.wrote }
  let d := r.dec
  match nfld a 26 6 with
  | 0x01 => put (BitVec.ofNat 32 arg)
  | 0x02 => put (BitVec.ofNat 32 (fld ad (if arg % 2 = 1 then 32 else 0) 32))
  | 0x03 => put (hv0.getD (arg % 64) 0)
  | 0x04 => put (hv0.getD dst 0 + BitVec.ofNat 32 arg)
  | 0x05 => { r with dec := decideTo d 1 (nfld arg 0 9) (nfld arg 9 4) }
  | 0x06 => if fld ad 0 3 = 0 then r else { r with dec := decideTo d (fld ad 0 3) (fld ad 3 16) (fld ad 19 4) }
  | 0x07 => { r with dec := decideTo d d.kind d.id (arg % 16) }
  | 0x08 => { r with dec := { d with drop := true, cause := arg % 256 } }
  | 0x09 => { r with dec := { d with hostCopy := true, hostQueue := arg % 64, reason := nfld arg 6 14 } }
  | 0x0A =>
    { r with dec := { decideTo d 6 d.id d.queue with hostCopy := true, hostQueue := arg % 64, reason := nfld arg 6 14 } }
  | 0x0B => if d.drop then r else { r with dec := { d with lathe := arg % 256 } }
  | 0x0C => { r with dec := decideTo d 7 (arg % 64) d.queue }
  | 0x0D => { r with stop := true }
  | 0x0E => { r with dec := { d with capture := arg % 16 } }
  | _ => r

/-- What a stage's lookup answers: the action data of a hit. Hit bits are set in the quadrant of the slice, and at ingress a
miss or a moved station makes its request (08 R270, R280, R287, R290). (Log entries 45 and 54.) -/
def stageLookup (s : State) (slice ver kind table : Nat) (ingress : Option Nat) (cs : List (BitVec 32)) :
    State × Option (BitVec 64) :=
  if !tableExists s kind table ver then (s, none) else
  let kb := tableKeyBits s kind table ver
  match kind with
  | 1 =>
    let key := BitVec.ofNat 128 (alignKey 128 kb cs)
    match emLookup s table ver key with
    | some (l, c) =>
      let t := hitEm s l (c.hits ||| BitVec.ofNat 4 (2 ^ (slice / 8)))
      match ingress with
      | some port =>
        if (learnSet s table).moveUpdate && c.learned && fld c.ad 0 9 != port then
          (learnRequest t ⟨true, table, key, port⟩, some c.ad)
        else (t, some c.ad)
      | none => (t, some c.ad)
    | none =>
      match ingress with
      | some port => if (learnSet s table).learn then (learnRequest s ⟨false, table, key, port⟩, none) else (s, none)
      | none => (s, none)
  | 2 =>
    match lpmFind s table ver (tableIpv6 s table ver) (BitVec.ofNat 128 (alignKey 128 kb cs)) with
    | some e => (s, some (actWord s e.action ver))
    | none => (s, none)
  | _ =>
    match aclFind s table ver kb (BitVec.ofNat 640 (alignKey 640 kb cs)) with
    | some r => (s, some (actWord s r.action ver))
    | none => (s, none)

/-- One stage (07 R230, R231), counted as a hit or a miss of its slice (15 Table 15-5). (Log entry 45.) -/
def runStage (n slice ver : Nat) (ingress : Option Nat) (x : State × StageRun) : State × StageRun :=
  let s := x.1
  let r := x.2
  if r.stop then x else
  let w := stageWord s n ver
  let kind := fld w 0 2
  let cs := (List.range (fld w 14 5)).map fun j => r.hv.getD (fld w (20 + 6 * j) 6) 0
  let look := if kind = 0 then (s, none) else stageLookup s slice ver kind (fld w 2 12) ingress cs
  let t := if kind = 0 then look.1 else
    selBump look.1 slice 1 fun c => c.event == (if look.2.isSome then 0x200 else 0x220) + n
  let acts := match look.2 with
    | some _ => (List.range (fld w 140 4)).map (hitAction w)
    | none => (List.range (fld w 144 4)).map (missAction w)
  (t, acts.foldl (fun q a => runAction r.hv (look.2.getD 0) a q) r)

/-- The ingress stages IS0 to IS15. -/
def runIngress (s : State) (port ver : Nat) (hv : List (BitVec 32)) : State × StageRun :=
  (List.range 16).foldl (fun x n => runStage n (sliceOf port) ver (some port) x) (s, ⟨hv, Decision.reset, [], false⟩)

/-! The egress parse and stages (07 R236, R237) -/

/-- A copy as it leaves ES7: its bytes, the cause of a drop, what it asks of the host and of capture. -/
structure Egressed where
  frame : List Byte
  drop : Option Nat
  host : Option (Nat × Nat)
  capture : Nat
deriving DecidableEq, Repr

/-- Bytes stored from offset `i`, none at or beyond `lim`. -/
def putBytes : List Byte → Nat → Nat → List Byte → List Byte
  | f, _, _, [] => f
  | f, i, lim, b :: bs => putBytes (if i < lim then f.set i b else f) (i + 1) lim bs

/-- A frame with the containers that egress stages wrote put back where the parse last extracted them with EMIT (07 R237). -/
def writeBack (frame : List Byte) (emits : List (Nat × Nat)) (r : StageRun) : List Byte :=
  let lim := min 256 (frame.length - 4)
  emits.foldl (fun f e =>
    if r.wrote.contains e.1 then putBytes f e.2 lim (bytesBE 4 (r.hv.getD e.1 0).toNat) else f) frame

/-- The egress parse and stages of a copy on `port` (07 R223, R226, R236, R237). -/
def runEgress (s : State) (p : Pkt) (port : Nat) : State × Egressed :=
  let q := parseRun s p.ver p.frame 32 (Parse.start (fld (profileWord s port p.ver) 9 9))
  if q.state = 0x101 then (s, ⟨p.frame, some 0x80, none, 0⟩) else
  let hv := p.hv.take 8 ++ (q.hv.drop 8).take 40 ++ (p.hv.drop 48).take 8 ++ List.replicate 8 0
  let x := [16, 17, 18, 19, 20, 21, 22, 23].foldl (fun x n => runStage n (sliceOf port) p.ver none x)
    (s, (⟨hv, Decision.reset, [], false⟩ : StageRun))
  let r := x.2
  (x.1, ⟨writeBack p.frame q.emits r, if r.dec.drop then some r.dec.cause else none,
    if r.dec.hostCopy then some (r.dec.hostQueue, r.dec.reason) else none, r.dec.capture⟩)

end Sys2Proof.Machine
end

