-- ==== Sys2Proof/Machine/StoreOps.lean ====
section
/-! DEFINITION. Steps 6 and 7 of the packet path: admission of copies (09 R337 to R344), the plan of what a packet becomes,
its delivery, and the order that a spray receiver restores (07 R251 to R254). -/

namespace Sys2Proof.Machine

/-! DRAM overflow (09 R343) -/

/-- The stored frame length of a copy. (Log entry 61.) -/
def copyLen (s : State) (c : Copy) : Nat := match getStored s c.pkt with | some x => x.pkt.frame.length | none => 0

/-- A copy in a queue's DRAM part that holds its billet: it goes through no DRAM write, and waits only for its turn. -/
def resident (s : State) (d : DramCopy) : Bool :=
  d.written && (match getStored s d.copy.pkt with | some x => x.ptr.isSome || x.kind != .packet | none => true)

/-- Bytes of a queue in the overflow region, writes under way included; and those of the device's waiting writes. -/
def dramBytes (s : State) (q : Nat) : Nat :=
  sumN (((getQueue s q).dram.filter fun d => !resident s d).map fun d => copyLen s d.copy)
def stagedBytes (s : State) : Nat :=
  sumN (s.buf.queues.flatMap fun kv => (kv.2.dram.filter fun d => !d.written).map fun d => copyLen s d.copy)

/-- A write to DRAM is refused (09 R343). -/
def dramRefused (s : State) (q len : Nat) : Bool :=
  decide ((getQueue s q).ovfLimitMib * 2 ^ 20 < dramBytes s q + len) ||
    decide (s.buf.ovfForce * 2 ^ 20 < s.buf.ovfBytes + stagedBytes s + len) || decide (4 * 2 ^ 20 < stagedBytes s)

/-- What admission makes of a copy. -/
inductive Adm where
  | die
  | dram
  | drop (cause : Nat)
deriving DecidableEq, Repr

/-- The tests of 09 R338, R340 and R343 for a copy: `single` says that its packet has no other reference. -/
def admitCopy (s : State) (q b len : Nat) (lossless single : Bool) : Adm :=
  let x := getQueue s q
  let toDram := if dramRefused s q len then Adm.drop 0x95 else Adm.dram
  if x.ovfEn && x.spilling && single then toDram
  else if (lossless && !(getQs s q).storm) || admits s q b then .die
  else if x.ovfEn && single && !lossless then toDram
  else .drop 0x91

/-- A refused copy counted. (Log entry 50.) -/
def refuseCopy (s : State) (q cause : Nat) : State := if cause = 0x95 then overflowFull s q else admissionDrop s q

/-- Copies of a packet tested in order of port (09 R339): those admitted are charged at once. (Log entry 50.) -/
def admitAll (s : State) (b len : Nat) (lossless single : Bool) : List Nat → State × List Target × Nat
  | [] => (s, [], 0)
  | q :: qs =>
    match admitCopy s q b len lossless single with
    | .die =>
      let r := admitAll (updQueue s q fun x => { x with resv := x.resv + b }) b len lossless single qs
      (r.1, ⟨q, false, occOf (getQueue s q)⟩ :: r.2.1, r.2.2)
    | .dram => let r := admitAll s b len lossless single qs; (r.1, ⟨q, true, occOf (getQueue s q)⟩ :: r.2.1, r.2.2)
    | .drop c => let r := admitAll (refuseCopy s q c) b len lossless single qs; (r.1, r.2.1, if r.2.2 = 0 then c else r.2.2)

/-! Queues -/

/-- A copy put at the tail of a queue: behind what stands in DRAM it keeps its billet and waits its turn. -/
def enqueue (s : State) (q : Nat) (c : Copy) (len : Nat) : State :=
  if (getQueue s q).dram.isEmpty then enqueueDie s q c len
  else
    let t := updQueue s q fun x => { x with dram := x.dram ++ [⟨c, true⟩], resv := x.resv + c.bytes }
    wdRefresh (queueEvent (queueEvent t q 0 1) q 1 len) q

/-- A copy put at the tail of a queue's DRAM part, its write begun: the queue is SPILLING (09 R343). (Log entry 61.) -/
def enqueueDram (s : State) (q : Nat) (c : Copy) (len : Nat) : State :=
  let t := updQueue s q fun x => { x with dram := x.dram ++ [⟨c, false⟩], spilling := true }
  wdRefresh (queueEvent (queueEvent (queueEvent t q 0 1) q 1 len) q 4 1) q

/-- One queue copy of a stored packet made. -/
def makeCopy (id bytes len : Nat) (s : State) (e : Target) : State :=
  let r := freshId s
  let q := e.queue
  if e.dram then enqueueDram r.2 q ⟨r.1, id, bytes, e.depth, none⟩ len
  else
    let b := billetBytes (fitPool len)
    enqueue (updQueue r.2 q fun x => { x with resv := x.resv - b }) q ⟨r.1, id, bytes, e.depth, none⟩ len

/-! Spray paths (07 R251, R254) -/

def getGroup (s : State) (g : Nat) : SprayGroup := SMap.get (fun _ => SprayGroup.reset) s.fwd.groups g
def updGroup (s : State) (g : Nat) (f : SprayGroup → SprayGroup) : State :=
  s.updFwd fun w => { w with groups := SMap.upd (fun _ => SprayGroup.reset) w.groups g f }

/-- The places of a group's members whose port has no LF defect, or all of them if none qualifies (07 R251). -/
def sprayQualified (s : State) (x : SprayGroup) : List Nat :=
  let all := List.range x.members.length
  let ok := all.filter fun i => !bit (getPcs s (x.members.getD i 0)).defects 4
  if ok.isEmpty then all else ok

/-- Bytes queued in a queue. -/
def queuedBytes (s : State) (q : Nat) : Nat := occOf (getQueue s q) + dramBytes s q

/-- The member that a sprayed packet takes (07 R251). (Log entry 49.) -/
def sprayChoice (s : State) (g queue : Nat) : Option Nat :=
  let x := getGroup s g
  let ok := sprayQualified s x
  if x.mode then
    ok.foldl (fun best i => match best with
      | none => some i
      | some j =>
        let a := x.members.getD i 0
        let b := x.members.getD j 0
        let qa := queuedBytes s (16 * a + queue)
        let qb := queuedBytes s (16 * b + queue)
        if qa < qb ∨ (qa = qb ∧ a < b) then some i else some j) none
  else
    match ok.find? fun i => decide (x.last < i) with
    | some i => some i
    | none => ok.head?

/-- FLOW and SEQ given to a sprayed packet as it takes path `port` (07 R251), which the epoch's paths then include (R254).
(Log entry 49.) -/
def sprayStamp (s : State) (id port : Nat) (p : Pkt) : State :=
  let g := p.dec.id % 64
  let flow := 1024 * g + flowHash p % 1024
  let x := getGroup s g
  let seq := SMap.get (fun _ => 0) s.fwd.seqs flow
  let t := s.updFwd fun w => { w with seqs := SMap.put (fun _ => 0) w.seqs flow (seq + 1) }
  let t := updGroup t g fun y =>
    { y with last := (y.members.idxOf? port).getD y.last,
             carried := y.carried.filter (fun c => c.port != port) ++ [⟨port, p.frame.take 12, p.dec.queue⟩] }
  updStored t id fun y =>
    { y with pkt := { y.pkt with tx := some ⟨s.fwd.spraySet.sender, flow, seq.toNat, x.epoch % 16, 0, 0⟩ } }

/-! Delivery at step 7 -/

/-- References a packet takes in a fan-out group: one for each member copy, or one for a packet that the group drops. -/
def fanRefs (s : State) (g : Nat) : Nat :=
  let y := getFan s g
  if 64 ≤ g ∨ y.enable = false ∨ y.limit ≤ (y.pkts.filter fun k => decide (s.tb.dt < k.sched)).length then 1
  else max 1 (membersOf s y.members).length

/-- The reference that a collective unit holds to the result it retains (13 R446). -/
def keptRef (s : State) (id : Nat) : Nat := b2n (s.coll.ctxs.any fun kv => kv.2.kept.any fun k => k.pkt == some id)

/-- References a plan creates (09 R331). -/
def planRefs (s : State) (p : Plan) : Nat :=
  p.queues.length + p.seq.toList.length + (match p.fan with | some g => fanRefs s g | none => 0) + p.ctx.toList.length +
    p.host.toList.length + p.cap.toList.length

/-- A host copy and a capture copy that wait to be written, counted at the ingress port (15 Table 15-4). -/
def hostCopyMade (s : State) (port : Nat) (c : HostCopy) : State :=
  portEvent (s.updFwd fun w => { w with hostCopies := w.hostCopies ++ [c] }) port 42 1
def capCopyMade (s : State) (port : Nat) (c : CapCopy) : State :=
  portEvent (s.updTel fun q => { q with cap := { q.cap with waiting := q.cap.waiting ++ [c] } }) port 43 1

/-- A capture copy of class `c` would be made (15 R492). -/
def capEnabled (s : State) (c : Nat) : Bool := c != 0 && (SMap.get (fun _ => CapClass.reset) s.tel.classes c).enable
/-- There is room for it: a capture region, and at most 16 MiB of billets held by waiting copies. -/
def capRoom (s : State) (bytes : Nat) : Bool :=
  s.buf.capForce != 0 && decide (sumN (s.tel.cap.waiting.map fun c => c.hold) + bytes ≤ 16 * 2 ^ 20)
/-- A capture copy or record lost (15 R492, R499). -/
def capLost (s : State) (c : Nat) : State :=
  let t := s.updTel fun q =>
    { q with cap := { q.cap with lost := q.cap.lost + 1, lostNow := q.cap.lostNow.modify c fun n => satAdd 64 n 1 } }
  winEvent t 0x0F03 c c 32 32 1

/-- A stored packet becomes what its plan says (01 R23): REFCOUNT is written with the number of references before any copy
is seen (09 R331), and the version counts them (07 R244). -/
def deliver (s : State) (id : Nat) (plan : Plan) : State :=
  match getStored s id with
  | none => s
  | some x =>
    let n := planRefs s plan + keptRef s id
    let t := updStored s id fun y => { y with refs := n, copies := n }
    let t := match x.ptr with | some ptr => putRec t ptr { getRec t ptr with refs := n } | none => t
    let t := countFlight t x.pkt.ver (n - 1) 0
    let t := if x.pkt.dec.kind = 7 ∧ x.pkt.dec.drop = false then
        plan.queues.foldl (fun u e => sprayStamp u id (e.queue / 16) x.pkt) t else t
    let t := plan.queues.foldl (makeCopy id x.bytes x.pkt.frame.length) t
    let t := match plan.host with
      | some h => hostCopyMade t x.pkt.port ⟨id, x.pkt.frame, h.1, h.2.1, none, h.2.2⟩
      | none => t
    let t := match plan.cap with
      | some c => capCopyMade t x.pkt.port
          ⟨id, c, x.pkt.frame.take ((SMap.get (fun _ => CapClass.reset) t.tel.classes c).snapLen), none, x.bytes⟩
      | none => t
    let t := match plan.seq with | some g => seqArrive t id g | none => t
    let t := match plan.fan with | some g => fanArrive t id g | none => t
    match plan.ctx with | some c => collArrive t id c | none => t

/-- What a held packet's admitted copies were charged given back, as it is dropped. -/
def planUndo (s : State) (len : Nat) (plan : Plan) : State :=
  plan.queues.foldl (fun t e =>
    if e.dram then t else updQueue t e.queue fun x => { x with resv := x.resv - billetBytes (fitPool len) }) s

/-! A spray receiver's order (07 R253, R254) -/

/-- How far `a` is ahead of `b`, modulo 2^32. -/
def ahead (a b : Nat) : Nat := (a + 2 ^ 32 - b % 2 ^ 32) % 2 ^ 32

/-- A context changed, by its sender and flow. -/
def updCtxOf (s : State) (c : SprayCtx) : State :=
  s.updFwd fun w => { w with ctxs := w.ctxs.map fun x => if x.sender = c.sender ∧ x.flow = c.flow then c else x }

/-- Markers of a group's old epoch are still awaited (07 R254). -/
def drainOpen (s : State) (d : SprayDrain) : Bool :=
  (d.paths == 0 || decide (d.got < d.paths)) && decide (s.tb.now < d.since + s.fwd.spraySet.drainLimitUs * 1000)

/-- The skip of a context's oldest gap is suspended (07 R254): it lies below the first SEQ of the new epoch, as every gap does of a
context that has not seen the new epoch. -/
def skipSuspended (s : State) (c : SprayCtx) : Bool :=
  let below := match c.firstNew with | some f => f != c.expected && decide (ahead f c.expected < 2 ^ 31) | none => false
  s.fwd.drains.any fun d => d.sender == c.sender && d.group == c.flow / 1024 && drainOpen s d && (d.epoch == c.epoch || below)

/-! Destinations -/

/-- The members of a multicast group that a packet's copies go to (07 R255, R256). (Log entry 50.) -/
def mcastPorts (s : State) (p : Pkt) : List Nat :=
  let x := SMap.get (fun _ => Mcast.reset) s.fwd.mcast p.dec.id
  if 4096 ≤ p.dec.id ∨ x.enable = false then []
  else (membersOf s x.members).filter fun n => !(x.prune && p.origin.isNone && n == p.port)

/-- The queue of a multicast copy. (Log entry 50.) -/
def mcastQueue (s : State) (p : Pkt) : Nat :=
  let x := SMap.get (fun _ => Mcast.reset) s.fwd.mcast p.dec.id
  if x.ovr then x.ovrQueue else p.dec.queue

/-- The egress queues that a decision names, or the cause for which it names none. -/
def namedQueues (s : State) (p : Pkt) : List Nat × Nat :=
  match p.dec.kind with
  | 1 => if portExists s p.dec.id = false ∨ 512 ≤ p.dec.id then ([], 0x81) else ([16 * p.dec.id + p.dec.queue], 0)
  | 2 =>
    let ps := mcastPorts s p
    (ps.map fun n => 16 * n + mcastQueue s p, if ps.isEmpty then 0x85 else 0)
  | 7 =>
    let g := p.dec.id
    match if 64 ≤ g then none else sprayChoice s g p.dec.queue with
    | some i => ([16 * (getGroup s g).members.getD i 0 + p.dec.queue], 0)
    | none => ([], 0x81)
  | 0 => ([], 0x81)
  | _ => ([], 0)

/-- Those of them that a sequencer group reserves (12 R410). -/
def refusedQueues (s : State) (p : Pkt) : List Nat := (namedQueues s p).1.filter fun q => (reservedBy s q).isSome

/-- The egress queues that a packet's copies go to, or the cause for which there are none. -/
def destQueues (s : State) (p : Pkt) : List Nat × Nat :=
  let n := namedQueues s p
  let open_ := n.1.filter fun q => (reservedBy s q).isNone
  (open_, if n.2 ≠ 0 then n.2 else if open_.isEmpty && !n.1.isEmpty then 0xC3 else 0)

/-! Held packets -/

/-- A held packet delivered (07 R253). A sprayed one takes its path now, with its FLOW and SEQ (R251): its admission stands, charged to
the queue of that path. -/
def deliverHeld (s : State) (id : Nat) (plan : Plan) : State :=
  match getStored s id with
  | none => s
  | some x =>
    match decide (x.pkt.dec.kind = 7) && !x.pkt.dec.drop, plan.queues with
    | true, [e] =>
      let len := x.pkt.frame.length
      let t := planUndo s len plan
      let t := (refusedQueues t x.pkt).foldl reservedDrop t
      match destQueues t x.pkt with
      | (q :: _, _) =>
        deliver (if e.dram then t else updQueue t q fun y => { y with resv := y.resv + billetBytes (fitPool len) }) id
          { plan with queues := [⟨q, e.dram, occOf (getQueue t q)⟩] }
      | ([], cause) =>
        let bare := { plan with queues := [] }
        if planRefs t bare + keptRef t id = 0 then dropRef t id x.pkt.port cause .none
        else deliver (updStored (countDrop t x.pkt.port cause) id fun y => { y with cause := cause }) id bare
    | _, _ => deliver s id plan

/-- Held packets released while the next expected one is held, `n` at most. -/
def releaseRun : Nat → State → SprayCtx → State × SprayCtx
  | 0, s, c => (s, c)
  | n + 1, s, c =>
    match c.held with
    | h :: hs =>
      if h.seq = c.expected then
        releaseRun n (deliverHeld s h.pkt h.plan) { c with held := hs, expected := (c.expected + 1) % 2 ^ 32 }
      else (s, c)
    | [] => (s, c)

/-- The oldest gap of a context skipped and counted, and what then is in order released. (Log entry 49.) -/
def skipGap (s : State) (c : SprayCtx) : State × SprayCtx :=
  match c.held with
  | h :: _ =>
    releaseRun c.held.length s { c with expected := h.seq, skipped := c.skipped + ahead h.seq c.expected }
  | [] => (s, c)

/-- Oldest gaps skipped until `seq` is less than 256 ahead, or nothing is held. -/
def skipTo (seq : Nat) : Nat → State → SprayCtx → State × SprayCtx
  | 0, s, c => (s, c)
  | n + 1, s, c =>
    if ahead seq c.expected < 256 ∨ c.held.isEmpty = true then (s, c)
    else let r := skipGap s c; skipTo seq n r.1 r.2

/-- A packet put among the held ones by SEQ. -/
def holdInsert (expected : Nat) (h : HeldSpray) : List HeldSpray → List HeldSpray
  | [] => [h]
  | x :: xs => if ahead h.seq expected < ahead x.seq expected then h :: x :: xs else x :: holdInsert expected h xs

/-- A SEQ still far ahead after the skips becomes the one expected, what lies between being skipped. (Log entry 49.) -/
def sprayJump (seq : Nat) (c : SprayCtx) : SprayCtx :=
  if 256 ≤ ahead seq c.expected then { c with skipped := c.skipped + ahead seq c.expected, expected := seq } else c

/-- What a SEQ far ahead makes of the context (07 R253): skips until it is within 256, then a jump to it, unless R254 suspends them. -/
def spraySkip (s : State) (sh : Shim) (c : SprayCtx) : State × SprayCtx :=
  if decide (256 ≤ ahead sh.seq c.expected) && !skipSuspended s c then
    let r := skipTo sh.seq (c.held.length + 1) s c
    (r.1, sprayJump sh.seq r.2)
  else (s, c)

/-- The packet with the SEQ expected next delivered, and those it releases. -/
def sprayNext (s : State) (id : Nat) (plan : Plan) (c : SprayCtx) : State :=
  let q := releaseRun c.held.length (deliver s id plan) { c with expected := (c.expected + 1) % 2 ^ 32 }
  updCtxOf q.1 q.2

/-- A packet of a context enqueued, held or dropped. One that a full context cannot hold, its skips being suspended, is enqueued without
reorder like one without a context (DESIGN CHOICE, log entry 49). -/
def sprayOrder (s : State) (id : Nat) (plan : Plan) (p : Pkt) (sh : Shim) (c : SprayCtx) : State :=
  let c0 := { c with lastAt := s.tb.now }
  if decide (2 ^ 31 ≤ ahead sh.seq c0.expected) || c0.held.any fun h => h.seq == sh.seq then
    dropRef (planUndo (updCtxOf s c0) p.frame.length plan) id p.port 0x84 .none
  else
    let r := spraySkip s sh c0
    if sh.seq = r.2.expected then sprayNext r.1 id plan r.2
    else if 256 ≤ r.2.held.length then
      deliver ((updCtxOf r.1 r.2).updFwd fun w => { w with noContext := w.noContext + 1 }) id plan
    else updCtxOf r.1 { r.2 with held := holdInsert r.2.expected ⟨sh.seq, sh.epoch, id, plan, s.tb.now⟩ r.2.held }

/-- Markers of epoch `epoch` of (sender, group) awaited from now on. -/
def drainSeen (s : State) (sender group epoch : Nat) : State :=
  let same := fun (d : SprayDrain) => d.sender == sender && d.group == group && d.epoch == epoch
  let live := fun (d : SprayDrain) => decide (s.tb.now < d.since + s.fwd.spraySet.drainLimitUs * 1000)
  if s.fwd.drains.any (fun d => same d && live d) then s
  else s.updFwd fun w => { w with drains := w.drains.filter (fun d => !same d) ++ [⟨sender, group, epoch, 0, 0, s.tb.now⟩] }

/-- The epoch of a data packet noticed by its context: the first packet of a new one begins the wait for the old one's
markers (07 R254). -/
def noticeEpoch (s : State) (sh : Shim) (c : SprayCtx) : State × SprayCtx :=
  if sh.epoch = c.epoch then
    (s, { c with firstNew := c.firstNew.map fun f => if ahead sh.seq f < 2 ^ 31 then f else sh.seq })
  else if ahead sh.epoch c.epoch % 16 < 8 then
    (drainSeen s sh.sender (sh.flow / 1024) c.epoch, { c with epoch := sh.epoch, firstNew := some sh.seq })
  else (s, c)

/-- A stored packet at a spray receiver (07 R253): by its context, which it may begin. (Log entry 49.) -/
def sprayArrive (s : State) (id : Nat) (plan : Plan) (p : Pkt) (sh : Shim) : State :=
  match s.fwd.ctxs.find? fun c => c.sender == sh.sender && c.flow == sh.flow with
  | some c => let r := noticeEpoch s sh c; sprayOrder r.1 id plan p sh r.2
  | none =>
    if 65536 ≤ s.fwd.ctxs.length then
      deliver (s.updFwd fun w => { w with noContext := w.noContext + 1 }) id plan
    else
      let c : SprayCtx := ⟨sh.sender, sh.flow, (sh.seq + 1) % 2 ^ 32, [], s.tb.now, sh.epoch, none, 0⟩
      deliver (s.updFwd fun w => { w with ctxs := w.ctxs ++ [c] }) id plan

/-! Host and capture copies that a copy carries (09 R332) -/

/-- Copies that copy `c` carries and that are not yet written or discarded. -/
def carries (s : State) (c : Nat) : Bool :=
  s.fwd.hostCopies.any (fun h => h.carrier == some c) || s.tel.cap.waiting.any fun h => h.carrier == some c

/-- The end of a copy's own reference, which waits for what it carries. -/
def endCopy (s : State) (id c : Nat) (u : BilletUpset) : State :=
  if carries s c then s.updFwd fun w => { w with deferred := w.deferred ++ [(c, id)] } else endRef s id u

/-- A carried copy is written or discarded: the last one ends a reference that waits. -/
def carriedDone (s : State) (c : Nat) (u : BilletUpset) : State :=
  if carries s c then s else
  match s.fwd.deferred.find? fun d => d.1 == c with
  | some d => endRef (s.updFwd fun w => { w with deferred := w.deferred.erase d }) d.2 u
  | none => s

/-! Step 6 -/

/-- The packet's own destination that is no egress queue. -/
def otherDest (p : Pkt) : Plan :=
  if p.dec.drop then Plan.none else
  { Plan.none with
    seq := if p.dec.kind = 3 then some p.dec.id else none,
    fan := if p.dec.kind = 4 then some p.dec.id else none,
    ctx := if p.dec.kind = 5 then some p.dec.id else none }

/-- The host copy that a decision asks for: the packet itself under DEST_KIND 6. -/
def hostDest (p : Pkt) : Option (Nat × Nat × Bool) :=
  if p.dec.kind = 6 ∧ p.dec.drop = false then some (p.dec.hostQueue, p.dec.reason, true)
  else if p.dec.hostCopy then some (p.dec.hostQueue, p.dec.reason, false) else none

/-- A packet dropped at step 6 with all it would become. (Log entry 50.) -/
def dropAtStore (s : State) (p : Pkt) (cause : Nat) : State := dropUnstored s p cause

/-- The plan of a packet (09 R338 to R343): its copies tested and charged, and the cause for which its destination is
dropped (0: it is not). -/
def planOf (s : State) (p : Pkt) : State × Plan × Nat :=
  let len := p.frame.length
  let b := billetBytes (fitPool len)
  let host := hostDest p
  let wantCap := capEnabled s p.dec.capture
  let s1 := if wantCap && !capRoom s b then capLost s p.dec.capture else s
  let cap := if wantCap && capRoom s b then some p.dec.capture else none
  let base := { otherDest p with host := host, cap := cap }
  if p.dec.drop then (s1, base, p.dec.cause) else
  let dq := destQueues s1 p
  let g := 8 * p.port + p.dec.queue / 2
  let lossless := p.origin.isNone && (getPg s1 g).lossless
  let single := decide (dq.1.length + host.toList.length + cap.toList.length + keptRef s p.id = 1)
  let r := admitAll ((refusedQueues s1 p).foldl reservedDrop s1) b len lossless single dq.1
  let isQueue := p.dec.kind = 0 ∨ p.dec.kind = 1 ∨ p.dec.kind = 2 ∨ p.dec.kind = 7
  let cause := if isQueue ∧ r.2.1.isEmpty = true then (if dq.2 = 0 then r.2.2 else dq.2) else 0
  (r.1, { base with queues := r.2.1 }, cause)

/-- The 64-byte bridge stored with a packet (07 R236): HV0 to HV7, then HV48 to HV55. -/
def bridgeOf (p : Pkt) : BitVec 512 :=
  BitVec.ofNat 512 (packN (((p.hv.take 8) ++ (p.hv.drop 48).take 8).zipIdx.map fun e => (32 * e.2, 32, e.1.toNat)))

/-- The priority group that a packet is charged to: none for one that the device originates. -/
def pgOf (p : Pkt) : Option Nat := if p.origin.isNone then some (8 * p.port + p.dec.queue / 2) else none

/-- PG_O charged, or released, for a packet. -/
def chargePg (s : State) (p : Pkt) (b : Nat) : State := match pgOf p with | some g => pgCharge s g b | none => s
def releasePg (s : State) (p : Pkt) (b : Nat) : State := match pgOf p with | some g => pgRelease s g b | none => s

/-- A packet granted a billet: written, and handed to step 7 (09 R331, R338; 07 R253). -/
def finishStore (s : State) (p : Pkt) (sp : Spill) (ptr : Nat) : State :=
  let bytes := billetBytes (ptrPool ptr)
  let t := writeBillet s ptr 1 p.frame (bridgeOf p)
  let t := putStored t p.id (some ⟨.packet, p, some ptr, bytes, 1, 0, pgOf p, false, sp.cause, some (ptrPool ptr), []⟩)
  let t := chargePg t p (bytes - billetBytes (fitPool p.frame.length))
  let t := if p.dec.kind = 2 ∧ p.dec.drop = false ∧ sp.plan.queues.isEmpty = false then
      t.updFwd fun w => { w with mcast := SMap.upd (fun _ => Mcast.reset) w.mcast p.dec.id fun x =>
        { x with replicated := x.replicated + 1 } } else t
  let t := if sp.cause = 0 ∧ p.dec.drop = false then t else countDrop t p.port sp.cause
  match p.rx with
  | some sh => if sh.kind = 0 then sprayArrive t p.id sp.plan p sh else deliver t p.id sp.plan
  | none => deliver t p.id sp.plan

/-- A claim presented to one pool (09 R326): granted; refused, to be presented to the next pool in the next cycle; or, by the last
pool, dropped. -/
def claimPool (s : State) (w : Waiting) (sp : Spill) : State :=
  let out := fun (t : State) => t.updFwd fun x => { x with toStore := x.toStore.erase w }
  match grantPool s sp.pool with
  | (t, some ptr) => finishStore (out t) w.pkt sp ptr
  | (t, none) =>
    if 3 ≤ sp.pool then
      let len := w.pkt.frame.length
      let t := releasePg (planUndo (out t) len sp.plan) w.pkt (billetBytes (fitPool len))
      dropAtStore (t.updBuf fun x => { x with dropPool := x.dropPool + 1 }) w.pkt 0x90
    else
      (t.updBuf fun b => { b with spills := b.spills + 1 }).updFwd fun x =>
        { x with toStore := x.toStore.replace w { w with spill := some { sp with pool := sp.pool + 1, after := t.buf.cyc } } }

/-- A packet at step 6 (09 R325, R326, R338, R340): dropped whole, or admitted, charged and its claim presented; or the claim of one
already admitted presented again. -/
def storePacket (s : State) (w : Waiting) : State :=
  match w.spill with
  | some sp => claimPool s w sp
  | none =>
    let p := w.pkt
    let out := s.updFwd fun x => { x with toStore := x.toStore.erase w }
    let len := p.frame.length
    if 16384 < len then
      dropAtStore (out.updBuf fun b => { b with dropOver := b.dropOver + 1 }) p 0x94
    else
      let b := billetBytes (fitPool len)
      let g := 8 * p.port + p.dec.queue / 2
      let pg := getPg s g
      if p.origin.isNone && pg.lossless && pg.paused && decide ((pg.xoffKib + pg.headKib) * 1024 < pg.occ + b) then
        let t := updPg (out.updBuf fun x => { x with dropHead := x.dropHead + 1 }) g fun x => { x with drops := x.drops + 1 }
        dropAtStore (winEvent t 0x0904 g g 32 32 1) p 0x92
      else
        let r := planOf s p
        if planRefs r.1 r.2.1 + keptRef r.1 p.id = 0 then
          dropAtStore (r.1.updFwd fun x => { x with toStore := x.toStore.erase w }) p r.2.2
        else claimPool (chargePg r.1 p b) w ⟨r.2.1, r.2.2, fitPool len, 0⟩

/-! The claim order (09 R329) -/

/-- A requester's next packet whose claim is due. -/
def nextClaim (s : State) (req : Nat) : Option Waiting :=
  s.fwd.toStore.find? fun w => w.req == req && (match w.spill with | some sp => decide (sp.after < s.buf.cyc) | none => true)

/-- A queue's oldest DRAM copy may return (09 R344): its write is complete, it has no billet, and O_q is below half the threshold. -/
def returnable (s : State) (q : Nat) : Bool :=
  match (getQueue s q).dram with
  | d :: _ => d.written && !resident s d && decide (2 * 64 * (occOf (getQueue s q) : Int) < threshold64 s (getQueue s q))
  | [] => false

/-- A requester's claims in a cycle at most (09 Table 9-4), and whether it has one to make. -/
def claimMax (r : Nat) : Nat := if r < 33 then 4 else 1
def wantsClaim (s : State) (r : Nat) : Bool :=
  if r = 32 then s.buf.queues.any fun kv => returnable s kv.1 else (nextClaim s r).isSome

/-- Whose claim is next in the cycle: the order begins at requester c mod 49. -/
def claimTurn (s : State) : Option Nat :=
  ((List.range 49).map fun i => (s.buf.cyc + i) % 49).find? fun r =>
    decide (SMap.get (fun _ => 0) s.buf.claims r < claimMax r) && wantsClaim s r

/-- The cycle in which the next claim is made: the present one, or, when it takes no more, the one after it. (Log entry 62.) -/
def claimCycle (s : State) : State :=
  let t := newCycle s (fabricCycle s)
  if (claimTurn t).isNone then newCycle t (t.buf.cyc + 1) else t

/-- A requester's claim counted in its cycle. -/
def countClaim (s : State) (r : Nat) : State :=
  s.updBuf fun b => { b with claims := SMap.upd (fun _ => 0) b.claims r fun n => n + 1 }

end Sys2Proof.Machine
end

