-- ==== Sys2Proof/Machine/Buffer.lean ====
section
/-! DEFINITION. The commands of chapter 09: the orders of Table 9-9 and the DRAM overflow engine (R343, R344). -/

namespace Sys2Proof.Machine

/-- The READ_BUFFER result (09 Table 9-11). -/
def bufferWord (s : State) : Nat :=
  let b := s.buf
  packN ([0, 1, 2, 3].map (fun p => (24 * p, 24, billetsFree s p)) ++ [0, 1, 2, 3].map (fun p => (96 + 9 * p, 9, b.g.getD p 0)) ++
    [(144, 48, b.dropPool.toNat), (192, 48, b.spills.toNat), (240, 48, b.dropAdm.toNat), (288, 48, b.dropHead.toNat),
     (336, 48, b.dropCrc.toNat), (384, 48, b.dropOvf.toNat), (432, 48, b.dropOver.toNat), (480, 24, b.leaked.toNat),
     (584, 40, b.ovfBytes), (624, 15, b.capForce), (639, 15, b.ovfForce)] ++
    [0, 1, 2, 3, 4].map fun i => (504 + 16 * i, 16, b.faults.getD i 0))

/-- 09 R346: READ_BUFFER. -/
def execReadBuffer (o : Order) (s : State) : Host.Outcome State Fault Refusal :=
  .next (runOrder (readForm 0x0901 [0x91] 0 [] 128 modesOn) o s {} fun t => (t, .result (bytesLE 128 (bufferWord t)) 0))

/-- The threshold of a queue in KiB (09 Table 9-12), saturating. -/
def thresholdKib (s : State) (x : QueueSt) : Nat := min ((threshold64 s x).toNat / 65536) (2 ^ 32 - 1)

/-- The READ_QUEUE result (09 Table 9-12). -/
def queueWord (s : State) (q : Nat) : Nat :=
  let x := getQueue s q
  packN [(0, 29, occOf x), (29, 1, b2n x.spilling), (32, 32, thresholdKib s x), (64, 40, dramBytes s q),
    (104, 24, x.die.length), (128, 48, x.dropAdm.toNat), (176, 48, x.dropOvf.toNat)]

/-- 09 R346: READ_QUEUE. -/
def execReadQueue (o : Order) (s : State) : Host.Outcome State Fault Refusal :=
  .next (runOrder (readForm 0x0902 [0x92] 0x1FFF [] 64 modesOn) o s {} fun t =>
    (t, .result (bytesLE 64 (queueWord t o.inst)) 0))

/-- 09 R346: READ_PG. -/
def execReadPg (o : Order) (s : State) : Host.Outcome State Fault Refusal :=
  .next (runOrder (readForm 0x0903 [0x93] 0xFFF [] 0 modesOn) o s {} fun t =>
    let g := getPg t o.inst
    (t, .done stSuccess (packN [(0, 29, g.occ), (29, 1, b2n g.paused), (32, 32, g.drops.toNat)])))

/-- 09 R347: POOL_SET rebuilds every map while no billet is allocated. -/
def execPoolSet (o : Order) (s : State) : Host.Outcome State Fault Refusal :=
  let g := [0, 1, 2, 3].map fun p => o.f (9 * p) 9
  let c : Checks :=
    { badArgument := g.any fun x => decide (256 < x),
      chapter := if s.buf.busy.isEmpty = false then some 0x8901 else if 256 < sumN g then some 0x8902 else none }
  .next (runOrder (setForm 0x4901 [0x91] 0 [(0, 36)] [.prepare] true) o s c fun t =>
    (t.updBuf fun b => { b with g := g, recs := [], low := [] }, .done stSuccess 0))

/-- 09 R347: QUEUE_ADMIT_SET. -/
def execQueueAdmitSet (o : Order) (s : State) : Host.Outcome State Fault Refusal :=
  let a := o.f 16 4
  .next (runOrder (setForm 0x4902 [0x92] 0x1FFF [(0, 37)] modesSet true) o s
    { malformed := decide (10 ≤ a) && decide (a ≤ 14) } fun t =>
    (updQueue t o.inst fun x =>
      { x with minKib := o.f 0 16, alpha := a, ovfEn := o.b 20, ovfLimitMib := o.f 21 16 }, .done stSuccess 0))

/-- 09 R347: PG_SET; LOSSLESS cleared unpauses a paused group at once. -/
def execPgSet (o : Order) (s : State) : Host.Outcome State Fault Refusal :=
  .next (runOrder (setForm 0x4903 [0x93] 0xFFF [(0, 49)] modesSet true) o s
    { badArgument := decide (o.f 1 16 < o.f 17 16) } fun t =>
    let t := updPg t o.inst fun g =>
      { g with lossless := o.b 0, xoffKib := o.f 1 16, xonKib := o.f 17 16, headKib := o.f 33 16 }
    (if !o.b 0 && (getPg t o.inst).paused then pfcTry (pgPause t o.inst false) (o.inst / 8) else t, .done stSuccess 0))

/-- The overflow region in MiB that `cap` MiB of capture and the log's SLOTS leave (09 Table 9-7); whole MiB.
(Log entry 63.) -/
def overflowMib (slots cap : Nat) : Nat := (32768 * 1024 - slots * 260) / 1024 - cap

/-- 09 R342: DRAM_SET; what it sets is in force from the next cold start. (Log entry 63.) -/
def execDramSet (o : Order) (s : State) : Host.Outcome State Fault Refusal :=
  let cap := o.f 0 15
  let c : Checks :=
    { badArgument := decide (27584 < cap),
      chapter := if 32768 * 1024 < s.log.slots * 260 + (cap + 1024) * 1024 then some 0x8903 else none }
  .next (runOrder (setForm 0x4904 [0x91] 0 [(0, 15)] modesSet true) o s c fun t =>
    (t.updBuf fun b => { b with capMib := cap }, .done stSuccess (overflowMib t.log.slots cap)))

/-! The overflow engine -/

/-- One copy of a queue's DRAM part changed, by its name. -/
def updDram (s : State) (q c : Nat) (f : DramCopy → DramCopy) : State :=
  updQueue s q fun x => { x with dram := x.dram.map fun d => if d.copy.id = c then f d else d }

/-- A copy taken from a queue's DRAM part; the queue is DIRECT again once that is empty (09 R344). -/
def takeDram (s : State) (q c : Nat) : State :=
  updQueue s q fun x =>
    let l := x.dram.filter fun d => d.copy.id != c
    { x with dram := l, spilling := x.spilling && !l.isEmpty }

/-- 09 R343: the oldest write of a queue's copies to DRAM completes and its billet is released; a CRC error on the read of
the billet drops the copy (R334). `m` is its transfer (14 Table 14-1). -/
def execOverflowWriteDone (q : Nat) (crcOk : Bool) (u : BilletUpset) (m : DramUse) (s : State) :
    Host.Outcome State Fault Refusal :=
  .next (
    match (getQueue s q).dram.find? fun d => !d.written with
    | none => s
    | some d =>
      if crcOk then
        let len := copyLen s d.copy
        let t := leaveBillet (dramUse s 2 m) d.copy.pkt u
        pfcTryAll ((updDram t q d.copy.id fun e => { e with written := true }).updBuf fun b =>
          { b with ovfBytes := b.ovfBytes + len })
      else
        let t := crcFailed (takeDram s q d.copy.id) d.copy.pkt (q / 16)
        pfcTryAll (wdRefresh (dropRef t d.copy.pkt (q / 16) 0x93 u) q))

/-- The copy at the head of a queue's DRAM part put on die in the place it has waited for. (Log entry 61.) -/
def returnDie (s : State) (q : Nat) (c : Copy) : State :=
  wdRefresh (updQueue (takeDram s q c.id) q fun x => { x with die := x.die ++ [c] }) q

/-- 09 R344: the overflow reader returns a queue's oldest copy; one that kept its billet only takes its turn. `fault` is the
channel group and the address of a transfer that failed twice (17 R542), `crcOk` the check of the packet's CRC (R334), `upset` what
goes wrong at the grant (R335), `m` its transfer (14 Table 14-1).
(Log entry 61.) -/
def execOverflowReturn (q : Nat) (fault : Option (Nat × Nat)) (crcOk : Bool) (upset : GrantUpset) (m : DramUse)
    (s : State) : Host.Outcome State Fault Refusal :=
  .next (
    match (getQueue s q).dram with
    | [] => s
    | d :: _ =>
      if !d.written then s
      else if resident s d then
        returnDie (updQueue s q fun x => { x with resv := x.resv - d.copy.bytes }) q d.copy
      else if !returnable s q || claimTurn (claimCycle s) != some 32 then s
      else
        let s := dramUse (countClaim (claimCycle s) 32) 3 m
        let len := copyLen s d.copy
        let out := fun (t : State) => t.updBuf fun b => { b with ovfBytes := b.ovfBytes - len }
        let lost := fun (t : State) =>
          wdRefresh (dropRef (crcFailed (takeDram (out t) q d.copy.id) d.copy.pkt (q / 16)) d.copy.pkt (q / 16) 0x93 .none) q
        match fault with
        | some f => lost (recordError s 17 0x0A (f.1 % 8) 1 3 (packN [(0, 3, 3), (8, 56, f.2)]))
        | none =>
          if !crcOk then lost s else
          match claim (grantUpset s upset) len, getStored s d.copy.pkt with
          | (t, some ptr), some x =>
            let b := billetBytes (ptrPool ptr)
            let g := 8 * x.pkt.port + x.pkt.dec.queue / 2
            let t := writeBillet (out t) ptr 1 x.pkt.frame (bridgeOf x.pkt)
            let t := updStored t d.copy.pkt fun y =>
              { y with ptr := some ptr, bytes := b, pg := if x.pkt.origin.isNone then some g else none }
            let t := if x.pkt.origin.isNone then pgCharge t g b else t
            pfcTryAll (returnDie t q { d.copy with bytes := b })
          | r, _ => r.1)

end Sys2Proof.Machine
end

