-- ==== Sys2Proof/Machine/NetOps.lean ====
section
/-! DEFINITION. Frames that the block originates from a template (13 R446, 15 R491): lengths and checksums of IP and UDP. -/

namespace Sys2Proof.Machine

/-- Bytes replaced from offset `i`. -/
def patch (f : List Byte) (i : Nat) (bs : List Byte) : List Byte := f.take i ++ bs ++ f.drop (i + bs.length)

/-- The sum of 16-bit words of bytes, an odd last byte padded. -/
def sum16 : List Byte → Nat
  | a :: b :: bs => a.toNat * 256 + b.toNat + sum16 bs
  | [a] => a.toNat * 256
  | [] => 0

/-- The Internet checksum of bytes: the complement of their one's complement sum. -/
def inetSum (bs : List Byte) : Nat :=
  let v := sum16 bs
  let m := v % 65535
  65535 - (if m = 0 ∧ v ≠ 0 then 65535 else m)

/-- A frame without FCS with its IP lengths, IPv4 header checksum and UDP length and checksum filled in; one without the
framing of 13 R438 is left as it is. -/
def fillUdp (f : List Byte) : List Byte :=
  match udpFrame f with
  | none => f
  | some c =>
    let ulen := f.length - c.udp
    let f1 := if c.six then patch f (c.ip + 4) (bytesBE 2 (f.length - c.ip - 40))
      else patch (patch f (c.ip + 2) (bytesBE 2 (f.length - c.ip))) (c.ip + 10) [0, 0]
    let f2 := if c.six then f1 else patch f1 (c.ip + 10) (bytesBE 2 (inetSum (slice f1 c.ip 20)))
    let f3 := patch f2 (c.udp + 4) (bytesBE 2 ulen ++ [0, 0])
    let addrs := if c.six then slice f3 (c.ip + 8) 32 else slice f3 (c.ip + 12) 8
    let sum := inetSum (addrs ++ bytesBE 4 ulen ++ bytesBE 4 17 ++ f3.drop c.udp)
    patch f3 (c.udp + 6) (bytesBE 2 (if sum = 0 then 65535 else sum))

/-- A frame closed: padded to the Ethernet minimum, with its FCS. -/
def closeFrame (f : List Byte) : List Byte := withFcs (if f.length < 60 then padTo 60 f else f)

/-- A frame's addresses and UDP ports exchanged (13 R446): what precedes its UDP payload. -/
def exchanged (f : List Byte) : List Byte :=
  match udpFrame f with
  | none => f.take 12
  | some c =>
    let g := slice f 6 6 ++ slice f 0 6 ++ (f.drop 12).take (c.udp - 4)
    let g := if c.six then patch g (c.ip + 8) (slice f (c.ip + 24) 16 ++ slice f (c.ip + 8) 16)
      else patch g (c.ip + 12) (slice f (c.ip + 16) 4 ++ slice f (c.ip + 12) 4)
    patch g c.udp (slice f (c.udp + 2) 2 ++ slice f c.udp 2)

end Sys2Proof.Machine
end

