-- ==== Sys2Proof/Machine/Numbers.lean ====
section
/-! DEFINITION. The numbers of the collective units (13 R439 to R442): elements, exact accumulation, one rounding. -/

namespace Sys2Proof.Machine

/-- Bits of an element, of its exponent and of its mantissa (13 Table 13-1). -/
def elemBits (d : Nat) : Nat := if d = 0 ∨ d = 5 then 32 else if d = 1 ∨ d = 2 then 16 else 8
def expBits (d : Nat) : Nat := if d = 0 ∨ d = 1 then 8 else if d = 3 then 4 else 5
def manBits (d : Nat) : Nat := match d with | 0 => 23 | 1 => 7 | 2 => 10 | 3 => 3 | _ => 2

/-- The exponent of the accumulator's LSB weight, its width, the bytes of a partial word (13 Tables 13-1, 13-3). -/
def lsbExp (d : Nat) : Int := match d with | 0 => -149 | 1 => -133 | 2 => -24 | 3 => -9 | 4 => -16 | _ => 0
def accBits (d : Nat) : Nat := if d ≤ 1 then 320 else if d = 2 then 96 else 64
def wordBytes (d : Nat) : Nat := if d ≤ 1 then 48 else 16

/-- CHUNK_ELEMS' limits for contributions and for partials (13 Table 13-1). -/
def maxElems (d : Nat) : Nat := match d with | 0 => 2048 | 5 => 2048 | 1 => 4096 | 2 => 4096 | _ => 8192
def maxPartial (d : Nat) : Nat := if d ≤ 1 then 256 else 768

/-- The exponent field that names infinities and NaNs; E4M3 keeps it for numbers but for one mantissa. -/
def expTop (d : Nat) : Nat := 2 ^ expBits d - 1

/-- An input element is a NaN, an infinity, negative; its magnitude in units of the LSB weight (13 R440). -/
def isNan (d w : Nat) : Bool :=
  d != 5 && nfld w (manBits d) (expBits d) == expTop d &&
    (if d = 3 then nfld w 0 3 == 7 else nfld w 0 (manBits d) != 0)
def isInf (d w : Nat) : Bool := d != 5 && d != 3 && nfld w (manBits d) (expBits d) == expTop d && nfld w 0 (manBits d) == 0
def isNeg (d w : Nat) : Bool := nfld w (elemBits d - 1) 1 == 1
def magOf (d w : Nat) : Nat :=
  let e := nfld w (manBits d) (expBits d)
  let m := nfld w 0 (manBits d)
  if e = 0 then m else (2 ^ manBits d + m) * 2 ^ (e - 1)

/-- The magnitude that stands for infinity in the order of MIN and MAX, above every finite one. -/
def infMag : Nat := 2 ^ 400

/-- An input's place in the total order of 13 R442. -/
def orderKey (d w : Nat) : Int :=
  if d = 5 then (if signed 32 w < 0 then signed 32 w - 1 else signed 32 w)
  else
    let m := if isInf d w then infMag else magOf d w
    if isNeg d w then -(m : Int) - 1 else m

/-- The element of a NaN, and the element that stands at a place of the order: the value's integer, an infinity as its flag
alone, NONNEG clear for -0 only. (Log entry 76.) -/
def nanElem : Elem := ⟨0, true, false, false, true⟩
def keyElem (k : Int) : Elem :=
  if (infMag : Int) ≤ k then ⟨0, false, true, false, true⟩
  else if k < -(infMag : Int) then ⟨0, false, false, true, true⟩
  else ⟨if k < 0 then k + 1 else k, false, false, false, k != -1⟩

/-- The place in the order of an element that is no NaN; of both infinities the one that `op` takes. (Log entry 76.) -/
def elemKey (op : Nat) (e : Elem) : Int :=
  if e.ninf && !(e.pinf && op == 2) then -(infMag : Int) - 1
  else if e.pinf then infMag
  else if e.acc < 0 then e.acc - 1
  else if e.acc = 0 ∧ e.nonneg = false then -1
  else e.acc

/-- An input as an element: its integer and its flags (13 R440, R442). -/
def elemOf (d op w : Nat) : Elem :=
  if isNan d w then nanElem
  else if op ≠ 0 then keyElem (orderKey d w)
  else if isInf d w then ⟨0, false, !isNeg d w, isNeg d w, true⟩
  else if d = 5 then ⟨signed 32 w, false, false, false, true⟩
  else
    let m := magOf d w
    ⟨if isNeg d w then -(m : Int) else m, false, false, false, !(isNeg d w && m == 0)⟩

/-- Two elements taken together: exact addition with the flags in union (13 R440), or the least or greatest in the order of R442,
where a NaN stays a NaN. -/
def combine (op : Nat) (a b : Elem) : Elem :=
  if op = 0 then
    { acc := a.acc + b.acc, nan := a.nan || b.nan, pinf := a.pinf || b.pinf, ninf := a.ninf || b.ninf,
      nonneg := a.nonneg || b.nonneg }
  else if a.nan || b.nan then nanElem
  else keyElem (if op = 1 then min (elemKey op a) (elemKey op b) else max (elemKey op a) (elemKey op b))

/-- An accumulator of type `d` cannot hold the integer. -/
def accOver (d : Nat) (v : Int) : Bool :=
  decide (v < -((2 ^ (accBits d - 1) : Nat) : Int)) || decide (((2 ^ (accBits d - 1) : Nat) : Int) ≤ v)

/-- The canonical NaN, the infinity and the largest finite value of a type, without sign (13 R441). -/
def canonNan (d : Nat) : Nat :=
  match d with | 0 => 0x7FC00000 | 1 => 0x7FC0 | 2 => 0x7E00 | 3 => 0x7F | _ => 0x7E
def infBits (d : Nat) : Nat := expTop d * 2 ^ manBits d
def maxBits (d : Nat) : Nat := if d = 3 then 0x7E else infBits d - 1

/-- A value in LSB units of a type, as its bits without sign. -/
def encodeMag (d u : Nat) : Nat :=
  if u < 2 ^ manBits d then u
  else
    let e := Nat.log2 u - manBits d + 1
    e * 2 ^ manBits d + (u / 2 ^ (e - 1) - 2 ^ manBits d)

/-- `m / 2^k` rounded to the nearest, ties to even. -/
def rne (m k : Nat) : Nat :=
  let q := m / 2 ^ k
  let r := 2 * (m % 2 ^ k)
  if 2 ^ k < r ∨ (r = 2 ^ k ∧ q % 2 = 1) then q + 1 else q

/-- A magnitude in LSB units of type `d`, rounded once to type `out`, without sign (13 R441). -/
def roundMag (d out : Nat) (ovf : Bool) (m : Nat) : Nat :=
  let up := (lsbExp d - lsbExp out).toNat
  let down := (lsbExp out - lsbExp d).toNat
  let v := m * 2 ^ up
  let sh := max down (Nat.log2 v + 1 - (manBits out + 1))
  let u := rne v sh * 2 ^ (sh - down)
  if v = 0 then 0
  else if maxBits out < encodeMag out u then
    (if ovf then maxBits out else if out = 3 then canonNan 3 else infBits out)
  else encodeMag out u

/-- A value with its sign bit. -/
def withSign (out : Nat) (neg : Bool) (v : Nat) : Nat := if neg then v + 2 ^ (elemBits out - 1) else v

/-- The infinity of a type with a sign; E4M3 has none. -/
def infOf (out : Nat) (neg : Bool) : Nat := if out = 3 then canonNan 3 else withSign out neg (infBits out)

/-- A finite value of LSB magnitude `m` with a sign, rounded; a NaN takes no sign. -/
def roundOf (d out : Nat) (ovf neg : Bool) (m : Nat) : Nat :=
  let v := roundMag d out ovf m
  if out = 3 ∧ v = canonNan 3 then v else withSign out neg v

/-- An element's result bits, and whether it was saturated (13 R441, R442). -/
def resultOf (c : CtxCfg) (e : Elem) : Nat × Bool :=
  if c.dtype = 5 then
    if c.op = 0 then
      let v := max (-(2 ^ 31)) (min (2 ^ 31 - 1) e.acc)
      (unsigned 32 v, v != e.acc)
    else (unsigned 32 e.acc, false)
  else if e.nan || (e.pinf && e.ninf) then (canonNan c.outType, false)
  else if c.op = 0 then
    if e.pinf then (infOf c.outType false, false)
    else if e.ninf then (infOf c.outType true, false)
    else if e.acc = 0 then (withSign c.outType (!e.nonneg) 0, false)
    else (roundOf c.dtype c.outType c.ovf (decide (e.acc < 0)) e.acc.natAbs, false)
  else
    let k := elemKey c.op e
    let neg := decide (k < 0)
    let m := if neg then (-k - 1).toNat else k.toNat
    if infMag ≤ m then (infOf c.outType neg, false) else (roundOf c.dtype c.outType c.ovf neg m, false)

/-- FLAGS of a partial word (13 Table 13-3). -/
def flagsOf (e : Elem) : Nat := packN [(0, 1, b2n e.nan), (1, 1, b2n e.pinf), (2, 1, b2n e.ninf), (3, 1, b2n e.nonneg)]

/-- A partial word (13 Table 13-3). -/
def partialWord (d : Nat) (e : Elem) : List Byte :=
  bytesBE (wordBytes d) (packN [(8 * wordBytes d - 8, 8, flagsOf e), (0, accBits d, unsigned (accBits d) e.acc)])

/-- The element of a partial word, and whether the word's form is right. -/
def wordElem (d w : Nat) : Elem :=
  let f := nfld w (8 * wordBytes d - 8) 8
  ⟨signed (accBits d) (nfld w 0 (accBits d)), f % 2 == 1, f / 2 % 2 == 1, f / 4 % 2 == 1, f / 8 % 2 == 1⟩
def wordOk (d w : Nat) : Bool := onlyFields w [(0, accBits d), (8 * wordBytes d - 8, 4)]

/-- The big-endian words of `n` bytes in a payload. -/
def wordsBE (n count : Nat) (bs : List Byte) : List Nat := (List.range count).map fun i => beNat (slice bs (n * i) n)

end Sys2Proof.Machine
end

