-- ==== Sys2Proof/Machine/Trims.lean ====
section
/-! DEFINITION. The commands of chapter 12 on departure trims and their measurement (R428, R429). -/

namespace Sys2Proof.Machine

/-- A trim as its 7-bit field. -/
def trimField (v : Int) : Nat := unsigned 7 v

/-- 12 R432: READ_TRIM. -/
def execReadTrim (o : Order) (s : State) : Host.Outcome State Fault Refusal :=
  .next (runOrder (readForm 0x0C04 [0xC3] 0x1FF [] 0 modesOn) o s {} fun t =>
    let x := getTrim t o.inst
    (t, .done stSuccess (packN [(0, 7, trimField x.cur), (7, 7, trimField x.target), (14, 1, b2n (x.cur != x.target))])))

/-- A TRIM_CHANGE record (12 Table 12-4). -/
def trimRecord (s : State) (n : Nat) (old new : Int) : State :=
  logNow s 0x1A n (packN [(313, 7, trimField old), (306, 7, trimField new)])

/-- 12 R428: TRIM_SET. A set during a move gives the move a new target. (Log entry 72.) -/
def execTrimSet (o : Order) (s : State) : Host.Outcome State Fault Refusal :=
  let v := signed 7 (o.f 0 7)
  .next (runOrder (setForm 0x4C03 [0xC3] 0x1FF [(0, 7)] modesSet true) o s
    { badArgument := decide (v < -32) || decide (32 < v) } fun t =>
    let x := getTrim t o.inst
    if x.cur = x.target ∧ x.cur = v then (trimRecord t o.inst v v, .done stSuccess (trimField v))
    else
      (updTrim t o.inst fun y =>
        { y with target := v, began := if y.cur = y.target then y.cur else y.began, orders := y.orders ++ [o],
                  stepAt := if y.cur = y.target then t.tb.now else y.stepAt }, .later))

/-- 12 R428: the delay line of a port moves one step towards its target, at most one a microsecond; at the target the orders that wait
complete. (Log entry 72.) -/
def execTrimStep (n : Nat) (s : State) : Host.Outcome State Fault Refusal :=
  .next (
    let x := getTrim s n
    if (x.cur = x.target ∧ x.orders.isEmpty = true) ∨ s.tb.now < x.stepAt + 1000 then s else
    let c := if x.cur < x.target then x.cur + 1 else if x.target < x.cur then x.cur - 1 else x.cur
    if c = x.target then
      let t := trimRecord (updTrim s n fun y => { y with cur := c, began := c, orders := [], stepAt := s.tb.now }) n x.began c
      x.orders.foldl (fun u o => finishThis u 0x4C03 o stSuccess (trimField x.began)) t
    else updTrim s n fun y => { y with cur := c, stepAt := s.tb.now })

/-! TRIM_MEASURE -/

/-- 12 R429: TRIM_MEASURE. (Log entry 72.) -/
def execTrimMeasure (o : Order) (s : State) : Host.Outcome State Fault Refusal :=
  .next (runOrder (setForm 0x4C04 [0xC3] 0x1FF [] modesSet true) o s {} fun t =>
    (t.updGrp fun g => { g with meas := g.meas ++ [⟨o.inst, 0, [], [], t.tb.now, t.tb.now⟩] }, .later))

/-- The measurement of a port that has still to send, and the one under way. -/
def measOf (s : State) (n : Nat) : Option TrimMeas := s.grp.meas.find? fun m => m.port == n

/-- The first measurement of a port changed, or ended. -/
def setMeas (s : State) (n : Nat) (x : Option TrimMeas) : State :=
  match measOf s n with
  | none => s
  | some m =>
    match x with
    | none => s.updGrp fun g => { g with meas := g.meas.erase m }
    | some y => s.updGrp fun g => { g with meas := g.meas.replace m y }

/-- A probe frame (12 R429): 64 bytes with the EtherType and the nonce. Its addresses, both the port's own, are the model's
choice. (Log entry 72.) -/
def probeFrame (n : Nat) (nonce : Nat) : List Byte :=
  let mac := bytesBE 6 (Config.portMac n).toNat
  withFcs (padTo 60 (mac ++ mac ++ bytesBE 2 0x88B5 ++ bytesBE 4 nonce))

/-- 12 R429: the next probe of a measurement is sent, 10 us after the last. Its nonce is a free value. -/
def execTrimProbeSend (n : Nat) (s : State) : Host.Outcome State Fault Refusal :=
  .next (
    match measOf s n with
    | none => s
    | some m =>
      if m.sent < 16 ∧ (m.sent = 0 ∨ m.lastAt + 10000 ≤ s.tb.now) ∧
          (portFree s n && clearOfProtected s n (psUnits (wirePs s n 64))) = true then
        let nonce := freeBits s 32
        let t := startTx s.drawn n .mac (probeFrame n nonce) s.tb.dt
        setMeas (portEvent t n 22 1) n
          (some { m with sent := m.sent + 1, out := m.out ++ [(BitVec.ofNat 32 nonce, s.tb.dt)], lastAt := s.tb.now })
      else s)

/-- The one-way delay and the spread of 16 round trips (12 R429, Table 12-5): half their mean, and their range in ps. -/
def measData (trips : List Nat) : Nat :=
  let lo := trips.foldl min (trips.headD 0)
  let hi := trips.foldl max 0
  packN [(0, 32, (trips.foldl (· + ·) 0) / (2 * trips.length)), (32, 16, min ((hi - lo) * 1000 / 65536) 65535)]

/-- The frame is a probe of the port's measurement (12 R429): its nonce is outstanding. -/
def probeHit (s : State) (n : Nat) (f : List Byte) : Option (TrimMeas × BitVec 32 × Nat) :=
  match measOf s n with
  | none => none
  | some m =>
    if beNat (slice f 12 2) = 0x88B5 then
      (m.out.find? fun e => e.1.toNat == beNat (slice f 14 4)).map fun e => (m, e.1, e.2)
    else none

/-- A returning probe consumed (12 R429): the sixteenth completes the order. -/
def probeTake (s : State) (n : Nat) (m : TrimMeas) (nonce : BitVec 32) (sentDt inDt : Nat) : State :=
  let trips := m.trips ++ [inDt - sentDt]
  if trips.length = 16 then
    let t := setMeas s n none
    match findRunning t 0x4C04 fun o => o.inst == n with
    | some r => finishOrder t r stSuccess (measData trips)
    | none => t
  else setMeas s n (some { m with trips := trips, out := m.out.filter fun e => e.1 != nonce })

/-- 12 R429: 1 ms after the last probe, or 2 ms after acceptance, probes are missing. -/
def execTrimMeasureTimeout (n : Nat) (s : State) : Host.Outcome State Fault Refusal :=
  .next (
    match measOf s n with
    | none => s
    | some m =>
      if (m.sent = 16 ∧ m.lastAt + 1000000 ≤ s.tb.now) ∨ m.began + 2000000 ≤ s.tb.now then
        let t := setMeas s n none
        match findRunning t 0x4C04 fun o => o.inst == n with
        | some r => finishOrder t r 0x8C05 0
        | none => t
      else s)

end Sys2Proof.Machine
end

