-- ==== Sys2Proof/Machine/PacketOps.lean ====
section
/-! DEFINITION. Shared operations of steps 2 and 3 of the packet path: reception (05 R171, 11 R396), headers removed at ingress
(07 R252, 11 R403), the version stamp (07 R242), and the decision as it is fixed (07 R233, R234; 11 R401). -/

namespace Sys2Proof.Machine

/-- A frame discarded at step 2 (05 R171): its counter changed. -/
def discarded (s : State) (n : Nat) (f : PcsPort → PcsPort) : State := updPcsPort s n f

/-- The state of a priority's pause changed, the watchdogs of its queues kept up to date. (Log entry 64.) -/
def setPause (s : State) (n g until_ : Nat) : State :=
  let q := 16 * n + 2 * g
  let t := wdRefresh (wdRefresh s q) (q + 1)
  let t := updPfc t n fun f => { f with pauseUntil := f.pauseUntil.set g until_ }
  wdRefresh (wdRefresh t q) (q + 1)

/-- A PFC frame's effect on one priority (11 R396, R400): a non-zero time keeps a storm going; the pause is honoured under
RX_EN. A quantum is 512 bit times. (Log entry 64.) -/
def pfcClass (n : Nat) (f : List Byte) (s : State) (g : Nat) : State :=
  if !bit (BitVec.ofNat 16 (be16 f 16)) g then s else
  let time := be16 f (18 + 2 * g)
  let mbps := match getPort s n with | some c => portMbps c | none => 1
  let t := if time = 0 then s else
    [0, 1].foldl (fun u i => updQs u (16 * n + 2 * g + i) fun d => { d with quietFrom := u.tb.now }) (portEvent s n (44 + g) 1)
  if bit (getPfc s n).rxEn g then
    setPause t n g (if time = 0 then 0 else s.tb.now * 1000 + time * 512 * 1000000 / mbps)
  else t

/-- A MAC Control frame consumed (11 R396). -/
def macControl (s : State) (n : Nat) (f : List Byte) : State :=
  let t := portEvent s n 5 1
  if be16 f 14 = 0x0101 then
    (List.range 8).foldl (pfcClass n f) (updPfc t n fun x => { x with rxFrames := x.rxFrames + 1 })
  else updPfc t n fun x => { x with discards := x.discards + 1 }

/-- The frame's last four bytes are its FCS. -/
def fcsOk (f : List Byte) : Bool := refcs f == f

/-- The frame is a MAC Control frame. -/
def isControl (f : List Byte) : Bool := be16 f 12 == 0x8808

/-- MAX_FRAME for a frame whose start came at an instant (05 R187). -/
def maxFrameAt (p : PcsSet) (started : Nat) : Nat := if started ≤ p.maxAt then p.maxOld else p.maxFrame

/-- The first cause of 05 R171 for which a frame is discarded. -/
def discardOf (s : State) (n : Nat) (f : List Byte) (marked : Bool) (started : Nat) : Option (PcsPort → PcsPort) :=
  if marked then some fun p => { p with discUcw := p.discUcw + 1 }
  else if !fcsOk f then some fun p => { p with discFcs := p.discFcs + 1, pm := { p.pm with fcs := p.pm.fcs + 1 } }
  else if f.length < 64 then some fun p => { p with discRunt := p.discRunt + 1 }
  else if maxFrameAt (getPcsSet s n) started < f.length then some fun p => { p with discOver := p.discOver + 1 }
  else if !modeOk s || s.mode.haltEntry then some fun p => { p with discMode := p.discMode + 1 }
  else none

/-- The DT units of some symbols on a lane of a port (04 Table 4-1). -/
def symbolDt (c : PortCfg) (syms : Nat) : Nat := syms * 65536000 / (53125 * 2 ^ c.rate)

/-- The ingress timestamp (06 R208, R209): the last marker's DT on the lane at position `k` that carried the frame's start, and the symbols since. -/
def ingressDt (s : State) (n k syms : Nat) : Nat :=
  match getPort s n, ((rxPLs s n)[k]?).bind fun p => (getLane s p).rxMark with
  | some c, some m => min s.tb.dt (m.2 + symbolDt c syms)
  | _, _ => s.tb.dt

/-- What became of a frame whose start came at an instant (05 R171, R180): received; lost, its start received and its end not, since a
lane lost marker lock; or no frame, for want of lock or under a local fault. -/
inductive Heard where
  | whole | lost | none
deriving DecidableEq, Repr

def heard (s : State) (n started : Nat) : Heard :=
  let p := getPcs s n
  if !portExists s n then .none else
  match p.lockSince, p.lastLock with
  | some a, _ => if a ≤ started && !rxFault s n then .whole else .none
  | none, some (a, b) => if a ≤ started ∧ started < b then .lost else .none
  | none, none => .none

/-- A frame received on a port, whose start came `syms` symbols after the last marker on lane position `k`, and which touched a marked
codeword or not (05 R171, 11 R396, 12 R429, 15 R484). -/
def receiveFrame (s : State) (n : Nat) (f : List Byte) (k syms : Nat) (marked : Bool) : State :=
  let inDt := ingressDt s n k syms
  let started := s.tb.now - (s.tb.dt - inDt) / 65536
  match heard s n started with
  | .none => s
  | .lost => discarded s n fun p => { p with discUcw := p.discUcw + 1 }
  | .whole =>
  match discardOf s n f marked started with
  | some d => discarded s n d
  | none =>
    let s := bwAdd s n false inDt f.length
    if isControl f then macControl s n f
    else
      let s := frameEvents s n 0 6 f
      match probeHit s n f with
      | some h => probeTake s n h.1 h.2.1 h.2.2 inDt
      | none =>
        let k := SMap.get (fun _ => 0) s.fwd.arrSeq n + 1
        s.updFwd fun w =>
          { w with arrSeq := SMap.put (fun _ => 0) w.arrSeq n k, accepted := w.accepted ++ [⟨n, f, inDt, k, !tbLocked s.tb⟩] }

/-! Step 3 -/

/-- The version that a packet is stamped with, by its ingress DT (07 R242). -/
def stampVer (s : State) (inDt : Nat) : Nat :=
  let old := (s.ver.slots.filter fun v => v.state == 3 && decide (inDt < v.ended)).foldl
    (fun best v => match best with
      | none => some v
      | some b => if v.ended < b.ended then some v else some b) (none : Option VSlot)
  match old, s.ver.pend with
  | some v, _ => v.seq
  | none, some p => if p.tc ≤ inDt then (stagedSeq s).getD (activeSeq s) else activeSeq s
  | none, none => activeSeq s

/-- The EtherTypes of the spray shim and of the class tag (07 R252, 11 R402). -/
def shimType (s : State) : Nat := if s.fwd.spraySet.sel then 0x88B6 else 0x88B5
def tagType (s : State) : Nat := if s.fwd.spraySet.sel then 0x88B5 else 0x88B6

/-- `n` bytes taken out after the source address. -/
def cutBytes (f : List Byte) (n : Nat) : List Byte := refcs (f.take 12 ++ f.drop (12 + n))

/-- A shim's fields (07 Table 7-7). -/
def shimOf (f : List Byte) : Shim :=
  let w := beNat (slice f 12 12)
  ⟨nfld w 64 16, nfld w 48 16, nfld w 16 32, nfld w 12 4, nfld w 8 4, nfld w 0 8⟩

/-- The shim removed on a port with SPRAY_RX (07 R252). (Log entry 46.) -/
def removeShim (s : State) (ver n : Nat) (f : List Byte) : List Byte × Option Shim :=
  if bit (profileWord s n ver) 18 && be16 f 12 == shimType s then (cutBytes f 12, some (shimOf f)) else (f, none)

/-- The class tag removed on a port with ESC_RX (11 R403): its count and its SAT; a non-zero reserved field gives 0.
(Log entry 46.) -/
def removeTag (s : State) (n : Nat) (f : List Byte) : List Byte × Nat × Bool :=
  if (getEsc s n).rx && be16 f 12 == tagType s then
    let w := be16 f 14
    (cutBytes f 4, if nfld w 0 12 = 0 then nfld w 13 3 else 0, nfld w 0 12 == 0 && decide (nfld w 12 1 = 1))
  else (f, 0, false)

/-- The escalation count and SAT that a collective packet carries in its header (11 R402). -/
def headerEsc (s : State) (f : List Byte) : Option (Nat × Bool) :=
  match collParse s f with
  | some h => if nfld h.1 252 4 = 1 then some (nfld h.1 239 3, decide (nfld h.1 238 1 = 1)) else none
  | none => none

/-- An accepted frame as a packet: shim and tag removed, stamped. (Log entry 45.) -/
def packetOf (s : State) (a : Accepted) : Pkt :=
  let ver := stampVer s a.inDt
  let r := removeShim s ver a.port a.bytes
  let k := removeTag s a.port r.1
  let e := (headerEsc s k.1).getD (k.2.1, k.2.2)
  { id := s.fwd.nextId, port := a.port, frame := k.1, len0 := a.bytes.length, head := k.1.take 256, inDt := a.inDt,
    arrSeq := a.arrSeq, hv := [], ver := ver, dec := Decision.reset, diverged := s.fp.diverged, unlocked := a.unlocked,
    rx := r.2, tx := none, escTag := e.1, esc := 0, sat := e.2, lathe := 7, prog := 0, late := false, origin := none }

/-- The escalation ladder as a decision is fixed (11 R401). -/
def escalate (s : State) (p : Pkt) : State × Pkt :=
  let n := if p.dec.kind = 7 then (getGroup s p.dec.id).members.headD 512 else p.dec.id
  let x := getEsc s n
  if (p.dec.kind = 1 ∨ p.dec.kind = 7) ∧ p.dec.drop = false ∧ x.rungs.head? = some p.dec.queue ∧ n < 512 then
    let raw := p.escTag + b2n x.bump
    let e := min raw 7
    let sat := decide (x.rungs.length - 1 < raw)
    let p' := { p with esc := e, sat := p.sat || sat,
                       dec := { p.dec with queue := x.rungs.getD (min e (x.rungs.length - 1)) p.dec.queue } }
    let t := if sat then
        winEvent (s.updEgr fun g => { g with esc := SMap.upd (fun _ => EscSt.reset) g.esc n fun y =>
          { y with saturated := y.saturated + 1 } }) 0x0B03 n n 32 32 1
      else s
    (t, p')
  else (s, { p with esc := p.escTag })

/-- A decision fixed (07 R233, R234; 11 R401): the packet waits for step 6 at its slice's requester, or is dropped at once when
nothing of it is left to store. -/
def fixDecision (s : State) (p : Pkt) : State :=
  let r := escalate s p
  let t := r.1
  let p := r.2
  let p := if p.dec.kind = 0 ∧ p.dec.drop = false then { p with dec := { p.dec with drop := true, cause := 0x81 } } else p
  if p.dec.drop && !p.dec.hostCopy && !capEnabled t p.dec.capture then dropUnstored t p p.dec.cause
  else t.updFwd fun w => { w with toStore := w.toStore ++ [⟨sliceOf p.port, p, none⟩] }

/-- A slice's dealing (07 R247). -/
def getSlice (s : State) (k : Nat) : Slice := SMap.get (fun _ => Slice.reset) s.lat.slices k
def updSlice (s : State) (k : Nat) (f : Slice → Slice) : State :=
  s.updLat fun x => { x with slices := SMap.upd (fun _ => Slice.reset) x.slices k f }

/-- A PTP frame on a PTP-enabled port (06 R204): the timebase island takes it at step 4. (Log entry 41.) -/
def isPtp (s : State) (p : Pkt) : Bool :=
  (SMap.get (fun _ => PtpPort.reset) s.tb.ptp p.port).role != 0 && be16 p.frame 12 == 0x88F7

/-- A packet at step 3 and through IS15 (07 R223 to R234). (Log entry 91.) -/
def ingress (s : State) (p : Pkt) : State :=
  let q := parseRun s p.ver p.frame 32 (Parse.start (fld (profileWord s p.port p.ver) 0 9))
  let hv := ingressHv q p.port p.frame.length p.ver p.inDt p.rx.isSome p.diverged
  if q.state = 0x101 then dropUnstored s { p with hv := hv } 0x80 else
  if isPtp s p then s.updFwd fun w => { w with ptpIn := w.ptpIn ++ [{ p with hv := hv }] } else
  let x := runIngress s p.port p.ver hv
  let p := { p with hv := x.2.hv, dec := x.2.dec }
  if p.dec.lathe ≠ 0 then
    updSlice x.1 (sliceOf p.port) fun k => { k with arrivals := k.arrivals ++ [{ p with prog := p.dec.lathe }] }
  else fixDecision x.1 p

end Sys2Proof.Machine
end

