-- ==== Sys2Proof/Machine/CollEng.lean ====
section
/-! DEFINITION. The collective units at work (chapter 13): headers and packets that a unit originates, chunks and barriers that
complete, faults. -/

namespace Sys2Proof.Machine

/-- A number with `len` bits from bit `lo` replaced. -/
def setBits (w lo len v : Nat) : Nat := w - nfld w lo len * 2 ^ lo + v % 2 ^ len * 2 ^ lo

/-- CREDIT (13 R444). -/
def creditOf (s : State) (x : Ctx) : Nat :=
  if unitThrottled s.pwr then max 1 (x.cfg.window / 2 ^ x.cfg.shift) else x.cfg.window

/-- A ramp is in progress: a request received whose completion has not been reported (16 R509), or the slope limit gates.
(Log entry 86.) -/
def ramping (s : State) : Bool :=
  s.pwr.gateSlope || (s.pwr.prerampEn && s.pwr.requests.any fun r => r.received && !r.done)

/-- A unit's own cause for PACE (13 Table 13-2). -/
def ownPace (s : State) (u : Nat) : Nat :=
  if computeGated s.pwr then 1
  else if ramping s then 2
  else if s.coll.limitKib * 512 < inputBytes (getUnit s u) then 3 else 0

/-- PACE and PACE_US of a header (13 R453): `inp` is one more than the largest PACE_US received, or 0. The unit's own estimate is
a free value. (Log entry 75.) -/
def paceOf (s : State) (u inp : Nat) : Nat × Nat :=
  let p := ownPace s u
  if p ≠ 0 then (p, freeBits s 16) else if inp ≠ 0 then (4, inp - 1) else (0, 0)

/-- What every header that a unit sends carries of its context (13 R444, R453). (Log entry 76.) -/
def stampHeader (s : State) (n u inp h : Nat) : Nat :=
  let x := getCtx s n
  let p := paceOf s u inp
  setBits (setBits (setBits (setBits (setBits h 128 32 x.base.toNat) 120 8 (creditOf s x)) 116 4 p.1) 100 16 p.2) 96 4 x.epoch

/-- A header of a context's own (13 Table 13-2). CONTRIB, COOKIE and CHUNK are given where the spec gives them; else the
caller passes free values. (Log entry 76.) -/
def ctxHeader (x : Ctx) (kind dtype ctx contrib chunk cookie elems esc : Nat) (sat recomputed saturated : Bool) : Nat :=
  packN [(252, 4, 1), (248, 4, kind), (244, 4, dtype), (242, 2, x.cfg.op), (239, 3, esc), (238, 1, b2n sat), (224, 12, ctx),
    (208, 16, x.cfg.job), (199, 9, contrib), (160, 32, chunk), (94, 1, b2n recomputed), (93, 1, b2n saturated),
    (64, 16, elems), (32, 32, cookie)]

/-- A packet that unit `u` originates (13 R446): stamped with the active version; its containers of the ingress parse, which it
has not had, are free values. (Log entry 76.) -/
def originPkt (s : State) (u kind id queue esc : Nat) (sat : Bool) (f : List Byte) : Pkt :=
  { id := s.fwd.nextId, port := 32 * u, frame := f, len0 := f.length, head := f.take 256, inDt := s.tb.dt, arrSeq := 0,
    hv := (List.range 64).map fun i => if i < 8 then BitVec.ofNat 32 (freeNat s / 2 ^ (1024 + 32 * i)) else 0,
    ver := activeSeq s, dec := { Decision.reset with kind := kind, id := id, queue := queue }, diverged := s.fp.diverged,
    unlocked := !tbLocked s.tb, rx := none, tx := none, escTag := esc, esc := esc, sat := sat, lathe := 7, prog := 0,
    late := false, origin := some u }

/-- Results of chunks at or above C_cut that the new home of a moving context holds (13 R456). -/
def holds (x : Ctx) (c : BitVec 32) : Bool :=
  match x.move with | some m => !m.isolation && !m.released && !seqBefore c m.cut | none => false

/-- A unit's packet on its way to step 6 at its requester (09 Table 9-4), or held by its context; its version counts it. -/
def sendPkt (s : State) (n : Nat) (u : Nat) (hold : Bool) (p : Pkt) : State :=
  let r := if p.dec.kind = 1 then escalate s p else (s, p)
  let t := countFlight (r.1.updFwd fun w => { w with nextId := w.nextId + 1 }) p.ver 1 0
  if hold then updCtx t n fun x => { x with move := x.move.map fun m => { m with held := m.held ++ [r.2] } }
  else t.updFwd fun w => { w with toStore := w.toStore ++ [⟨33 + u, r.2, none⟩] }

/-- A packet of a context sent with its header stamped: what the context keeps of it (13 R444, R453). One free value is drawn. -/
def sendColl (s : State) (n u : Nat) (kind id queue esc : Nat) (sat hold : Bool) (pre : List Byte) (h : Nat)
    (payload : List Byte) : State :=
  let f := closeFrame (fillUdp (pre ++ bytesBE 32 h ++ payload))
  let t := sendPkt s n u hold (originPkt s u kind id queue esc sat f)
  (updCtx t n fun x =>
    { x with sentCredit := nfld h 120 8, sentAt := s.tb.now, paced := if nfld h 116 4 = 0 then x.paced else x.paced + 1 }).drawn

/-- The inputs that a chunk retains: none once its check has passed (13 R454). -/
def heldInputs (k : Chunk) : List Contribution := if k.sent then [] else k.inputs

/-- References of a chunk's retained inputs ended. -/
def endInputs (s : State) (l : List Contribution) : State := l.foldl (fun t c => endRef t c.pkt .none) s

/-- A retained result given up: the unit's reference to its billet ends (13 R446). -/
def dropKept (s : State) (k : Kept) : State :=
  match k.pkt with
  | some id => if (getStored s id).isSome then endRef s id .none else s
  | none => s

/-- BASE moved past what has completed. -/
def advance : Nat → Ctx → Ctx
  | 0, x => x
  | k + 1, x =>
    if x.complete.contains x.base then advance k { x with base := x.base + 1, complete := x.complete.erase x.base } else x

/-- A chunk of a context has completed (13 R443, R446): its inputs' references end, BASE moves, and the result of the chunk
WINDOW before it is no longer retained. -/
def chunkDone (s : State) (n : Nat) (c : BitVec 32) : State :=
  let x := getCtx s n
  let ins := match x.chunks.find? fun k => k.num == c with | some k => heldInputs k | none => []
  let gone := x.kept.filter fun k => k.num == c - BitVec.ofNat 32 x.cfg.window
  let t := updCtx s n fun y =>
    advance 65 { y with chunks := y.chunks.filter fun k => k.num != c, complete := y.complete ++ [c],
                        completed := y.completed + 1, kept := y.kept.filter fun k => !gone.contains k }
  gone.foldl dropKept (endInputs t ins)

/-- The result of chunk or barrier `c` sent to the result destination and retained (13 R446). -/
def sendResult (s : State) (n : Nat) (c : BitVec 32) (inp h : Nat) (payload : List Byte) : State :=
  let x := getCtx s n
  let u := chunkHome x c
  let h := stampHeader s n u inp h
  let id := s.fwd.nextId
  let t := updCtx s n fun y => { y with kept := y.kept ++ [⟨c, bytesBE 32 h ++ payload, some id, inp⟩] }
  sendColl t n u x.cfg.resultKind x.cfg.group x.cfg.queue (nfld h 239 3) (decide (nfld h 238 1 = 1)) (holds x c) x.cfg.tmpl h
    payload

/-- A retained result sent again in answer to a contribution's frame (13 R446, R450), by the unit that answers. -/
def resend (s : State) (n : Nat) (p : Pkt) (k : Kept) : State :=
  let x := getCtx s n
  let u := chunkHome x k.num
  let h := setBits (stampHeader s n u k.pace (beNat (k.bytes.take 32))) 95 1 1
  let t := updCtx s n fun y => { y with retries := y.retries + 1 }
  sendColl t n u 1 p.port x.cfg.queue (nfld h 239 3) (decide (nfld h 238 1 = 1)) false (exchanged p.frame) h (k.bytes.drop 32)

/-! Faults (13 R445, R455) -/

/-- What a context holds thrown away: open chunks, retained inputs and results, recorded arrivals. -/
def ctxClear (s : State) (n : Nat) : State :=
  let x := getCtx s n
  let t := updCtx s n fun y =>
    { y with chunks := [], complete := [], kept := [], arrived := [], requested := false, relWait := false,
             relHdr := none, upSent := false, oldHome := none, move := y.move.map fun m => { m with held := [] } }
  let t := (match x.move with | some m => m.held | none => []).foldl (fun t (p : Pkt) => countFlight t p.ver 0 1) t
  x.kept.foldl dropKept (x.chunks.foldl (fun t k => endInputs t (heldInputs k)) t)

/-- A context becomes faulted. -/
def ctxFault (s : State) (n : Nat) : State := updCtx (ctxClear s n) n fun x => { x with faulted := true, fault := 0xD7 }

/-- The accumulator memory that a context reserves (13 R443). -/
def slotsOf (c : CtxCfg) : Nat := if c.barrier then 0 else c.window * c.elems * wordBytes c.dtype

/-- What the contexts reserve on a unit: those homed there, and those that move away (13 R456). (Log entry 75.) -/
def reserved (s : State) (u : Nat) : Nat :=
  sumN (s.coll.ctxs.map fun kv =>
    let x := kv.2
    let old := match x.move with | some m => m.old == u && !m.isolation | none => false
    if x.enabled && (x.home == u || old) then slotsOf x.cfg else 0)

/-- 24 MiB (13 R443). -/
def accBytes : Nat := 24 * 2 ^ 20

/-- The lowest chunk number that the old home has not opened (13 R456). (Log entry 77.) -/
def firstUnopened : Nat → Ctx → BitVec 32 → BitVec 32
  | 0, _, c => c
  | k + 1, x, c => if x.chunks.any (fun j => j.num == c) || x.complete.contains c then firstUnopened k x (c + 1) else c

/-- A move of a context begun: its EPOCH, its C_cut, its new home. (Log entry 77.) -/
def beginMove (s : State) (n home : Nat) (order : Option Order) (isolation : Bool) : State :=
  let x := getCtx s n
  let cut := if x.cfg.barrier then x.base + 1 else firstUnopened 65 x x.base
  updCtx s n fun y =>
    { y with epoch := (y.epoch + 1) % 16, home := home,
             move := some ⟨x.home, cut, false, [], s.tb.now, order, isolation, isolation⟩ }

/-! Isolation of a unit (17 R544) -/

/-- A unit is isolated. -/
def unitIsolated (s : State) (u : Nat) : Bool := bit s.err.cuIsolated u

/-- The unit to which a context homed on `u` moves: the first after it, wrapping, that is in service and has room. -/
def isolationHome (s : State) (u : Nat) (c : CtxCfg) : Option Nat :=
  ((List.range 15).map fun i => (u + 1 + i) % 16).find? fun v =>
    !unitIsolated s v && decide (reserved s v + slotsOf c ≤ accBytes)

/-- One context of an isolated unit moved, or faulted when no unit can take it. A CONTEXT_MOVE under way goes on as this move.
(Log entry 77.) -/
def isolateCtx (u : Nat) (s : State) (n : Nat) : State :=
  let x := getCtx s n
  let order := x.move.bind fun m => m.order
  if x.home = u then
    match isolationHome s u x.cfg with
    | some v => updUnit (beginMove s n v order true) u fun y => { y with moved := y.moved + 1 }
    | none =>
      if x.faulted then s else
      postAll (updUnit (ctxFault s n) u fun y => { y with movedFaults := y.movedFaults + 1 }) 0x0D01 0
        (packN [(0, 12, n), (12, 4, u)])
  else updCtx s n fun y => { y with move := y.move.map fun m => { m with isolation := true } }

/-- An isolated unit answers no retries of contexts that it once homed (17 R544). -/
def forgetHome (s : State) (u : Nat) : State :=
  s.updColl fun x => { x with ctxs := x.ctxs.map fun kv => (kv.1, match kv.2.oldHome with
    | some h => if h.1 = u then { kv.2 with oldHome := none } else kv.2
    | none => kv.2) }

/-- A collective unit isolated: its contexts move, in ascending order. (Log entry 77.) -/
def isolateUnit (s : State) (u : Nat) : State :=
  if unitIsolated s u then s else
  let t := s.updErr fun e => { e with cuIsolated := e.cuIsolated ||| BitVec.ofNat 16 (2 ^ u) }
  let t := updUnit (forgetHome t u) u fun y => { y with isolating := true, moved := 0, movedFaults := 0 }
  let homed := (t.coll.ctxs.filter fun kv => kv.2.enabled && (kv.2.home == u ||
    (match kv.2.move with | some m => m.old == u && !m.isolation | none => false))).map fun kv => kv.1
  homed.foldl (isolateCtx u) t

/-- A chunk faulted at its unit (13 R455): COLL_FAULT, the error record, and the third within 1 s isolates the unit
(17 R544). (Log entry 77.) -/
def chunkFault (s : State) (n u : Nat) (c : BitVec 32) : State :=
  let recent := (getUnit s u).faultsAt.filter fun a => decide (s.tb.now < a + 1000000000)
  let t := updUnit (ctxFault s n) u fun y =>
    { y with faults := y.faults + 1, faultsAt := s.tb.now :: recent }
  let t := postAll t 0x0D01 0 (packN [(0, 12, n), (12, 4, u), (16, 32, c.toNat)])
  let t := recordError t u 0x08 u 1 3 (packN [(0, 12, n), (12, 32, c.toNat)])
  if 2 ≤ recent.length then isolateUnit t u else t

/-! Chunks -/

/-- The elements of a payload: a contribution's, or a partial's words (13 R439, Table 13-3). -/
def elemsOf (c : CtxCfg) (part : Bool) (pl : List Byte) : List Elem :=
  if part then
    (wordsBE (wordBytes c.dtype) c.elems pl).map fun w =>
      let e := wordElem c.dtype w
      if c.op = 0 then e else if e.nan then nanElem else keyElem (elemKey c.op e)
  else (wordsBE (elemBits c.dtype / 8) c.elems pl).map (elemOf c.dtype c.op)

/-- Elements added into a chunk's; the first ones begin it. -/
def addElems (op : Nat) (a b : List Elem) : List Elem := if a.isEmpty then b else List.zipWith (combine op) a b

/-- The payload of a result, and whether an element was saturated. -/
def resultPayload (c : CtxCfg) (es : List Elem) : List Byte × Bool :=
  let rs := es.map (resultOf c)
  (rs.flatMap fun r => bytesBE (elemBits c.outType / 8) r.1, rs.any fun r => r.2)

/-- The payload of a partial: each element's ACC and FLAGS (13 R447). -/
def partialPayload (c : CtxCfg) (es : List Elem) : List Byte := es.flatMap (partialWord c.dtype)

/-- The largest ESC, the OR of SAT, and the largest pace among a chunk's inputs. -/
def maxEsc (l : List Contribution) : Nat := (l.map fun c => c.esc).foldl max 0
def maxPace (l : List Contribution) : Nat := (l.map fun c => c.pace).foldl max 0

/-- The COOKIE of the lowest-indexed contributor. -/
def lowCookie (l : List Contribution) : Nat :=
  match l.foldl (fun (b : Option Contribution) c => match b with
    | some x => if c.contrib < x.contrib then some c else b
    | none => some c) none with
  | some c => c.cookie
  | none => 0

/-- CONTRIB and COOKIE of a header for which the spec gives none: free values. (Log entry 76.) -/
def freeContrib (s : State) : Nat := freeNat s / 2 ^ 16 % 2 ^ 9
def freeCookie (s : State) : Nat := freeNat s / 2 ^ 32 % 2 ^ 32

/-- A chunk has passed its check (13 R446, R447, R454): its result is sent, or, under RESULT_MODE 1, its partial goes to the
parent and the chunk stays open. -/
def chunkPass (s : State) (n : Nat) (k : Chunk) (recomputed : Bool) : State :=
  let x := getCtx s n
  let esc := maxEsc k.inputs
  let sat := k.inputs.any fun c => c.sat
  if x.cfg.partialUp then
    let u := chunkHome x k.num
    let h := stampHeader s n u (maxPace k.inputs) (ctxHeader x 4 x.cfg.dtype x.cfg.upContext x.cfg.upContrib k.num.toNat
      (freeCookie s) x.cfg.elems esc sat recomputed false)
    let t := updCtx (endInputs s k.inputs) n fun y =>
      { y with chunks := y.chunks.map fun j =>
          if j.num = k.num then { j with sent := true, check := false } else j }
    sendColl t n u 1 x.cfg.upPort x.cfg.queue esc sat false x.cfg.tmpl h (partialPayload x.cfg k.elems)
  else
    let r := resultPayload x.cfg k.elems
    let h := ctxHeader x 1 x.cfg.outType n (freeContrib s) k.num.toNat (lowCookie k.inputs) x.cfg.elems esc sat recomputed r.2
    sendResult (chunkDone s n k.num) n k.num (maxPace k.inputs) h r.1

/-! Barriers (13 R450 to R452) -/

/-- A barrier's release sent (13 R450): `h` is its header; the current barrier advances, and a pre-ramp request of the context
has been answered by a release (R451). -/
def barrierRelease (s : State) (n inp h : Nat) : State :=
  let x := getCtx s n
  let c := x.base
  let t := x.kept.foldl dropKept (updCtx s n fun y =>
    { y with base := y.base + 1, completed := y.completed + 1, kept := [], arrived := [], requested := false, relWait := false,
             relHdr := none, upSent := false })
  let t := t.updPwr fun p => { p with requests := p.requests.map fun r =>
    if r.ctx = n ∧ r.relAt = none then { r with relAt := some s.tb.now } else r }
  sendResult t n c inp h []

/-- The release of a barrier whose members have all arrived: the context's own, or the parent's forwarded. -/
def ownRelease (s : State) (n : Nat) : State :=
  let x := getCtx s n
  match x.relHdr with
  | some r => barrierRelease s n r.1 r.2
  | none =>
  barrierRelease s n (maxPace x.arrived)
    (ctxHeader x 3 x.cfg.dtype n (freeContrib s) x.base.toNat (lowCookie x.arrived) 0 (maxEsc x.arrived)
      (x.arrived.any fun c => c.sat) false false)

/-- A release waits for the ramp (13 R452): RAMP_WAIT, the ramp not reported complete, RAMP_WAIT_MAX_US not passed.
(Log entry 75.) -/
def rampHolds (s : State) (n : Nat) : Bool :=
  let x := getCtx s n
  x.cfg.rampWait && !(s.pwr.requests.any fun r => r.ctx == n && r.relAt.isNone && r.done) &&
    decide (s.tb.now < x.lastAt + x.cfg.rampMaxUs * 1000)

/-- Every member of a barrier has arrived: RELEASE, at once or after the ramp, or an ARRIVE to the parent (13 R450).
(Log entry 75.) -/
def barrierFull (s : State) (n : Nat) : State :=
  let x := getCtx s n
  if x.cfg.partialUp then
    let esc := maxEsc x.arrived
    let sat := x.arrived.any fun c => c.sat
    let h := stampHeader s n x.home (maxPace x.arrived)
      (ctxHeader x 2 x.cfg.dtype x.cfg.upContext x.cfg.upContrib x.base.toNat (freeCookie s) 0 esc sat false false)
    sendColl (updCtx s n fun y => { y with upSent := true }) n x.home 1 x.cfg.upPort x.cfg.queue esc sat false x.cfg.tmpl h []
  else if rampHolds s n then updCtx s n fun y => { y with relWait := true }
  else ownRelease s n

/-- The pre-ramp request of a barrier (13 R451, R452): once, when the arrivals reach the threshold. (Log entry 86.) -/
def preramp (s : State) (n : Nat) : State :=
  let x := getCtx s n
  if x.cfg.prerampPct ≠ 0 ∧ x.requested = false ∧
      (x.cfg.prerampPct * x.cfg.contributors + 99) / 100 ≤ x.arrived.length then
    (updCtx s n fun y => { y with requested := true }).updPwr fun p =>
      { p with requests := p.requests ++ [⟨n, x.home, x.cfg.rampW, 0, s.tb.now, none, false, false⟩] }
  else s

end Sys2Proof.Machine
end

