-- ==== Sys2Proof/Machine/Collective.lean ====
section
/-! DEFINITION. The commands of chapter 13: the orders of Table 13-6, arrivals at the units, recomputation, time limits, moves. -/

namespace Sys2Proof.Machine

/-! Orders -/

/-- STATE of a context (13 Table 13-8). -/
def ctxState (x : Ctx) : Nat :=
  if x.faulted then 2 else if x.move.isSome then 3 else b2n x.enabled

/-- The READ_CONTEXT result (13 Table 13-8). -/
def ctxWord (x : Ctx) : Nat :=
  packN [(0, 2, ctxState x), (2, 4, x.home), (6, 4, x.epoch), (10, 7, x.chunks.length), (17, 8, x.fault),
    (32, 32, x.base.toNat), (64, 64, x.completed.toNat), (128, 48, x.duplicates.toNat), (176, 48, x.drops.toNat),
    (224, 32, x.recomputes.toNat), (256, 32, x.retries.toNat), (288, 32, x.paced.toNat)]

/-- 13 R458: READ_CONTEXT. -/
def execReadContext (o : Order) (s : State) : Host.Outcome State Fault Refusal :=
  .next (runOrder (readForm 0x0D01 [0xD1] 0xFFF [] 64 modesOn) o s {} fun t =>
    (t, .result (bytesLE 64 (ctxWord (getCtx t o.inst))) 0))

/-- The READ_CU result (13 Table 13-9). -/
def unitWord (s : State) (u : Nat) : Nat :=
  let x := getUnit s u
  packN [(0, 15, (accBytes - reserved s u) / 1024), (15, 1, b2n (unitThrottled s.pwr)),
    (16, 13, (s.coll.ctxs.filter fun kv => kv.2.enabled && kv.2.home == u).length), (32, 32, inputBytes x / 1024),
    (64, 64, x.elements.toNat), (128, 48, x.relayed.toNat), (176, 32, x.recomputes.toNat), (208, 32, x.faults.toNat),
    (240, 48, x.inputFull.toNat)]

/-- 13 R458: READ_CU. -/
def execReadCu (o : Order) (s : State) : Host.Outcome State Fault Refusal :=
  .next (runOrder (readForm 0x0D02 [0xD2] 0xF [] 64 modesOn) o s {} fun t =>
    (t, .result (bytesLE 64 (unitWord t o.inst)) 0))

/-- The settings of a CONTEXT_SET payload (13 Table 13-7). -/
def ctxCfgOf (bs : List Byte) : CtxCfg :=
  let h := leNat (slice bs 0 64)
  let f := fun lo len => nfld h lo len
  let b := fun i => decide (nfld h i 1 = 1)
  { barrier := b 1, dtype := f 2 4, outType := f 6 4, op := f 10 2, ovf := b 12, partialUp := b 13, resultKind := f 14 3,
    job := f 20 16, contributors := f 36 10, elems := f 46 14, window := f 60 7, group := f 71 16, upPort := f 87 9,
    upContrib := f 96 9, upContext := f 105 12, queue := f 117 4, timeoutMs := f 121 16, prerampPct := f 137 7,
    rampW := f 144 11, rampWait := b 155, rampMaxUs := f 156 16, shift := f 172 2, first := BitVec.ofNat 32 (f 174 32),
    tmpl := slice bs 64 (f 206 7) }

/-- Reserved encodings of an enabling set (13 Tables 13-1, 13-2, 13-7). (Log entry 10.) -/
def ctxReserved (c : CtxCfg) : Bool :=
  decide (6 ≤ c.dtype) || decide (6 ≤ c.outType) || decide (c.op = 3) || !(c.resultKind == 2 || c.resultKind == 4)

/-- Arguments of an enabling set out of range (13 R441, R459, Tables 13-1, 13-7). (Log entry 10.) -/
def ctxBad (c : CtxCfg) (len : Nat) : Bool :=
  let top := if c.partialUp then maxPartial c.dtype else maxElems c.dtype
  (!c.barrier && (decide (c.elems < 8) || decide (top < c.elems) || decide (c.elems % 8 ≠ 0) ||
    (c.dtype == 5) != (c.outType == 5))) ||
  decide (c.contributors < 1) || decide (512 < c.contributors) || decide (c.window < 1) || decide (64 < c.window) ||
  decide (c.timeoutMs < 1) || decide (100 < c.prerampPct) || decide (1350 < c.rampW) || decide (c.rampMaxUs < 1) ||
  decide (len < 42) || decide (66 < len) || decide ((if c.resultKind = 2 then 4096 else 64) ≤ c.group)

/-- The checks of a CONTEXT_SET's payload; what a disabling set does not use is not tested. (Log entries 10 and 75.) -/
def ctxChecks (s : State) (n : Nat) (bs : List Byte) : Checks :=
  let h := leNat (slice bs 0 64)
  let on := decide (nfld h 0 1 = 1)
  let c := ctxCfgOf bs
  let len := nfld h 206 7
  let x := getCtx s n
  let home := nfld h 67 4
  { malformed := !onlyFields h [(0, 17), (20, 193)] || (bs.drop (64 + len)).any (fun b => b != 0) || (on && ctxReserved c),
    badArgument := on && ctxBad c len,
    chapter :=
      if x.move.isSome then some 0x8D03
      else if on && x.enabled && !x.faulted then some 0x8D01
      else if on && decide (accBytes < reserved (updCtx s n fun y => { y with enabled := false }) home + slotsOf c) then
        some 0x8D02
      else none }

/-- 13 R459: CONTEXT_SET. -/
def execContextSet (o : Order) (s : State) : Host.Outcome State Fault Refusal :=
  .next (runPtr (ptrForm 0x4D01 [0xD1] 0xFFF modesSet true) o s { malformed := ptrLen o != 192 } (ctxChecks s o.inst)
    fun bs t =>
      let h := leNat (slice bs 0 64)
      let n := o.inst
      let c := ctxCfgOf bs
      let t := ctxClear t n
      if nfld h 0 1 = 1 then
        (updCtx t n fun x =>
          { x with cfg := c, enabled := true, faulted := false, home := nfld h 67 4, base := c.first, sentCredit := c.window,
                   sentAt := t.tb.now }, .done stSuccess 0)
      else (updCtx t n fun x => { x with enabled := false, faulted := false }, .done stSuccess 0))

/-- 13 R456: CONTEXT_MOVE. -/
def execContextMove (o : Order) (s : State) : Host.Outcome State Fault Refusal :=
  let x := getCtx s o.inst
  let home := o.f 0 4
  let c : Checks :=
    { badArgument := x.home == home,
      chapter := if x.move.isSome then some 0x8D03
        else if x.enabled && decide (accBytes < reserved s home + slotsOf x.cfg) then some 0x8D02 else none }
  .next (runOrder (setForm 0x4D02 [0xD1] 0xFFF [(0, 4)] modesSet true) o s c fun t =>
    (beginMove t o.inst home (some o) false, .later))

/-- 13 R458: CONTEXT_RESET. -/
def execContextReset (o : Order) (s : State) : Host.Outcome State Fault Refusal :=
  let x := getCtx s o.inst
  let c : Checks :=
    { chapter := if x.move.isSome then some 0x8D03 else if !x.enabled && !x.faulted then some 0x8D04 else none }
  .next (runOrder (setForm 0x4D03 [0xD1] 0xFFF [] modesSet true) o s c fun t =>
    (updCtx (ctxClear t o.inst) o.inst fun y => { y with faulted := false, base := y.cfg.first }, .done stSuccess 0))

/-- 13 R458: COLL_SET. -/
def execCollSet (o : Order) (s : State) : Host.Outcome State Fault Refusal :=
  .next (runOrder (setForm 0x4D04 [0xD3] 0 [(0, 32)] modesSet true) o s { badArgument := decide (o.f 16 16 < 256) } fun t =>
    (t.updColl fun x => { x with udpPort := o.f 0 16, limitKib := o.f 16 16 }, .done stSuccess 0))

/-! Arrivals -/

/-- KIND of a collective frame; one without the framing counts as a contribution that is malformed. -/
def kindOf (s : State) (f : List Byte) : Nat := match collParse s f with | some h => nfld h.1 248 4 | none => 0

/-- The payload bytes that a KIND carries (13 R439). -/
def payloadBytes (c : CtxCfg) (kind : Nat) : Nat :=
  let n := match kind with
    | 0 => c.elems * (elemBits c.dtype / 8)
    | 1 => c.elems * (elemBits c.outType / 8)
    | 4 => c.elems * wordBytes c.dtype
    | _ => 0
  (n + 3) / 4 * 4

/-- A collective packet is malformed for a context (13 R439, R448). (Log entry 74.) -/
def collMalformed (c : CtxCfg) (port h : Nat) (pl : List Byte) : Bool :=
  let kind := nfld h 248 4
  let up := c.partialUp && port == c.upPort
  let takes := if c.barrier then kind == 2 || (kind == 3 && up) else kind == 0 || kind == 4 || (kind == 1 && up)
  nfld h 252 4 != 1 || decide (5 ≤ nfld h 116 4) || nfld h 236 2 != 0 || nfld h 192 7 != 0 || nfld h 80 13 != 0 ||
    nfld h 0 32 != 0 || !takes || nfld h 244 4 != (if kind = 1 then c.outType else c.dtype) || nfld h 242 2 != c.op ||
    nfld h 64 16 != (if c.barrier then 0 else c.elems) || pl.length != payloadBytes c kind ||
    (kind == 4 && (wordsBE (wordBytes c.dtype) c.elems pl).any fun w => !wordOk c.dtype w)

/-- What is found of a packet at its context: the cause for which it is dropped, or its header and payload.
(Log entry 74.) -/
def collJudge (s : State) (x : Ctx) (p : Pkt) : Except Nat (Nat × List Byte) :=
  if !x.enabled then .error 0xD1
  else if x.faulted then .error 0xD7
  else match collParse s p.frame with
    | none => .error 0xD0
    | some h =>
      let kind := nfld h.1 248 4
      if collMalformed x.cfg p.port h.1 h.2 then .error 0xD0
      else if nfld h.1 208 16 ≠ x.cfg.job ∨ ((kind = 0 ∨ kind = 2 ∨ kind = 4) ∧ x.cfg.contributors ≤ nfld h.1 199 9) then
        .error 0xD2
      else .ok h

/-- A packet dropped at its context. -/
def collDrop (s : State) (n id : Nat) (p : Pkt) (cause : Nat) (u : BilletUpset) : State :=
  dropRef (ctxDrop s n cause) id p.port cause u

/-- A packet consumed whose billet the unit needs no more (07 R244). -/
def collConsume (s : State) (id : Nat) (u : BilletUpset) : State := endRef (finaliseStored s id Finish.eaten) id u

/-- The first packet of a unit's input queue, with the queue without it. -/
def takeInput (s : State) (u : Nat) : Option (Nat × Stored × State) :=
  match (getUnit s u).input with
  | e :: es => (getStored s e.1).map fun x => (e.1, x, updUnit s u fun y => { y with input := es })
  | [] => none

/-- A packet at the front of a unit whose context has moved on: passed to the home it has now. -/
def passOn (s : State) (u h id bytes : Nat) : State :=
  updUnit (relayedAt s u h) h fun y => { y with input := y.input ++ [(id, bytes)] }

/-- A command takes the first packet of a unit's input queue, of the kinds `p` names, in SERVICE and COAST (13 R457). -/
def withInput (s : State) (u : Nat) (p : Nat → Bool) (f : State → Nat → Pkt → State) : State :=
  if !modeOk s || s.mode.haltEntry then s else
  match takeInput s u with
  | none => s
  | some (id, x, t) =>
    if !p (kindOf s x.pkt.frame) then s
    else
      let h := collHome s x.pkt.dec.id x.pkt.frame
      if h ≠ u then passOn t u h id x.bytes else pfcTryAll (f t id x.pkt)

/-- What a contribution's header says of it. -/
def contribOf (h id : Nat) : Contribution :=
  ⟨nfld h 199 9, id, nfld h 32 32, nfld h 239 3, decide (nfld h 238 1 = 1), if nfld h 116 4 = 0 then 0 else nfld h 100 16 + 1⟩

/-- A contribution accumulated (13 R440, R443): the chunk that is then complete is checked. -/
def accumulate (s : State) (n u id h : Nat) (pl : List Byte) (ok : Bool) : State :=
  let x := getCtx s n
  let c := chunkOf h
  let k := (x.chunks.find? fun k => k.num == c).getD ⟨c, [], [], s.tb.now, false, false, false⟩
  let es := addElems x.cfg.op k.elems (elemsOf x.cfg (nfld h 248 4 == 4) pl)
  let k := { k with inputs := k.inputs ++ [contribOf h id], elems := es,
                    overflow := k.overflow || (x.cfg.op == 0 && es.any fun e => accOver x.cfg.dtype e.acc) }
  let full := decide (x.cfg.contributors ≤ k.inputs.length)
  let good := ok && !k.overflow
  let k := { k with check := full && !good }
  let t := finaliseStored (updUnit s u fun y => { y with elements := y.elements + BitVec.ofNat 64 x.cfg.elems }) id Finish.eaten
  let t := updCtx t n fun y => { y with chunks := y.chunks.filter (fun j => j.num != c) ++ [k] }
  if full && good then chunkPass t n k false else t

/-- A contribution or a partial at its context (13 R443). -/
def contribute (s : State) (n u id : Nat) (p : Pkt) (h : Nat) (pl : List Byte) (ok : Bool) (up : BilletUpset) : State :=
  let x := getCtx s n
  let c := chunkOf h
  let done := x.complete.contains c || seqBefore c x.base
  let kept := x.kept.find? fun k => k.num == c
  if decide (x.cfg.window ≤ (c - x.base).toNat) && !(done && kept.isSome) then collDrop s n id p 0xD3 up
  else match done, kept with
    | true, some k => collConsume (resend s n p k) id up
    | true, none => collDrop s n id p 0xD4 up
    | false, _ =>
      if x.chunks.any fun k => k.num == c && k.inputs.any fun i => i.contrib == nfld h 199 9 then collDrop s n id p 0xD5 up
      else accumulate s n u id h pl ok

/-- 13 R443: a contribution or a partial at a unit. `ok` is the check of a chunk that it completes (R454). -/
def execCollContributionArrival (u : Nat) (ok : Bool) (up : BilletUpset) (s : State) : Host.Outcome State Fault Refusal :=
  .next (withInput s u (fun k => !(k == 1 || k == 2 || k == 3)) fun t id p =>
    let n := p.dec.id
    match collJudge t (getCtx t n) p with
    | .error c => collDrop t n id p c up
    | .ok (h, pl) => contribute t n u id p h pl ok up)

/-- 13 R450: an ARRIVE at a unit. -/
def execBarrierArrive (u : Nat) (up : BilletUpset) (s : State) : Host.Outcome State Fault Refusal :=
  .next (withInput s u (fun k => k == 2) fun t id p =>
    let n := p.dec.id
    let x := getCtx t n
    match collJudge t x p with
    | .error c => collDrop t n id p c up
    | .ok (h, _) =>
      let c := chunkOf h
      if c = x.base then
        if x.arrived.any fun a => a.contrib == nfld h 199 9 then collDrop t n id p 0xD5 up
        else
          let t := collConsume t id up
          let t := updCtx t n fun y =>
            { y with arrived := y.arrived ++ [contribOf h id], lastAt := t.tb.now,
                     arrivedAt := if y.arrived.isEmpty then t.tb.now else y.arrivedAt }
          let t := preramp t n
          if x.cfg.contributors ≤ (getCtx t n).arrived.length then barrierFull t n else t
      else match x.kept.find? fun k => k.num == c && c + 1 == x.base with
        | some k => collConsume (resend t n p k) id up
        | none => collDrop t n id p 0xD4 up)

/-- A parent's header as the unit sends it on (13 R447): CONTEXT rewritten, and RETRY clear in a first sending. -/
def forwarded (n h : Nat) : Nat := setBits (setBits h 224 12 n) 95 1 0

/-- 13 R447, R448, R450: a parent's RESULT or RELEASE at a unit completes an open chunk or barrier. -/
def execCollParentResult (u : Nat) (up : BilletUpset) (s : State) : Host.Outcome State Fault Refusal :=
  .next (withInput s u (fun k => k == 1 || k == 3) fun t id p =>
    let n := p.dec.id
    let x := getCtx t n
    match collJudge t x p with
    | .error c => collDrop t n id p c up
    | .ok (h, pl) =>
      let c := chunkOf h
      let pace := (contribOf h id).pace
      if x.cfg.barrier then
        if c = x.base ∧ x.arrived.isEmpty = false then
          let t := updCtx (collConsume t id up) n fun y => { y with relHdr := some (pace, forwarded n h) }
          if rampHolds t n then updCtx t n fun y => { y with relWait := true } else ownRelease t n
        else collDrop t n id p 0xD0 up
      else if x.chunks.any fun k => k.num == c then
        sendResult (chunkDone (collConsume t id up) n c) n c pace (forwarded n h) pl
      else collDrop t n id p 0xD0 up)

/-! Recomputation (13 R455) -/

/-- A chunk's elements from its retained inputs, read again. (Log entry 75.) -/
def recompute (s : State) (c : CtxCfg) (k : Chunk) : List Elem :=
  k.inputs.foldl (fun es i =>
    match (getStored s i.pkt).bind fun x => collParse s x.pkt.frame with
    | some h => addElems c.op es (elemsOf c (nfld h.1 248 4 == 4) h.2)
    | none => es) []

/-- 13 R455: a recomputation of a context's chunk ends. `badRead` is an input, by its place, whose billet fails its CRC, `pass`
the second check. -/
def execCollRecompute (n : Nat) (badRead : Option Nat) (pass : Bool) (s : State) : Host.Outcome State Fault Refusal :=
  .next (
    let x := getCtx s n
    match x.chunks.find? fun k => k.check with
    | none => s
    | some k =>
      let u := chunkHome x k.num
      let s := updUnit s u fun y => { y with recomputes := y.recomputes + 1 }
      let es := recompute s x.cfg k
      let wide := x.cfg.op == 0 && es.any fun e => accOver x.cfg.dtype e.acc
      match badRead.bind fun i => k.inputs[i]? with
      | some i =>
        let port := match getStored s i.pkt with | some y => y.pkt.port | none => 0
        pfcTryAll (chunkFault (crcFailed s i.pkt port) n u k.num)
      | none =>
        if pass && !wide then
          let t := chunkPass (updCtx s n fun y => { y with recomputes := y.recomputes + 1 }) n { k with elems := es } true
          let t := postAll t 0x0D03 0 (packN [(0, 12, n), (12, 4, u), (16, 32, k.num.toNat)])
          pfcTryAll (recordError t u 0x08 u 0 2 (packN [(0, 12, n), (12, 32, k.num.toNat)]))
        else pfcTryAll (chunkFault s n u k.num))

/-! Time limits and notices -/

/-- 13 R445, R450: an open chunk, or a barrier some of whose members have arrived, has waited TIMEOUT_MS. -/
def execCollTimeout (n : Nat) (s : State) : Host.Outcome State Fault Refusal :=
  .next (
    let x := getCtx s n
    let due := fun (b : Nat) => decide (b + x.cfg.timeoutMs * 1000000 ≤ s.tb.now)
    let hit := if x.cfg.barrier then
        if !x.arrived.isEmpty && !x.relWait && due x.arrivedAt then some x.base else none
      else (x.chunks.foldl (fun (b : Option Chunk) k => match b with
          | some y => if k.began < y.began then some k else b
          | none => some k) none).bind fun k => if due k.began then some k.num else none
    match hit with
    | some c =>
      if !x.enabled || x.faulted || !modeOk s then s
      else pfcTryAll (postAll (ctxFault s n) 0x0D02 0 (packN [(0, 12, n), (16, 32, c.toNat)]))
    | none => s)

/-- 13 R444: nothing sent for 100 us while CREDIT has changed: a NOTICE goes to the result destination. -/
def execCollNotice (n : Nat) (s : State) : Host.Outcome State Fault Refusal :=
  .next (
    let x := getCtx s n
    if x.enabled && !x.faulted && modeOk s && creditOf s x != x.sentCredit && decide (x.sentAt + 100000 ≤ s.tb.now) then
      let h := stampHeader s n x.home 0 (ctxHeader x 5 x.cfg.dtype n (freeContrib s) (freeNat s / 2 ^ 64) (freeCookie s) 0 0 false
        false false)
      sendColl s n x.home x.cfg.resultKind x.cfg.group x.cfg.queue 0 false false x.cfg.tmpl h []
    else s)

/-- 13 R452: RAMP_WAIT_MAX_US has passed since the last arrival: a held release is sent. -/
def execRampWaitExpiry (n : Nat) (s : State) : Host.Outcome State Fault Refusal :=
  .next (if (getCtx s n).relWait && !rampHolds s n then ownRelease s n else s)

/-- 13 R451: a pre-ramp request is withdrawn 100 us after the barrier's release, or after 10 ms without one; its share of the
ballast is removed at once (16 R509). -/
def execPrerampWithdraw (n : Nat) (s : State) : Host.Outcome State Fault Refusal :=
  .next (
    let due := fun (r : PreRamp) => r.ctx == n && (match r.relAt with
      | some t => decide (t + 100000 ≤ s.tb.now)
      | none => decide (r.sentAt + 10000000 ≤ s.tb.now))
    s.updPwr fun p =>
      let rest := p.requests.filter fun r => !due r
      let total := sumN (p.requests.map fun r => r.grantW)
      let left := p.ballastDw * sumN (rest.map fun r => r.grantW) / max total 1
      { p with requests := rest, ballastDw := left, estimateDw := p.estimateDw - (p.ballastDw - left) })

/-! Moves (13 R456) -/

/-- The results that a new home holds released to step 6. (Log entry 77.) -/
def releaseMove (s : State) (n : Nat) : State :=
  let x := getCtx s n
  let held := match x.move with | some m => m.held | none => []
  (updCtx s n fun y => { y with move := y.move.map fun m => { m with held := [], released := true } }).updFwd fun w =>
    { w with toStore := w.toStore ++ held.map fun p => ⟨33 + x.home, p, none⟩ }

/-- 13 R456: the old home has sent the result of every chunk below C_cut; its drain marker reaches the new home, which releases
what it holds, and the move ends. -/
def execCollMoveMarker (n : Nat) (s : State) : Host.Outcome State Fault Refusal :=
  .next (
    let x := getCtx s n
    match x.move with
    | none => s
    | some m =>
      let open_ := x.enabled && !x.faulted && (if x.cfg.barrier then seqBefore x.base m.cut else
        x.chunks.any fun k => seqBefore k.num m.cut)
      if m.isolation || open_ then s
      else
        let t := updCtx (releaseMove s n) n fun y => { y with move := none, oldHome := some (m.old, m.cut) }
        let t := postAll t 0x0D04 0 (packN [(0, 12, n), (12, 4, m.old), (16, 4, x.home), (20, 4, x.epoch)])
        match m.order with
        | some o => finishThis t 0x4D02 o stSuccess x.epoch
        | none => t)

/-- 13 R456: TIMEOUT_MS has passed without the marker: the new home releases what it holds. -/
def execMoveHoldTimeout (n : Nat) (s : State) : Host.Outcome State Fault Refusal :=
  .next (
    let x := getCtx s n
    match x.move with
    | some m =>
      if !m.released && decide (m.began + x.cfg.timeoutMs * 1000000 ≤ s.tb.now) then releaseMove s n else s
    | none => s)

end Sys2Proof.Machine
end

