-- ==== Sys2Proof/Machine/Links.lean ====
section
/-! DEFINITION. Questions one chapter's commands ask of another's state. -/

namespace Sys2Proof.Machine

/-- The gateway port of an enabled sequencer group (12 R420). -/
def gatewayInUse (s : State) (n : Nat) : Bool :=
  s.grp.seqs.any fun kv => seqEnabled kv.2 && (match kv.2.cfgs.find? fun c => c.2.enable with
    | some c => c.2.gateway == n
    | none => false)

end Sys2Proof.Machine
end

