-- ==== Sys2Proof/Machine/PtpOps.lean ====
section
/-! DEFINITION. The PTP instance's port states (06 R199, R203): the alternate BMCA of ITU-T G.8275.1 over the Announce messages that
the ports have received. The spec names the standards; what is taken from them is PRESUMED (log entry 41). -/

namespace Sys2Proof.Machine

def getPtp (s : State) (n : Nat) : PtpPort := SMap.get (fun _ => PtpPort.reset) s.tb.ptp n
def getPtpRun (s : State) (n : Nat) : PtpRun := SMap.get (fun _ => PtpRun.reset) s.tb.ptpRun n
def updPtpRun (s : State) (n : Nat) (f : PtpRun → PtpRun) : State :=
  s.updTb fun b => { b with ptpRun := SMap.upd (fun _ => PtpRun.reset) b.ptpRun n f }

/-- The states a port is in (IEEE 1588-2019 9.2.5). -/
inductive PtpState where
  | disabled | master | slave | passive
deriving DecidableEq, Repr

/-- This clock's identity: the Device Serial Number, an EUI-64. (Log entry 41.) -/
def clockId : Nat := Config.serial.toNat

/-- The port identity of port `n`. -/
def portId (n : Nat) : Nat := clockId * 65536 + (n + 1)

/-- This clock's own data set: class 6 while it follows a source other than PTP, 135 and 165 in HOLDOVER, else 248. (Log entry 41.) -/
def ownDs (s : State) : Announce :=
  let cls :=
    match s.tb.servo with
    | .locked => if s.tb.set.source = 1 ∨ s.tb.set.source = 3 then 6 else 248
    | .holdover => if tbLocked s.tb then 135 else 165
    | _ => 248
  { cls := cls, acc := if cls = 6 then 0x21 else 0xFE, var := if cls = 6 then 0x4E5D else 0xFFFF, prio2 := 128, gm := clockId,
    steps := 0, sender := clockId * 65536, flags := 0x08, timeSource := 0xA0 }

/-- The Announce that a port offers: of two received within 500 ms of one another, and not for 375 ms out of date. -/
def ptpOffer (s : State) (n : Nat) : Option Announce :=
  let r := getPtpRun s n
  if (getPtp s n).role ≠ 1 ∨ portExists s n = false then none
  else match r.ann, r.annPrev with
    | some a, some t =>
      if r.annAt ≤ t + 500000000 ∧ s.tb.now < r.annAt + 375000000 ∧ a.steps < 255 ∧ a.sender / 65536 ≠ clockId then some a else none
    | _, _ => none

/-- What two data sets are compared by before their place in the network: the grandmaster's identity counts only beyond class 127. -/
def dsRank (a : Announce) (localPriority : Nat) : List Nat :=
  [a.cls, a.acc, a.var, a.prio2, localPriority, if a.cls ≤ 127 then 0 else a.gm]

/-- The first list comes before the second. -/
def lexLt : List Nat → List Nat → Bool
  | a :: as, b :: bs => if a < b then true else if b < a then false else lexLt as bs
  | _, _ => false

/-- The best of the offers of the ports that may be slaves, with its port and its rank: first by rank, then by its steps, its sender
and its port. -/
def ptpBest (s : State) : Option (Nat × Announce × List Nat) :=
  let offers := s.tb.ptp.filterMap fun kv =>
    if kv.2.masterOnly then none
    else (ptpOffer s kv.1).map fun a => (kv.1, a, dsRank a kv.2.localPriority)
  offers.foldl (fun best x => match best with
    | some b =>
      if lexLt (x.2.2 ++ [x.2.1.steps, x.2.1.sender, x.1]) (b.2.2 ++ [b.2.1.steps, b.2.1.sender, b.1]) then some x else some b
    | none => some x) none

/-- The state in which the alternate BMCA leaves a port. -/
def ptpState (s : State) (n : Nat) : PtpState :=
  let p := getPtp s n
  if p.role ≠ 1 ∨ portExists s n = false then .disabled else
  let own := dsRank (ownDs s) 128
  let offer := ptpOffer s n
  if (ownDs s).cls ≤ 127 then
    match offer with
    | some a => if lexLt (dsRank a p.localPriority) own && !p.masterOnly then .passive else .master
    | none => .master
  else if p.masterOnly then .master
  else match ptpBest s, offer with
    | some b, some a =>
      if !lexLt b.2.2 own then .master
      else if b.1 = n then .slave
      else if dsRank a p.localPriority = b.2.2 ∧
          (a.steps = b.2.1.steps ∨ (a.steps = b.2.1.steps + 1 ∧ a.sender < portId n)) then .passive
      else .master
    | _, _ => .master

/-- The port named by SOURCE_PORT is in the SLAVE state (06 R199). -/
def ptpSlave (s : State) : Bool := ptpState s s.tb.set.sourcePort == .slave

end Sys2Proof.Machine
end

