-- ==== Sys2Proof/Machine/TimeOps.lean ====
section
/-! DEFINITION. Shared operations on the timebase: the clock's tick, steps, source qualification, servo evaluations
(06 R193 to R201). -/

namespace Sys2Proof.Machine

/-- The slew's rate in parts per 10^12, within 50 ppm (06 R198); DT's whole rate never falls below 1 - 50 ppm (R220).
(Log entry 37.) -/
def slewRate (b : TbSt) : Nat :=
  min (min Config.slewPpt 50000000) (if b.slew < 0 then (50000000 + b.freqPpt).toNat else 50000000)

/-- The units of slew that one nanosecond removes. (Log entry 37.) -/
def slewStep (b : TbSt) : Nat := min ((b.slewAcc + 65536 * slewRate b) / 10 ^ 12) b.slew.natAbs

/-- One nanosecond of the timebase (06 R194): DT advances at the rate in force, the slew included; HOLD_S counts, and
PPS_OUT falls 1 ms after its edge (R202). (Log entries 2 and 37.) -/
def tbTick (b : TbSt) : TbSt :=
  let k := slewStep b
  let dir : Int := if 0 ≤ b.slew then 1 else -1
  let acc := b.acc + 65536 * b.freqPpt
  let adv : Int := 65536 + acc / 10 ^ 12 + dir * k
  { b with now := b.now + 1, dt := b.dt + adv.toNat, acc := acc % 10 ^ 12,
           slewAcc := if b.slew = 0 then 0 else (b.slewAcc + 65536 * slewRate b) % 10 ^ 12, slew := b.slew - dir * k,
           holdS := if b.servo = .holdover then min ((b.now + 1 - b.holdAt) / 1000000000) 65535 else b.holdS,
           ppsOut := b.ppsOut && decide (b.now + 1 < b.ppsOutEnd) }

/-- What a nanosecond of elapsed time does when no command waits (log entry 2): the timebase runs, in DORMANT elapsed time alone
(03 R94), and the events whose millisecond has ended are posted. -/
def tick (s : State) : State :=
  winFlush (if s.mode.mode == .dormant then s.updTb fun b => { b with now := b.now + 1 } else updTime s tbTick)

/-- A bin that begins with second `n / len * len`. (Log entry 35.) -/
def newBin (n : Nat) (part suspect : Bool) : Bin := ⟨n, false, suspect, part, 0, 0, 0, 0, 0⟩

/-- No second is evaluated (05 R185). -/
def unevaluated (s : State) : Bool := orderMode s == .probe || orderMode s == .halt

/-- The bins of a kind after a step of DT from second `old` to second `new` (05 R185, 06 R201): those that hold either are SUSPECT,
and the one that holds `new` is the current one, whether it was kept or begins now. (Log entry 35.) -/
def stepBins (part : Bool) (old new len keep : Nat) (bs : List Bin) : List Bin :=
  let bs := bs.map fun b => if b.start = old / len * len ∨ b.start = new / len * len then { b with suspect := true } else b
  let cur := match bs.find? fun b => b.start == new / len * len with
    | some b => { b with final := false, part := b.part || part }
    | none => newBin (new / len * len) part true
  (cur :: bs.filter fun b => b.start != new / len * len).take keep

/-- Bins that a step of DT touches are SUSPECT (05 R185, 06 R201). -/
def suspectBins (s : State) (old new : Nat) : State :=
  (portList s).foldl (fun t p => updPcsPort t p fun q =>
    { q with pm := { q.pm with q15 := stepBins (unevaluated s) (old / dtSec) (new / dtSec) 900 97 q.pm.q15,
                               h24 := stepBins (unevaluated s) (old / dtSec) (new / dtSec) 86400 2 q.pm.h24 } }) s

/-- The selected source is qualified (06 R199). (Log entry 38.) -/
def qualified (s : State) : Bool :=
  match s.tb.set.source with
  | 0 => true
  | 1 => s.tb.refOk && s.tb.ppsOk
  | 2 => ptpSlave s
  | _ => let l := getLtt s s.tb.set.sourcePort; isNative s s.tb.set.sourcePort && !l.samples.isEmpty && l.farLocked

/-- The mean of the learned frequencies (06 R198). -/
def learnedMean (b : TbSt) : Int :=
  if b.learned.isEmpty then b.freqPpt else (b.learned.map fun x => x.2).foldl (· + ·) 0 / b.learned.length

/-- Until a cold start's step 4 begins the servo keeps the state and source it had when the start began (06 Table 6-4). -/
def servoHeld (s : State) : Bool := s.mode.active && !s.mode.warm && decide (s.mode.step < 4)

/-- The transitions that a change of qualification makes (06 Table 6-4). (Log entry 38.) -/
def requalify (s : State) : State :=
  if s.tb.set.source = 0 ∨ servoHeld s = true then s
  else if s.tb.servo == .freerun && qualified s then setServo s .acquiring
  else if s.tb.servo == .locked && !qualified s then
    setServo (s.updTb fun b => { b with freqPpt := learnedMean b, slew := 0 }) .holdover
  else s

/-- An offset magnitude below LOCK_PS. -/
def withinLock (b : TbSt) (off : Int) : Bool := decide (off.natAbs * 1000 < b.set.lockPs * 65536)

/-- An offset magnitude above STEP_THRESHOLD. -/
def beyondStep (b : TbSt) (off : Int) : Bool := decide (b.set.stepThreshold * 65536 < off.natAbs)

/-- HOPS this device sends (06 Table 6-6). -/
def hops (s : State) : Nat :=
  if s.tb.servo != .locked then 255
  else if s.tb.set.source = 3 then min ((getLtt s s.tb.set.sourcePort).farHops + 1) 255 else 0

end Sys2Proof.Machine
end

