-- ==== Sys2Proof/Machine/Lanes.lean ====
section
/-! DEFINITION. The commands of chapter 04: orders of Table 4-14, calibration, callipers, lasers, sparing, the crosspoint. -/

namespace Sys2Proof.Machine

/-- A reading of `len` bits that only the world gives: a free value (log entry 1), drawn once for each order. -/
def reading (s : State) (k len : Nat) : Nat := (freeNat s / 2 ^ (16 * k)) % 2 ^ len

/-- STATE of a lane (04 Table 4-4): calibrating while a cold start's step 8 runs (03 Table 3-7; 04 R129). -/
def laneState (s : State) (p : Nat) : Nat :=
  if s.mode.active && !s.mode.warm && !s.mode.laneDone && decide (5 ≤ s.mode.step) && decide (s.mode.step ≤ 8) then 1
  else (getLane s p).state

/-- The lane record (04 Table 4-4). TEMP_NOW is the engine's last sample; OMA, SNR, RLM and HEATER are readings; CTLE, DFE and
FFE are what C5, PORT_SET or C7 last set, not what the equaliser drifts to (DESIGN CHOICE, log entry 31). -/
def laneRecord (s : State) (p : Nat) : Nat :=
  let l := getLane s p
  packN [(0, 4, laneState s p), (4, 3, l.role), (7, 2, l.rate), (9, 1, b2n l.gray), (10, 1, b2n l.preTx), (11, 1, b2n l.preRx),
    (12, 1, b2n l.squelch), (13, 1, b2n l.calValid), (14, 1, b2n (lockHeld l)), (16, 9, l.ll.getD 0x1FF),
    (32, 16, l.calCheck.toNat), (48, 16, unsigned 16 l.calTemp), (64, 16, unsigned 16 (getEng s (p / 17)).temp),
    (80, 16, reading s 0 16), (96, 16, reading s 1 16), (112, 16, reading s 2 16), (128, 10, reading s 3 10),
    (144, 16, reading s 4 16), (160, 8, l.ctle.toNat), (168, 8, l.dfe.toNat), (176, 128, l.ffe.toNat),
    (304, 96, (dtWord l.calDt).toNat), (400, 16, l.failCause)]

/-- No lane pair has this number (04 R155). -/
def noLane (o : Order) : Bool := decide (544 ≤ o.inst)

/-- 04 R133: READ_LANE. (Log entry 31.) -/
def execReadLane (o : Order) (s : State) : Host.Outcome State Fault Refusal :=
  .next (runOrder (readForm 0x0401 [0x41] 0xFFFFFF [] 64 modesOn) o s { badObject := noLane o } fun t =>
    (t.drawn, .result (bytesLE 64 (laneRecord t o.inst)) 0))

/-- READ_OE's DATA (04 Table 4-15). -/
def oeData (s : State) (n : Nat) : Nat :=
  let g := getEng s n
  packN [(0, 16, unsigned 16 g.power), (16, 16, unsigned 16 g.temp), (32, 1, b2n g.warn), (33, 1, b2n g.lowLatch),
    (34, 1, b2n g.highLatch), (35, 3, g.spareState), (38, 9, (getLane s (sparePL n)).ll.getD 0x1FF),
    (47, 3, g.scans.length)]

/-- No engine has this number (04 R155). -/
def noEngine (o : Order) : Bool := decide (32 ≤ o.inst)

/-- 04 R155: READ_OE. -/
def execReadOe (o : Order) (s : State) : Host.Outcome State Fault Refusal :=
  .next (runOrder (readForm 0x0402 [0x42] 0xFFFFFF [] 0 modesOn) o s { badObject := noEngine o } fun t => (t, .done stSuccess (oeData t o.inst)))

/-- The values from `a` up to `b` in steps of `d`, at most `n` of them. -/
def stepsFrom : Nat → Int → Int → Int → List Int
  | 0, _, _, _ => []
  | n + 1, a, b, d => if b < a then [] else a :: stepsFrom n (a + d) b d

/-- The points an EYE_SCAN visits, in order (04 R135): eye, then h, then v. -/
def scanPoints (o : Order) : List (Nat × Int × Int) :=
  let hs := stepsFrom 128 (signed 7 (o.f 2 7)) (signed 7 (o.f 9 7)) (o.f 16 4)
  let vs := stepsFrom 64 (signed 6 (o.f 20 6)) (signed 6 (o.f 26 6)) (o.f 32 4)
  let eyes := if o.f 0 2 = 3 then [0, 1, 2] else [o.f 0 2]
  eyes.flatMap fun e => hs.flatMap fun h => vs.map fun v => (e, h, v)

/-- 04 R135, R136: EYE_SCAN takes a calliper; it completes after its last point. -/
def execEyeScan (o : Order) (s : State) : Host.Outcome State Fault Refusal :=
  let g := getEng s (o.inst / 17)
  let c : Checks :=
    { badObject := noLane o,
      badArgument := decide (signed 7 (o.f 9 7) < signed 7 (o.f 2 7)) || decide (signed 6 (o.f 26 6) < signed 6 (o.f 20 6)) ||
        o.f 16 4 == 0 || o.f 32 4 == 0 || decide (o.f 36 6 < 20) || decide (40 < o.f 36 6),
      chapter := if g.scans.any (fun x => x.pl == o.inst) || decide (4 ≤ g.scans.length) then some 0x8407 else none }
  .next (runOrder (readForm 0x0403 [0x41] 0xFFFFFF [(0, 42)] 16 [.prepare, .service, .coast, .probe]) o s c fun t =>
    (updEng t (o.inst / 17) fun g =>
      { g with scans := g.scans ++ [⟨o.inst, scanPoints o, [], true, ⟨0x0403, o, t.tb.now, t.tb.dt⟩⟩] },
      .later))

/-- An eye-scan result record (04 Table 4-6). -/
def scanRecord (p : Nat × Int × Int) (valid : Bool) (errors compared : Nat) : Nat :=
  packN [(0, 7, unsigned 7 p.2.1), (7, 6, unsigned 6 p.2.2), (13, 2, p.1), (15, 1, b2n valid), (16, 48, errors),
    (64, 64, compared)]

/-- A multiple of 64 not below `n`. -/
def up64 (n : Nat) : Nat := (n + 63) / 64 * 64

/-- 04 R135: a calliper finishes a point of the lane's scan; after the last the order completes. (Log entry 31.) -/
def execEyeScanPoint (p errors compared : Nat) (s : State) : Host.Outcome State Fault Refusal :=
  .next (
    match (getEng s (p / 17)).scans.find? fun x => x.pl == p with
    | none => s
    | some x =>
      match x.points with
      | [] => s
      | pt :: rest =>
        let recs := x.done ++ [scanRecord pt x.valid errors compared]
        if rest.isEmpty then
          let t := updEng s (p / 17) fun g => { g with scans := g.scans.filter fun y => y.pl != p }
          let bytes := padTo (up64 (16 * recs.length)) (recs.flatMap (bytesLE 16))
          let d := packN [(0, 32, recs.length), (32, 32, (s.tb.now - x.order.began) / 1000)]
          match findRunning t 0x0403 (· == x.order.order) with
          | some r => finishResult t r bytes d
          | none => t
        else updEng s (p / 17) fun g =>
          { g with scans := g.scans.map fun y => if y.pl == p then { y with points := rest, done := recs } else y })

/-- The words a raw lane's receiver delivers of the bits that come in, `bits` of them known: the word boundary moved by SLIP
(04 R137); a bit that is not known is free. -/
def slipped (slip words : Nat) (bs : List Byte) (free : Nat) : Nat :=
  (leNat bs + free * 256 ^ bs.length) / 2 ^ slip % 2 ^ (128 * words)

/-- 04 R137, R138: RAW_CAPTURE returns the words the raw lane receives, from the bits that the order's `data` brings, free
where it brings none; the checker, while on, has counted a free number of errors more. DESIGN CHOICE (log entry 33): a lane that is not raw is
BAD_ARGUMENT. -/
def execRawCapture (o : Order) (s : State) : Host.Outcome State Fault Refusal :=
  let w := o.f 0 16
  let c : Checks :=
    { badObject := noLane o, badArgument := w % 4 != 0 || decide (w < 4) || decide (4096 < w) || (getLane s o.inst).role != 5 }
  .next (runOrder (readForm 0x0404 [0x41] 0xFFFFFF [(0, 16)] 16 [.probe]) o s c fun t =>
    let l := getLane t o.inst
    let bs := match o.data with | .bytes b => b | _ => []
    let n := if l.checker then l.errors + BitVec.ofNat 48 (freeNat t.drawn) else l.errors
    (updLane t.drawn.drawn o.inst fun l => { l with errors := n },
      .result (bytesLE (16 * w) (slipped l.slip w bs (freeNat t))) n.toNat))

/-- A lane becomes a member of a port (04 R127, R130, R156): the sets of C5 for its rate are put to use and C6 runs once a
far-end signal is present. A spare that carries a logical lane stays the spare, and a failed lane failed. -/
def joinPort (now : Nat) (c : PortCfg) (l : Lane) : Lane :=
  let l := applySet c.rate (unlockLane now l)
  let l := { l with gray := true, preTx := c.rate == 2, preRx := c.rate == 2, rxMark := none, txMark := none,
                    search := List.replicate (pcsKind c).perLane Search.reset }
  if l.role = 6 then l
  else
    let st := if l.signal then 3 else 2
    if l.role = 2 then { l with state := if l.ll.isSome then 7 else st } else { l with role := 1, state := st }

/-- A lane leaves its port and becomes free (04 R123); a failed lane stays failed. -/
def leavePort (now : Nat) (l : Lane) : Lane := if l.role = 1 then freeLane now l else unlockLane now l

/-- Logical lane `ll` cannot join port `n` (04 Table 4-18, LANE_IN_USE): another port holds it, or its lane has the
crosspoint's, the spare's or the raw role. -/
def laneInUse (s : State) (n ll : Nat) : Bool :=
  let l := getLane s (plOf s ll)
  (match portOfLL s ll with | some m => m != n | none => false) ||
    l.role == 3 || l.role == 4 || l.role == 5 || (l.role == 2 && portOfLL s ll != some n)

/-- A PORT_SET that changes nothing (04 R156). -/
def portSetIdle (s : State) (o : Order) : Bool :=
  if o.b 0 then getPort s o.inst == some ⟨o.f 1 2, o.f 3 2⟩ else (getPort s o.inst).isNone

/-- The current bin of a kind as a port is created: PARTIAL unless it begins at that instant, or where no second is evaluated
(05 R183, R185). (Log entry 35.) -/
def firstBin (s : State) (len : Nat) : Bin :=
  { start := s.tb.dt / dtSec / len * len, final := false, suspect := false,
    part := s.tb.dt != s.tb.dt / dtSec / len * len * dtSec || orderMode s == .probe || orderMode s == .halt, elapsed := 0,
    es := 0, ses := 0, uas := 0, ucw := 0 }

/-- The PCS of a port as it is created, with its current bins (05 R172, R183). -/
def newPcs (s : State) : PcsPort :=
  { PcsPort.reset with pm := { Pm.reset with q15 := [firstBin s 900], h24 := [firstBin s 86400] } }

/-- A PORT_SET's effect (04 R156; 05 R172, R185): lanes leave and join, counters, bins and neighbour start afresh, a
handshake on the port is abandoned, the spare trains for it or no more (04 R139), its time transfer starts again. -/
def portSetEffect (s : State) (n : Nat) (cfg : Option PortCfg) : State :=
  let e := n / 16
  let t := if (getEng s e).sparePort == some n then abandonSpare s e 4 else s
  let t := (portPLs t n).foldl (fun u p => updLane (spoilScans u p) p (leavePort s.tb.now)) t
  let t := setPort t n cfg
  let t := match cfg with
    | some c => (portPLs t n).foldl (fun u p => updLane u p (joinPort s.tb.now c)) t
    | none => t
  let t := t.updPcs fun x =>
    { x with ports := SMap.put (fun _ => PcsPort.reset) x.ports n (if cfg.isSome then newPcs s else PcsPort.reset) }
  let t := if cfg.isSome then t.updTel fun q => { q with cnt := q.cnt.filter fun kv => kv.1 / 64 != n } else t
  let t := pathChange (updLtt t n fun l => { l with tx := [], rx := [], samples := [] }) n
  let t := t.updTb fun b => { b with ptpRun := b.ptpRun.filter (fun kv => kv.1 != n), ptpOut := b.ptpOut.filter fun m => m.port != n }
  let t := if (getEng t e).sparePort == some n then trainSpare t e else t
  requalify (if cfg.isSome then refreshLoam t n else t)

/-- 04 R156: PORT_SET. -/
def execPortSet (o : Order) (s : State) : Host.Outcome State Fault Refusal :=
  let n := o.inst
  let w := 2 ^ o.f 1 2
  let c : Checks :=
    { malformed := o.f 3 2 == 3, unsupported := o.f 3 2 == 2 && Config.codeS, badObject := decide (512 ≤ n),
      chapter :=
        if portSetIdle s o then none
        else if o.b 0 && n % w != 0 then some 0x8401
        else if o.b 0 && (List.range w).any (fun i => laneInUse s n (n + i)) then some 0x8402
        else if portExists s n && gatewayInUse s n then some 0x840A
        else none }
  .next (runOrder (setForm 0x4401 [0x43] 0xFFFFFF [(0, 5)] [.prepare, .service] true) o s c fun t =>
    (if portSetIdle t o then t else portSetEffect t n (if o.b 0 then some ⟨o.f 1 2, o.f 3 2⟩ else none),
      .done stSuccess 0))

/-- LANE_SET asks for what only PROBE admits (04 R137). -/
def laneSetProbe (o : Order) : Bool := o.b 4 || o.f 5 3 != 0 || o.f 8 7 != 0 || o.b 15 || !o.b 0

/-- LANE_SET alters what R127 fixes for a port member. -/
def laneSetFixed (s : State) (o : Order) : Bool :=
  match portOfPL s o.inst with
  | some n => if isNative s n then !(o.b 0 && o.b 1 && o.b 2) else !o.b 0
  | none => false

/-- A lane with LANE_SET's fields (04 Table 4-8). (Log entry 32.) -/
def laneSetEffect (o : Order) (l : Lane) : Lane :=
  let l := { l with gray := o.b 0, preTx := o.b 1, preRx := o.b 2, squelch := o.b 3, pattern := o.f 5 3,
                    slip := (l.slip + o.f 8 7) % 128, errors := if o.b 15 then 0 else l.errors, checker := o.b 15,
                    userPattern := BitVec.ofNat 128 (o.f 16 128) }
  if o.b 4 then (if l.role = 5 ∧ l.rate = o.f 144 2 then l else { applySet (o.f 144 2) l with role := 5, state := 8 })
  else if l.role = 5 then { l with role := 0, state := 0, rate := 3 }
  else l

/-- LANE_SET takes the lane out of its receive role, into the raw one, to another raw rate, or back (04 R136, R137). -/
def laneSetMoves (o : Order) (l : Lane) : Bool :=
  if o.b 4 then l.role != 5 || l.rate != o.f 144 2 else l.role == 5

/-- 04 R127, R137: LANE_SET. -/
def execLaneSet (o : Order) (s : State) : Host.Outcome State Fault Refusal :=
  let l := getLane s o.inst
  let c : Checks :=
    { malformed := o.f 5 3 == 6 || o.f 5 3 == 7, unsupported := o.b 4 && o.f 144 2 == 2 && Config.codeS,
      wrongMode := laneSetProbe o && orderMode s != .probe, badObject := noLane o,
      badArgument := laneSetFixed s o || (o.b 4 && o.f 144 2 == 3),
      chapter := if o.b 4 && (l.role == 1 || l.role == 2 || l.role == 3 || l.role == 4) then some 0x8402 else none }
  .next (runOrder (setForm 0x4402 [0x41] 0xFFFFFF [(0, 146)] [.prepare, .service, .probe] true) o s c fun t =>
    let u := if laneSetMoves o (getLane t o.inst) then updLane (spoilScans t o.inst) o.inst (unlockLane t.tb.now) else t
    let u := updLane u o.inst (laneSetEffect o)
    (match portOfPL u o.inst with | some n => refreshLf u n | none => u, .done stSuccess 0))

/-- A lane takes part in a handshake, or is being recalibrated (04 Table 4-18, LANE_BUSY). -/
def laneBusy (s : State) (p : Nat) : Bool :=
  (getLane s p).recal ||
    (match (getEng s (p / 17)).hs with | some h => h.pl == p || p == sparePL (p / 17) | none => false)

/-- A recalibration begins (04 R132): on live data for a lane in lock; otherwise from C2. -/
def beginRecal (s : State) (p : Nat) (order : Bool) : State :=
  let t := if (getLane s p).cdr then s else spoilScans s p
  pathChanged (updLane t p fun l =>
    { l with recal := true, recalOrder := order, state := if l.cdr then l.state else 1 }) p

/-- 04 R132: RECALIBRATE begins; RECALIBRATE_DONE ends it. A lane out of lock is calibrated again from C2. (Log entry 34.) -/
def execRecalibrate (o : Order) (s : State) : Host.Outcome State Fault Refusal :=
  let c : Checks :=
    { badObject := noLane o,
      chapter := if laneBusy s o.inst then some 0x8406
        else if (getEng s (o.inst / 17)).lowLatch then some 0x8408 else none }
  .next (runOrder (setForm 0x4403 [0x41] 0xFFFFFF [] [.prepare, .service, .probe] true) o s c fun t =>
    (beginRecal t o.inst true, .later))

/-- The lane after a recalibration that did not fail (04 R132): an order takes a failed lane back to its port, or makes it free,
but the replaced lane of a sparing (R123, R143); the record of C7 is written unless it awaits a signal, and a lane with a role is
then in lock. -/
def recalibrated (s : State) (p : Nat) (c : LaneCal) (l : Lane) : Lane :=
  let back := l.role == 6 && l.recalOrder && (getEng s (p / 17)).spared != some p
  let l := { l with recal := false, recalOrder := false,
                    role := if back then (if (portOfPL s p).isSome then 1 else 0) else l.role }
  if c.awaiting then { l with state := if l.role = 0 then 0 else if l.role = 6 then 5 else 2 }
  else
    { writeCal s.tb.dt c l with state := readyState l, cdr := l.cdr || l.role != 0,
                                cdrAt := if l.cdr then l.cdrAt else s.tb.now }

/-- 04 R132, R129: a recalibration finishes: C7 writes the record, or the lane fails, or it awaits a signal. -/
def execRecalibrateDone (p : Nat) (c : LaneCal) (s : State) : Host.Outcome State Fault Refusal :=
  .next (
    let l := getLane s p
    if !l.recal then s else
    let t :=
      if c.cause ≠ 0 then failLane (updLane s p fun l => { l with recal := false, recalOrder := false }) p c.cause
      else refreshLane (updLane s p (recalibrated s p c)) p
    if l.recalOrder then
      match findRunning t 0x4403 fun o => o.inst == p with
      | some r => finishOrder t r (if c.cause = 0 ∧ c.awaiting then 0x0402 else stSuccess) c.cause
      | none => t
    else t)

/-- 04 R140: SPARE. (Log entry 34.) -/
def execSpare (o : Order) (s : State) : Host.Outcome State Fault Refusal :=
  let e := o.inst / 17
  let c : Checks :=
    { unsupported := Config.codeS, badObject := noLane o,
      chapter := if !spareReady s e o.inst then some 0x8404
        else if laneBusy s o.inst then some 0x8406
        else if (getEng s e).lowLatch then some 0x8408 else none }
  .next (runOrder (setForm 0x4404 [0x41] 0xFFFFFF [] [.service] false) o s c fun t =>
    (beginSpare t e o.inst (posOf t ((portOfPL t o.inst).getD 0) o.inst) 3 true false, .later))

/-- The replaced lane's receiver has held lock on PRBS31Q for 10 ms (04 R143). -/
def revertReady (s : State) (g : Engine) : Bool :=
  match g.revertLockSince with | some t => decide (t + 10000000 ≤ s.tb.now) | none => false

/-- 04 R143: UNSPARE. DESIGN CHOICE (log entry 95): one that is not accepted completes with SPARE_UNAVAILABLE. -/
def execUnspare (o : Order) (s : State) : Host.Outcome State Fault Refusal :=
  let g := getEng s o.inst
  let c : Checks :=
    { unsupported := Config.codeS, badObject := noEngine o,
      chapter := if g.spared.isNone || g.hs.isSome || !revertReady s g then some 0x8404 else none }
  .next (runOrder (setForm 0x4405 [0x42] 0xFFFFFF [] [.service] false) o s c fun t =>
    (beginSpare t o.inst (g.spared.getD 0) (posOf t (g.sparePort.getD 0) (sparePL o.inst)) 4 true true, .later))

/-- OE_SET's argument checks (04 Table 4-11). -/
def oeSetBad (o : Order) : Bool :=
  decide (signed 10 (o.f 10 10) ≤ signed 10 (o.f 20 10)) || decide (signed 10 (o.f 30 10) ≤ signed 10 (o.f 10 10) + 20) ||
    decide (o.f 40 4 < 2) || decide (8 < o.f 40 4) || decide (o.f 44 12 < 1)

/-- The SPARE_PORT field: none for 0x1FF. -/
def sparePortOf (o : Order) : Option Nat := if o.f 0 9 = 0x1FF then none else some (o.f 0 9)

/-- SPARE_SER_EXP and SPARE_HOLD_MS in force at a DT (04 Table 4-20). -/
def serExpAt (g : Engine) (dt : Nat) : Nat := if g.setMs = some (dt / dtMs) then g.serOld else g.serExp
def holdAt (g : Engine) (dt : Nat) : Nat := if g.setMs = some (dt / dtMs) then g.holdOld else g.holdMs

/-- OE_SET's fields in their engine (04 Table 4-11, Table 4-20): the triggers count from the instant AUTO_SPARE becomes 1,
and SPARE_SER_EXP and SPARE_HOLD_MS from the next whole millisecond. -/
def oeFields (o : Order) (now dt : Nat) (g : Engine) : Engine :=
  { g with sparePort := sparePortOf o, autoSpare := o.b 9, autoSince := if g.autoSpare then g.autoSince else now,
           lowWarn := signed 10 (o.f 10 10), lowAlarm := signed 10 (o.f 20 10), highAlarm := signed 10 (o.f 30 10),
           serOld := serExpAt g dt, holdOld := holdAt g dt, setMs := some (dt / dtMs), serExp := o.f 40 4,
           holdMs := o.f 44 12 }

/-- 04 R159, R160: OE_SET writes every field at once. -/
def execOeSet (o : Order) (s : State) : Host.Outcome State Fault Refusal :=
  let e := o.inst
  let g := getEng s e
  let change := sparePortOf o != g.sparePort
  let sl := getLane s (sparePL e)
  let c : Checks :=
    { unsupported := (sparePortOf o).isSome && Config.codeS, badObject := noEngine o, badArgument := oeSetBad o,
      chapter := if (change && g.spared.isSome) || ((sparePortOf o).isSome && (sl.role == 3 || sl.role == 4 || sl.role == 5))
        then some 0x8402 else none }
  .next (runOrder (setForm 0x4406 [0x42] 0xFFFFFF [(0, 56)] [.prepare, .service] true) o s c fun t =>
    let u := if change then abandonSpare t e 4 else t
    let u := updEng u e (oeFields o u.tb.now u.tb.dt)
    (if change then trainSpare u e else u, .done stSuccess 0))

/-- The destinations an XP_SET names (04 Table 4-14). -/
def xpDests (o : Order) : List Nat := ((List.range 32).map fun k => o.f (10 * k) 10).filter fun d => d != 0x3FF

/-- A lane may serve in source `src`'s entry: free, or there already; a spare only with SPARE_PORT none (04 R151). -/
def xpFree (s : State) (src p : Nat) : Bool :=
  let l := getLane s p
  let mine := p == src && (getXp s src).isSome || (match getXp s src with | some x => x.dests.contains p | none => false)
  (l.role == 0 || mine) && !(p % 17 == 16 && (getEng s (p / 17)).sparePort.isSome)

/-- No value twice. -/
def noRepeat : List Nat → Bool
  | [] => true
  | x :: xs => !xs.contains x && noRepeat xs

/-- A lane joins an entry, as its source or as a destination (04 R151, R152). -/
def joinXp (now role rate : Nat) (l : Lane) : Lane :=
  if l.role = role ∧ l.rate = rate then l
  else
    let l := applySet rate (unlockLane now l)
    { l with role := role, state := if role = 4 then 4 else if l.signal then 3 else 2 }

/-- The entry of a source replaced in one step (04 R153, R154): destinations left out become free, those that stay are not
interrupted, and those added are squelched while the source has no lock. -/
def xpReplace (s : State) (src rate : Nat) (ds : List Nat) : State :=
  let was := match getXp s src with | some x => x.dests | none => []
  let t := (was.filter fun d => !ds.contains d).foldl
    (fun u d => updLane (spoilScans u d) d (freeLane s.tb.now)) s
  if ds.isEmpty then
    setXp (if (getXp s src).isSome then updLane (spoilScans t src) src (freeLane s.tb.now) else t) src none
  else
    let t := if (getLane t src).role = 3 ∧ (getLane t src).rate = rate then t else updLane (spoilScans t src) src (joinXp s.tb.now 3 rate)
    let sq := match getXp s src with | some x => x.squelched || !(getLane t src).cdr | none => !(getLane t src).cdr
    let t := (ds.filter fun d => !was.contains d || (getLane s d).squelch != sq).foldl (fun u d =>
      (updLane (if was.contains d then u else spoilScans u d) d fun l => { joinXp s.tb.now 4 rate l with squelch := sq }).emit
        (.squelch d sq)) t
    setXp t src (some ⟨rate, ds, sq⟩)

/-- 04 R151, R153: XP_SET replaces the entry of its source in one step. -/
def execXpSet (o : Order) (s : State) : Host.Outcome State Fault Refusal :=
  let src := o.inst % 1024
  let rate := o.inst / 1024
  let ds := xpDests o
  let old := getXp s src
  let c : Checks :=
    { unsupported := rate == 2 && Config.codeS, badObject := decide (544 ≤ src) || rate == 3,
      badArgument := ds.any (fun d => decide (544 ≤ d)) || !noRepeat ds,
      chapter := if !ds.isEmpty && (!xpFree s src src || ds.any (fun d => !xpFree s src d || d == src)) then some 0x8402
        else if (match old with | some x => x.rate != rate && ds.any (fun d => x.dests.contains d) | none => false)
          then some 0x8403 else none }
  .next (runOrder (setForm 0x4407 [0x44] 0xFFF [(0, 320)] [.prepare, .service] true) o s c fun t =>
    (xpReplace t src rate ds, .done stSuccess 0))

/-- The bytes ELS_XFER sends (04 Table 4-17): address and direction, register, write data. (Log entry 33.) -/
def elsBytes (o : Order) : List Byte :=
  [BitVec.ofNat 8 (o.f 0 7 * 2 + b2n (o.b 7)), BitVec.ofNat 8 (o.f 8 8)] ++
    if o.b 7 then [] else bytesLE (o.f 16 4) (o.f 20 64)

/-- What ELS_XFER answers for the bytes a target returned (04 Table 4-14). -/
def elsAnswer (o : Order) (b : List Byte) : Nat := if o.b 7 then leNat (b.take (o.f 16 4)) else 0

/-- 04 R150: ELS_XFER makes one transaction. The order's `data` brings what the bus answers: the target's bytes, no acknowledgement, or
SDA found held low, which nine clock pulses free or do not; where it brings nothing, what is read is free. (Log entry 33.) -/
def execElsXfer (o : Order) (s : State) : Host.Outcome State Fault Refusal :=
  let c : Checks := { badArgument := decide (o.f 16 4 < 1) || decide (8 < o.f 16 4) }
  .next (runOrder (setForm 0x4408 [0x42] 0 [(0, 84)] [.prepare, .service, .probe] true) o s c fun t =>
    let u := t.emit (.els (elsBytes o))
    match o.data with
    | .failed | .dramError _ _ => (u, .done 0x8409 0)
    | .bytes b => (u, .done stSuccess (elsAnswer o b))
    | .held true b => ((t.emit (.elsClock 9)).emit (.els (elsBytes o)), .done stSuccess (elsAnswer o b))
    | .held false _ => (t.emit (.elsClock 9), .done 0x8409 0)
    | .later => (u.drawn, .done stSuccess (if o.b 7 then freeBits t (8 * o.f 16 4) else 0)))

/-- 04 R130: a far-end signal on a lane, with its power; on a lane with a role that awaited it, C6 begins. -/
def execLaneSignalPresent (p : Nat) (power : Int) (s : State) : Host.Outcome State Fault Refusal :=
  .next (refreshLane (updLane s p fun l =>
    { l with signal := true, power := some power,
             state := if l.role ≠ 0 ∧ l.role ≠ 6 ∧ l.state = 2 then 3 else l.state }) p)

/-- 04 R129: step C6 ends: the CDR is in lock, the record of C7 is written and the lane is ready, or the lane fails. The
replaced lane of a sparing, which hears PRBS31Q, only counts its lock (R143). (Log entry 31.) -/
def execLaneAdaptDone (p : Nat) (c : LaneCal) (s : State) : Host.Outcome State Fault Refusal :=
  .next (
    let l := getLane s p
    let e := p / 17
    if (getEng s e).spared == some p then
      updEng (updLane s p fun l => if c.cause = 0 then { l with cdr := true, cdrAt := s.tb.now } else unlockLane s.tb.now l) e
        fun g => { g with revertLockSince := if c.cause = 0 then some s.tb.now else none }
    else if !(l.state == 3 || (l.role == 5 && !l.cdr)) then s
    else if c.cause ≠ 0 then failLane s p c.cause
    else
      let t := gainCdr (updLane s p fun l => { writeCal s.tb.dt c l with state := readyState l }) p
      if p % 17 = 16 ∧ l.role = 2 then updEng t e fun g => { g with spareLockSince := some s.tb.now } else t)

/-- 04 R145: more than 16 of the last 32 samples, or the last 8, lie beyond a threshold. -/
def alarmAccepted (bs : List Bool) : Bool :=
  (decide (8 ≤ bs.length) && (bs.take 8).all id) || decide (16 < (bs.filter id).length)

/-- LASER_ALARM, the event (04 Table 4-19). -/
def postLaser (s : State) (e code : Nat) (power : Int) : State :=
  postAll s 0x0404 0 (packN [(0, 5, e), (5, 2, code), (16, 16, unsigned 16 power)])

/-- 04 R145 to R147: a sample of an engine's laser input (power in 0.01 dBm) and temperature. -/
def execLaserSample (e : Nat) (power temp : Int) (s : State) : Host.Outcome State Fault Refusal :=
  .next (
    if 32 ≤ e then s else
    let g := getEng s e
    let low := decide (power < g.lowAlarm * 10)
    let high := decide (g.highAlarm * 10 < power)
    let warn := decide (power < g.lowWarn * 10)
    let hist := ((low, high) :: g.samples).take 32
    let lowA := alarmAccepted (hist.map Prod.fst)
    let highA := alarmAccepted (hist.map Prod.snd)
    let inRange := decide (g.lowAlarm * 10 + 100 ≤ power) && decide (power ≤ g.highAlarm * 10 - 100)
    let t := updEng s e fun g =>
      { g with power := power, temp := temp, samples := hist, warn := warn, lowLatch := g.lowLatch || lowA,
               highLatch := g.highLatch || highA,
               clearSince := if inRange then some (g.clearSince.getD s.tb.now) else none }
    let t := if warn && !g.warn then postLaser t e 1 power else t
    let t := if lowA && !g.lowLatch then postLaser t e 2 power else t
    let t := if highA && !g.highLatch then postLaser t e 3 power else t
    if (lowA && !g.lowLatch) || (highA && !g.highLatch) then
      let t := if g.hs.isSome then abandonSpare t e 5 else t
      (enginePorts t e).foldl refreshLf t
    else t)

/-- One engine's latches cleared under R146. -/
def clearLaser (s : State) (e : Nat) : State :=
  let g := getEng s e
  if (g.lowLatch || g.highLatch) &&
      (match g.clearSince with | some t => decide (t + 100000000 ≤ s.tb.now) | none => false) then
    let t := updEng s e fun g => { g with lowLatch := false, highLatch := false }
    (enginePorts t e).foldl refreshLf (postAll t 0x0405 0 e)
  else s

/-- 04 R139: the spare receiver has held lock on PRBS31Q for 10 ms. -/
def execSpareStandby (e : Nat) (s : State) : Host.Outcome State Fault Refusal :=
  .next (
    let g := getEng s e
    match g.spareLockSince with
    | some t =>
      if g.spareState = 1 ∧ t + 10000000 ≤ s.tb.now then
        updLane (updEng s e fun g => { g with spareState := 2 }) (sparePL e) fun l => { l with state := 6 }
      else s
    | none => s)

/-- 04 R139: the spare receiver loses lock on PRBS31Q and leaves standby. -/
def execSpareLockLost (e : Nat) (s : State) : Host.Outcome State Fault Refusal :=
  .next (
    let g := getEng s e
    if g.spareState = 2 ∨ g.spareState = 1 then
      let t := updLane (spoilScans s (sparePL e)) (sparePL e) fun l => { unlockLane s.tb.now l with state := 3 }
      updEng t e fun g => { g with spareState := 1, spareLockSince := none }
    else s)

/-- The instant from which a trigger of R140 counts: not before AUTO_SPARE became 1 (04 Table 4-20). -/
def triggerFrom (g : Engine) (since : Nat) : Nat := max since g.autoSince

/-- R140's automatic triggers: an error ratio above its threshold for SPARE_HOLD_MS (cause 1), or LOL set by the lane while
another lane of the port holds lock (cause 2). -/
def triggerHolds (s : State) (p cause : Nat) : Bool :=
  let g := getEng s (p / 17)
  g.autoSpare &&
    (if cause = 1 then
       g.above.any fun a => a.1 == p && decide (triggerFrom g a.2 + holdAt g s.tb.dt * 1000000 ≤ s.tb.now)
     else cause == 2 && !(getLane s p).cdr && decide (g.autoSince ≤ (getLane s p).cdrAt) &&
       (match portOfPL s p with
        | some n => bit (getPcs s n).defects 1 && (portPLs s n).any fun q => q != p && (getLane s q).marker
        | none => false))

/-- 04 R140: sparing begins by itself. -/
def execSpareTrigger (p cause : Nat) (s : State) : Host.Outcome State Fault Refusal :=
  .next (
    if triggerHolds s p cause && spareReady s (p / 17) p && !Config.codeS then
      beginSpare s (p / 17) p (posOf s ((portOfPL s p).getD 0) p) cause false false
    else s)

/-- 04 R142: no ACK within 1 ms of the REQ. -/
def execSpareAckTimeout (e : Nat) (s : State) : Host.Outcome State Fault Refusal :=
  .next (
    match (getEng s e).hs with
    | some h =>
      if h.requester && !h.acked && !h.taken && decide (h.began + 1000000 ≤ s.tb.now) then abandonSpare s e 1 else s
    | none => s)

/-- 04 R154: a crosspoint source loses signal or lock; its destinations are squelched. -/
def execXpSourceLost (p : Nat) (s : State) : Host.Outcome State Fault Refusal :=
  .next (
    match getXp s p with
    | some x =>
      let t := updLane (spoilScans s p) p fun l => { unlockLane s.tb.now l with state := 2, signal := false, power := none }
      if x.squelched then t else
      let t := setXp t p (some { x with squelched := true })
      let t := x.dests.foldl (fun u d => (updLane u d fun l => { l with squelch := true }).emit (.squelch d true)) t
      postAll t 0x0406 0 (packN [(0, 10, p), (10, 1, 1)])
    | none => s)

/-- 04 R154: the source has held lock for 1 ms; its destinations transmit again. -/
def execXpResume (p : Nat) (s : State) : Host.Outcome State Fault Refusal :=
  .next (
    match getXp s p with
    | some x =>
      let l := getLane s p
      if !x.squelched || !l.cdr || decide (s.tb.now < l.cdrAt + 1000000) then s else
      let t := setXp s p (some { x with squelched := false })
      let t := x.dests.foldl (fun u d => (updLane u d fun l => { l with squelch := false }).emit (.squelch d false)) t
      postAll t 0x0406 0 (packN [(0, 10, p)])
    | none => s)

end Sys2Proof.Machine
end

