-- ==== Sys2Proof/Machine/Egress.lean ====
section
/-! DEFINITION. The commands of chapter 11: the orders of Table 11-3, PFC and its watchdog, gate lists' changes, the egress
scheduler. -/

namespace Sys2Proof.Machine

/-! Takeovers (11 R390) -/

def setOper (s : State) (n : Nat) (g : Option Gcl) : State :=
  s.updEgr fun e => { e with oper := SMap.put (fun _ => none) e.oper n g }
def setPend (s : State) (n : Nat) (g : Option Gcl) : State :=
  s.updEgr fun e => { e with pend := SMap.put (fun _ => none) e.pend n g }

/-- A pending list whose instant has come operates, or, a DISABLE list, leaves no list operating; GCL_TAKEOVER is posted.
(Log entry 65.) -/
def takeover (s : State) (n : Nat) : State :=
  match getPend s n with
  | some g =>
    if g.takeover ≤ s.tb.dt then
      let t := updSched (setPend (setOper s n (if g.disable then none else some g)) n none) n fun p => { p with gateIndex := 0 }
      postAll t 0x0B01 0 (packN [(0, 9, n), (9, 1, b2n g.moved), (10, 1, b2n g.disable),
        (32, 32, fld (dtWord g.takeover) 16 32)])
    else s
  | none => s

/-! Orders -/

/-- The READ_SCHED result (11 Table 11-6). -/
def schedWord (s : State) (n : Nat) : Nat :=
  let g := gatesNow s n
  let f := getPfc s n
  let o := gating_ s n
  packN ([(0, 16, g.2.1.toNat), (16, 1, b2n g.2.2), (17, 1, b2n o.isSome), (18, 1, b2n (getPend s n).isSome), (19, 9, g.1),
    (64, 32, match o with | some x => x.cycleNs | none => 0),
    (96, 96, match o with | some x => (dtWord x.takeover).toNat | none => 0),
    (192, 96, match getPend s n with | some x => (dtWord x.takeover).toNat | none => 0),
    (320, 64, f.rxFrames.toNat), (384, 64, f.txFrames.toNat), (448, 64, f.discards.toNat),
    (512, 48, (getEsc s n).saturated.toNat)] ++
    ((List.range 8).map fun k => (288 + k, 1, b2n (rxPaused s n k))) ++
    ((txPaused s n).map fun k => (296 + k, 1, 1)) ++
    (List.range 16).map fun k => (304 + k, 1, b2n (getQs s (16 * n + k)).storm))

/-- 11 R405: READ_SCHED. -/
def execReadSched (o : Order) (s : State) : Host.Outcome State Fault Refusal :=
  .next (runOrder (readForm 0x0B01 [0xB1] 0x1FF [] 128 modesOn) o s {} fun t =>
    let t := takeover t o.inst
    (t, .result (bytesLE 128 (schedWord t o.inst)) 0))

/-- 11 R405: READ_GCL; no list reads as DISABLE 1. (Log entry 65.) -/
def execReadGcl (o : Order) (s : State) : Host.Outcome State Fault Refusal :=
  .next (runOrder (readForm 0x0B02 [0xB1] 0x1FF [(0, 1)] 2112 modesOn) o s {} fun t =>
    let t := takeover t o.inst
    let g := if o.b 0 then getPend t o.inst else gating_ t o.inst
    (t, .result (padTo 2112 (match g with | some x => x.payload | none => bytesLE 8 512)) 0))

/-- The SHAPER_SET payload in force (11 Table 11-4). -/
def shaperWord (x : Shaper) : Nat :=
  packN [(0, 1, b2n x.enable), (1, 1, b2n x.resetFull), (2, 22, x.rate), (24, 24, x.burst), (48, 8, unsigned 8 x.overhead)]

/-- An integer saturated to 32 bits. -/
def sat32 (v : Int) : Int := max (-(2 ^ 31)) (min (2 ^ 31 - 1) v)

/-- 11 R405: READ_SHAPER. -/
def execReadShaper (o : Order) (s : State) : Host.Outcome State Fault Refusal :=
  .next (runOrder (readForm 0x0B03 [0xB3] 0x3FFF [] 64 modesOn) o s { badObject := decide (8704 ≤ o.inst) } fun t =>
    let x := getShaper t o.inst
    (t, .result (bytesLE 64 (packN [(0, 320, shaperWord x), (320, 32, unsigned 32 (sat32 (tokensAt x t.tb.now / 8000)))])) 0))

/-- 11 R405: QUEUE_SCHED_SET keeps the queue's D. -/
def execQueueSchedSet (o : Order) (s : State) : Host.Outcome State Fault Refusal :=
  .next (runOrder (setForm 0x4B01 [0xB2] 0x1FFF [(0, 12)] modesSet true) o s { badArgument := decide (o.f 4 8 = 0) } fun t =>
    (updQs t o.inst fun q => { q with prio := o.f 0 4, weight := o.f 4 8 }, .done stSuccess 0))

/-- 11 R395: SHAPER_SET replaces every field and sets T. -/
def execShaperSet (o : Order) (s : State) : Host.Outcome State Fault Refusal :=
  let burst := o.f 24 24
  let ovh := signed 8 (o.f 48 8)
  let c : Checks :=
    { badObject := decide (8704 ≤ o.inst),
      badArgument := (o.b 0 && (decide (o.f 2 22 = 0) || decide (3200000 < o.f 2 22))) || decide (burst < 64) ||
        decide (ovh < -64) }
  .next (runOrder (setForm 0x4B02 [0xB3] 0x3FFF [(0, 56)] modesSet true) o s c fun t =>
    let x : Shaper :=
      { enable := o.b 0, resetFull := o.b 1, rate := o.f 2 22, burst := burst, overhead := ovh,
        tokens := if o.b 1 then (burst : Int) * 8000 else 0, since := t.tb.now }
    (t.updEgr fun e => { e with shapers := SMap.put (fun _ => Shaper.reset) e.shapers o.inst x }, .done stSuccess 0))

/-- The entries of a GCL_SET payload (11 Table 11-5). -/
def gclEntry (bs : List Byte) (j : Nat) : Nat := leNat (slice bs (64 + 8 * j) 8)
def gclEntries (bs : List Byte) (n : Nat) : List GclEntry :=
  (List.range n).map fun j => let w := gclEntry bs j; ⟨BitVec.ofNat 16 w, decide (nfld w 16 1 = 1), nfld w 32 30⟩

/-- GCL_SET's checks of its payload (11 R387, R389, R390, Table 11-5); `acc` is the acceptance DT.
(Log entries 10 and 65.) -/
def gclChecks (o : Order) (acc : Nat) (bs : List Byte) : Checks :=
  let h := leNat (slice bs 0 64)
  let n := nfld h 0 9
  let dis := decide (nfld h 9 1 = 1)
  let es := gclEntries bs n
  let at_ := nfld h 64 96
  { malformed := ptrLen o != up64 (64 + 8 * n) || !onlyFields h [(0, 11), (16, 30), (64, 96)] ||
      (List.range n).any (fun j => !onlyFields (gclEntry bs j) [(0, 17), (32, 30)]) ||
      (bs.drop (64 + 8 * n)).any (fun b => b != 0),
    badArgument := (if dis then n != 0
        else decide (n = 0) || decide (256 < n) || decide (nfld h 16 30 < 1000) || decide (1000000000 < nfld h 16 30)) ||
      es.any (fun e => decide (e.ns < 8) || decide (1000000000 < e.ns) || (e.prot && e.gates != 0)) ||
      (decide (nfld h 10 1 = 1) && (!dtOk at_ || decide (acc + 3600 * dtSec < dtCount at_))) }

/-- The first cycle boundary of the operating list at or after `lo`, or `lo` where none operates (11 R390). -/
def cycleBoundary (s : State) (n lo : Nat) : Nat :=
  match gating_ s n with
  | some g =>
    let c : Int := (g.cycleNs * dtNs : Nat)
    let k : Int := ((lo : Int) - g.takeover + c - 1) / c
    ((g.takeover : Int) + k * c).toNat
  | none => lo

/-- 11 R390: GCL_SET places a pending list. (Log entry 65.) -/
def execGclSet (o : Order) (s : State) : Host.Outcome State Fault Refusal :=
  let acc := acceptDt s o
  .next (runPtr (ptrForm 0x4B03 [0xB1] 0x1FF modesSet true) o s { malformed := o.ptr && decide (2112 < ptrLen o) }
    (gclChecks o acc) fun bs t =>
      let t := takeover t o.inst
      let h := leNat (slice bs 0 64)
      let lo := acc + 2 * dtUs
      let valid := decide (nfld h 10 1 = 1)
      let at_ := dtCount (nfld h 64 96)
      let when_ := if valid && decide (lo ≤ at_) then at_ else cycleBoundary t o.inst lo
      let moved := valid && decide (at_ < lo)
      let g : Gcl :=
        { payload := bs, disable := decide (nfld h 9 1 = 1), entries := gclEntries bs (nfld h 0 9), cycleNs := nfld h 16 30,
          takeover := when_, moved := moved }
      (setPend t o.inst (some g), .done (if moved then 0x0B01 else stSuccess)
        (packN [(0, 32, fld (dtWord when_) 16 32), (32, 32, fld (dtWord when_) 48 32)])))

/-- 11 R405: GCL_CANCEL. -/
def execGclCancel (o : Order) (s : State) : Host.Outcome State Fault Refusal :=
  .next (runOrder (setForm 0x4B04 [0xB1] 0x1FF [] modesSet true) o s
    { chapter := if (getPend (takeover s o.inst) o.inst).isNone then some 0x8B01 else none } fun t =>
    (setPend (takeover t o.inst) o.inst none, .done stSuccess 0))

/-- The watchdogs of a port's queues brought up to date. -/
def wdRefreshPort (s : State) (n : Nat) : State := (List.range 16).foldl (fun t i => wdRefresh t (16 * n + i)) s

/-- 11 R396, R398, R405: PFC_SET. -/
def execPfcSet (o : Order) (s : State) : Host.Outcome State Fault Refusal :=
  let wd := o.f 33 20
  let rst := o.f 53 16
  let c : Checks :=
    { badArgument := decide (o.f 16 16 = 0) || decide (wd < 100) || decide (1000000 < wd) || decide (rst < 10) ||
        decide (60000 < rst) }
  .next (runOrder (setForm 0x4B05 [0xB1] 0x1FF [(0, 69)] modesSet true) o s c fun t =>
    let n := o.inst
    let old := getPfc t n
    let rx := BitVec.ofNat 8 (o.f 0 8)
    let tx := BitVec.ofNat 8 (o.f 8 8)
    let t := (List.range 8).foldl (fun u g => if bit old.rxEn g && !bit rx g then setPause u n g 0 else u) t
    let t := wdRefreshPort t n
    let paused := (List.range 8).filter fun g => (getPg t (8 * n + g)).paused
    let ended := paused.filter fun g => bit old.txEn g && !bit tx g
    let begun := paused.filter fun g => !bit old.txEn g && bit tx g
    let t := updPfc t n fun f =>
      { f with rxEn := rx, txEn := tx, quanta := o.f 16 16, wdEn := o.b 32, wdUs := wd, restoreMs := rst,
               zero := (f.zero ||| BitVec.ofNat 8 (sumN (ended.map fun g => 2 ^ g))) &&&
                 ~~~(BitVec.ofNat 8 (sumN (begun.map fun g => 2 ^ g))),
               due := f.due || !ended.isEmpty || !begun.isEmpty }
    (pfcTry (wdRefreshPort t n) n, .done stSuccess 0))

/-- 11 R401, R405: ESC_SET. (Log entry 66.) -/
def execEscSet (o : Order) (s : State) : Host.Outcome State Fault Refusal :=
  let n := o.f 0 3
  let qs := (List.range n).map fun k => o.f (3 + 4 * k) 4
  let c : Checks :=
    { malformed := decide (5 ≤ n) || decide (o.f (3 + 4 * n) (16 - 4 * n) ≠ 0),
      badArgument := decide (qs.eraseDups.length < qs.length),
      chapter := if (o.b 19 || o.b 20) && !isNative s o.inst then some 0x8602 else none }
  .next (runOrder (setForm 0x4B06 [0xB1] 0x1FF [(0, 22)] modesSet true) o s c fun t =>
    (t.updEgr fun e => { e with esc := SMap.upd (fun _ => EscSt.reset) e.esc o.inst fun x =>
      { x with rungs := qs, tx := o.b 19, rx := o.b 20, bump := o.b 21 } }, .done stSuccess 0))

/-- A queue leaves the storm state (11 R400). -/
def stormLeave (s : State) (q cause : Nat) : State :=
  postAll (updQs s q fun d => { d with storm := false }) 0x0B02 0 (packN [(0, 13, q), (14, 2, cause)])

/-- 11 R400: STORM_RESTORE. -/
def execStormRestore (o : Order) (s : State) : Host.Outcome State Fault Refusal :=
  .next (runOrder (setForm 0x4B07 [0xB2] 0x1FFF [] modesSet true) o s
    { chapter := if (getQs s o.inst).storm then none else some 0x8B02 } fun t =>
    (stormLeave t o.inst 2, .done stSuccess 0))

/-! PFC and the watchdog -/

/-- 11 R396: the pause timer of a priority runs out. -/
def execPfcPauseExpiry (n g : Nat) (s : State) : Host.Outcome State Fault Refusal :=
  .next (if (getPfc s n).pauseUntil.getD g 0 ≤ s.tb.now * 1000 then setPause s n g 0 else s)

/-- Half of TX_QUANTA in ps at a port's speed (11 R398). -/
def halfQuantaPs (s : State) (n : Nat) : Nat :=
  match getPort s n with | some c => (getPfc s n).quanta * 256 * 1000000 / portMbps c | none => 0

/-- 11 R398: half of TX_QUANTA has passed since the last PFC frame of a port that pauses some group. -/
def execPfcRefresh (n : Nat) (s : State) : Host.Outcome State Fault Refusal :=
  .next (
    if (txPaused s n).isEmpty = false ∧ (getPfc s n).sentPs + halfQuantaPs s n ≤ s.tb.now * 1000 then
      pfcTry (updPfc s n fun f => { f with due := true }) n
    else s)

/-- 11 R399: W of a queue has reached WD_US. -/
def execPfcStormEnter (q : Nat) (s : State) : Host.Outcome State Fault Refusal :=
  .next (
    let t := wdRefresh s q
    let f := getPfc t (q / 16)
    if f.wdEn && !(getQs t q).storm && decide (f.wdUs * 1000 ≤ (getQs t q).w) then
      postAll (updQs t q fun d => { d with storm := true }) 0x0B02 0 (packN [(0, 13, q), (13, 1, 1)])
    else t)

/-- 11 R400: no pausing PFC frame for RESTORE_MS. -/
def execStormRestoreTimer (q : Nat) (s : State) : Host.Outcome State Fault Refusal :=
  .next (
    if (getQs s q).storm && decide ((getQs s q).quietFrom + (getPfc s (q / 16)).restoreMs * 1000000 ≤ s.tb.now) then
      stormLeave s q 1
    else s)

/-! Gates -/

/-- 11 R388: the entry in force changes. -/
def execGateEntryChange (n : Nat) (s : State) : Host.Outcome State Fault Refusal :=
  .next (let t := takeover s n; updSched t n fun p => { p with gateIndex := (gatesNow t n).1 })

/-- 11 R390: a pending list takes over. -/
def execGclTakeover (n : Nat) (s : State) : Host.Outcome State Fault Refusal := .next (takeover s n)

/-! The scheduler -/

/-- A collective packet: it carries its escalation in its header (11 R402). -/
def isColl (s : State) (f : List Byte) : Bool := (headerEsc s f).isSome

/-- A copy leaves with a class tag (11 R402). -/
def tagged (s : State) (q : Nat) (x : Stored) : Bool :=
  let e := getEsc s (q / 16)
  x.kind == .packet && e.tx && e.rungs.contains (q % 16) && !isColl s x.pkt.frame

/-- The transmitted length of a copy (11 R384). -/
def txLength (s : State) (q : Nat) (x : Stored) : Nat :=
  x.pkt.frame.length + (if x.pkt.tx.isSome then 12 else 0) + (if tagged s q x then 4 else 0)

/-- The head copy of a queue with its packet. -/
def headOf (s : State) (q : Nat) : Option (Copy × Stored) :=
  match (getQueue s q).die with
  | c :: _ => (getStored s c.pkt).map fun x => (c, x)
  | [] => none

/-- A spray drain marker waits behind the old epoch's data in the port's other queues (07 R254). -/
def markerWaits (s : State) (q : Nat) (x : Stored) : Bool :=
  match x.kind with
  | .marker g =>
    (List.range 16).any fun i =>
      let p := 16 * (q / 16) + i
      p != q && ((getQueue s p).die ++ (getQueue s p).dram.map fun d => d.copy).any fun c =>
        match (getStored s c.pkt).bind fun y => y.pkt.tx with
        | some h => h.flow / 1024 == g && h.epoch != (getGroup s g).epoch % 16
        | none => false
  | _ => false

/-- The queues of a port that are eligible (11 R383), with the transmitted lengths of their head frames. -/
def eligible (s : State) (n : Nat) : List (Nat × Nat) :=
  (List.range 16).filterMap fun i =>
    let q := 16 * n + i
    match headOf s q with
    | none => none
    | some h =>
      let len := txLength s q h.2
      let units := psUnits (wirePs s n len)
      if !markerWaits s q h.2 && gatePasses s n i units && clearOfProtected s n units && shaperOpen s q && shaperOpen s (8192 + n) &&
          (!rxPaused s n (i / 2) || (getQs s q).storm) then some (i, len) else none

/-- The queue of the round after `i`. (Log entry 67.) -/
def roundNext (el : List (Nat × Nat)) (i : Nat) : Option (Nat × Nat) :=
  match el.find? fun e => decide (i < e.1) with | some e => some e | none => el.head?

/-- Deficit round robin (11 R384) among the eligible queues of one PRIO: the round goes on from queue `i`, giving each queue
it reaches WEIGHT × 256, until one holds its head frame's length. (Log entry 67.) -/
def drr (n : Nat) (el : List (Nat × Nat)) : Nat → Nat → State → State × Option (Nat × Nat)
  | 0, _, s => (s, none)
  | fuel + 1, i, s =>
    match roundNext el i with
    | none => (s, none)
    | some e =>
      let t := updQs s (16 * n + e.1) fun d => { d with deficit := d.deficit + d.weight * 256 }
      if e.2 ≤ (getQs t (16 * n + e.1)).deficit then (t, some e) else drr n el fuel e.1 t

/-- The queue that sends next on a port, with D and the round's place updated. (Log entry 67.) -/
def pickQueue (s : State) (n : Nat) : State × Option (Nat × Nat) :=
  let el := eligible s n
  let prio := fun (e : Nat × Nat) => (getQs s (16 * n + e.1)).prio
  let top := (el.map prio).foldl max 0
  let same := el.filter fun e => prio e == top
  let cur := (getSched s n).cur.getD top none
  let stay := match cur with
    | some i => same.find? fun e => e.1 == i && decide (e.2 ≤ (getQs s (16 * n + i)).deficit)
    | none => none
  let r := match stay with
    | some e => (s, some e)
    | none => drr n same (16 * 70) (cur.getD 15) s
  match r.2 with
  | some e => (updSched r.1 n fun p => { p with cur := p.cur.set top (some e.1) }, some e)
  | none => (s, none)

/-- A spray shim's bytes (07 Table 7-7). -/
def shimBytes (s : State) (x : Shim) : List Byte :=
  bytesBE 12 (packN [(80, 16, shimType s), (64, 16, x.sender), (48, 16, x.flow), (16, 32, x.seq), (12, 4, x.epoch),
    (8, 4, x.kind), (0, 8, x.paths)])

/-- A UDP checksum brought up to date for two words that changed; a checksum of zero, which is none, stays. (Log entry 66.) -/
def udpSumFor (old : Nat) (words : List (Nat × Nat)) : Nat :=
  if old = 0 then 0 else
  let v := 65535 - old + sumN (words.map fun w => 65535 - w.1 + w.2)
  65535 - v % 65535

/-- A frame with the escalation fields of its collective header written (11 R402, 13 Table 13-2), its UDP checksum with them.
(Log entry 66.) -/
def putHeaderEsc (s : State) (p : Pkt) (f : List Byte) : List Byte :=
  match headerEsc s f, udpFrame f with
  | some _, some c =>
    let h := beNat (slice f (c.udp + 8) 32)
    let v := h - nfld h 238 4 * 2 ^ 238 + packN [(239, 3, p.esc), (238, 1, b2n p.sat)]
    let g := f.take (c.udp + 8) ++ bytesBE 32 v ++ f.drop (c.udp + 40)
    patch g (c.udp + 6) (bytesBE 2 (udpSumFor (be16 f (c.udp + 6))
      [(be16 f (c.udp + 8), be16 g (c.udp + 8)), (be16 f (c.udp + 10), be16 g (c.udp + 10))]))
  | _, _ => f

/-- A frame as it leaves (07 R251, 11 R402, 07 R237): shim, then tag, after the source address, and its FCS computed.
(Log entry 46.) -/
def wireFrame (s : State) (q : Nat) (x : Stored) (f : List Byte) : List Byte :=
  let p := x.pkt
  let g := putHeaderEsc s p f
  let tag := if tagged s q x then bytesBE 4 (packN [(16, 16, tagType s), (13, 3, p.esc), (12, 1, b2n p.sat)]) else []
  refcs (g.take 12 ++ (match p.tx with | some h => shimBytes s h | none => []) ++ tag ++ g.drop 12)

/-- A queue's head copy taken out as it starts or is dropped: W is reset, and D when the queue becomes empty
(11 R384, R399). (Log entry 67.) -/
def popHead (s : State) (q : Nat) (begun : Bool) : State :=
  let t := wdRefresh (updQueue s q fun x => { x with die := x.die.drop 1 }) q
  let empty := (getQueue t q).die.isEmpty && (getQueue t q).dram.isEmpty
  updQs t q fun d =>
    { d with w := if begun then 0 else d.w, wFrom := if begun then d.wFrom.map fun _ => t.tb.now else d.wFrom,
             deficit := if empty then 0 else d.deficit }

/-- One presented packet of a sequencer group has left its gateway queue (12 R415, R418). -/
def seqLeft (s : State) (c : Copy) : State :=
  match c.group with
  | some g => seqDrained (updSeq s g fun x => { x with queued := x.queued - 1 }) g
  | none => s

/-- The host and capture copies that the egress stages of a copy ask for (07 R237; 09 R332). (Log entry 46.) -/
def egressCopies (s : State) (n : Nat) (c : Copy) (x : Stored) (e : Egressed) : State :=
  let t := match e.host with
    | some h => hostCopyMade s n ⟨c.pkt, e.frame, h.1, h.2, some c.id, false⟩
    | none => s
  if capEnabled t e.capture then
    if capRoom t x.bytes then
      capCopyMade t n ⟨c.pkt, e.capture, e.frame.take ((SMap.get (fun _ => CapClass.reset) t.tel.classes e.capture).snapLen),
        some c.id, x.bytes⟩
    else capLost t e.capture
  else t

/-- A frame of queue `q` starts on port `n`: charged to both shapers and to D, its packet's shaving finalised. -/
def beginFrame (s : State) (n q : Nat) (c : Copy) (x : Stored) (bytes : List Byte) : State :=
  let len := bytes.length
  let t := updQs s q fun d => { d with deficit := d.deficit - len }
  let t := shaperCharge (shaperCharge t q len) (8192 + n) len
  let t := queueEvent (popHead t q true) q 2 1
  let t := startTx t n (.queue c) bytes t.tb.dt
  if x.kind = .packet then finaliseStored t c.pkt (Finish.sent n t.tb.dt c.depth false) else t

/-- 11 R384, R385; 07 R236, R237; 09 R334: a port's next frame starts. `crcOk` is the check of the billet's CRC, `u` what
goes wrong as a dropped copy's reference is released. (Log entries 5 and 67.) -/
def execEgressFrameStart (n : Nat) (crcOk : Bool) (u : BilletUpset) (s : State) : Host.Outcome State Fault Refusal :=
  .next (
    let s := pfcTry (takeover s n) n
    if !portFree s n then s else
    match pickQueue s n with
    | (_, none) => s
    | (t, some e) =>
      let q := 16 * n + e.1
      match headOf t q with
      | none => s
      | some h =>
        let c := h.1
        let x := h.2
        if !crcOk && x.ptr.isSome then
          pfcTryAll (seqLeft (dropRef (crcFailed (popHead t q false) c.pkt n) c.pkt n 0x93 u) c)
        else if x.kind != .packet then beginFrame t n q c x x.pkt.frame
        else
          let r := runEgress t x.pkt n
          let t := egressCopies r.1 n c x r.2
          match r.2.drop with
          | some cause =>
            let t := updStored (countEgressDrop (popHead t q false) n cause) c.pkt fun y => { y with cause := cause }
            pfcTryAll (seqLeft (endCopy t c.pkt c.id u) c)
          | none => beginFrame t n q c x (wireFrame t q x r.2.frame))

/-- The transmit counters of a frame that has ended (15 Table 15-4). -/
def txCounted (s : State) (n : Nat) (f : List Byte) (bad : Bool) : State :=
  let t := frameEvents s n 16 23 f
  if bad then portEvent t n 21 1 else t

/-- What the end of a frame does to its copy (07 R254, 09 R331, 12 R418). -/
def endOfCopy (s : State) (c : Copy) (u : BilletUpset) : State :=
  match getStored s c.pkt with
  | none => s
  | some x =>
    match x.kind with
    | .packet => seqLeft (endCopy s c.pkt c.id u) c
    | .datagram _ => endRef s c.pkt u
    | .marker g => putStored (updGroup s g fun y => { y with markers := y.markers - 1 }) c.pkt none

/-- 11 R386; 05 R179: a port's transmission ends; one that a link fault cut counts as transmitted with error. (Log entry 91.) -/
def execTransmissionEnd (n : Nat) (u : BilletUpset) (s : State) : Host.Outcome State Fault Refusal :=
  .next (
    match (getSched s n).tx with
    | none => s
    | some x =>
      if !decide (x.startNs * 1000 + x.wirePs ≤ s.tb.now * 1000) then s else
      let fan := match x.kind with | .fanout _ _ _ => true | _ => false
      let t := updSched s n fun p =>
        { p with tx := none, freeDt := min s.tb.dt (x.startDt + psUnits x.wirePs), lastFan := fan }
      let t := match x.kind with
        | .mac => if x.bad then portEvent t n 21 1 else t
        | .queue c => endOfCopy (txCounted t n x.bytes x.bad) c u
        | .fanout _ id c => endCopy (txCounted t n x.bytes x.bad) id c u
      pfcTryAll (pfcTry t n))

end Sys2Proof.Machine
end

