-- ==== Sys2Proof/Machine/LatheOps.lean ====
section
/-! DEFINITION. Shared operations on the lathes (chapter 10; 07 R247 to R250): dealing and the reorder stage, drops, machine
checks and their recovery, isolation, and the memories that an instruction reads and writes. -/

namespace Sys2Proof.Machine

def getLathe (s : State) (k : Nat) : Lathe := SMap.get (fun _ => Lathe.reset) s.lat.lathes k
def updLathe (s : State) (k : Nat) (f : Lathe → Lathe) : State :=
  s.updLat fun x => { x with lathes := SMap.upd (fun _ => Lathe.reset) x.lathes k f }
/-- The slice of a lathe and the error group of a slice (10 R350, 17 Table 17-1). -/
def latheSlice (k : Nat) : Nat := k / 6
def groupOfSlice (k : Nat) : Nat := k / 2
/-! Dealing (07 R247, R248) -/

/-- Packets in a lathe's input queue. -/
def queuedPackets (l : Lathe) : Nat := (l.queue.filter fun i => i != .marker).length

/-- A lathe takes packets (07 R247, 10 R373): not excluded, isolated, under test, reloading both its banks, or full.
(Log entry 48.) -/
def dealable (s : State) (slice i : Nat) : Bool :=
  let l := getLathe s (6 * slice + i)
  !bit (getSlice s slice).exclude i && l.iso == 0 && !l.testing && decide (queuedPackets l < 32) &&
    (match l.recovery with | some r => !r.boot | none => true)

/-- The next lathe in the round. (Log entry 48.) -/
def nextLathe (s : State) (slice : Nat) : Option Nat :=
  ((List.range 6).map fun j => ((getSlice s slice).last + 1 + j) % 6).find? fun i => dealable s slice i

/-- An item put at the end of a lathe's queue. -/
def pushItem (s : State) (k : Nat) (i : LItem) : State := updLathe s k fun l => { l with queue := l.queue ++ [i] }

/-- A packet dealt to lathe `i` of a slice: its place in its reorder bucket fixed (07 R248); or dropped for want of a program
(10 R352). (Log entry 48.) -/
def dealTo (s : State) (slice i : Nat) (p : Pkt) : State :=
  let entry := match bankSel s p.ver with
    | some b => if (bankOf s b).state = 2 then (bankOf s b).table.getD p.prog 0 else 0
    | none => 0
  if fld entry 16 16 = 0 then dropUnstored s p 0xA0 else
  let b := flowHash p % 4096
  let q := (getBucket s slice b).next
  let t := updBucket s slice b fun x => { x with next := x.next + 1, out := x.out ++ [⟨q, s.tb.now, none, 0⟩] }
  let t := updSlice t slice fun x => { x with last := i }
  pushItem t (6 * slice + i) (.packet ⟨{ p with lathe := i }, b, q⟩)

/-- The first unstarted packet of a slice's isolated or reloading lathes, to be dealt again (10 R373, R376).
(Log entry 48.) -/
def strayed (s : State) (slice : Nat) : Option (Nat × Dealt) :=
  (List.range 6).findSome? fun i =>
    let l := getLathe s (6 * slice + i)
    let out := l.iso != 0 || (match l.recovery with | some r => r.boot | none => false)
    if out then (l.queue.findSome? fun e => match e with | .packet d => some d | .marker => none).map fun d => (i, d) else none

/-! The reorder stage (07 R248, R249) -/

/-- A sequence number taken out of its bucket. -/
def takeSeq (s : State) (slice : Nat) (d : Dealt) : State :=
  updBucket s slice d.bucket fun x => { x with out := x.out.filter fun o => o.seq != d.seq }

/-- The packet on a lathe dropped (10 R361, R351, R372, R378): its number is skipped, unless the reorder stage has already
skipped it. -/
def latheDrop (s : State) (k cause : Nat) : State :=
  match (getLathe s k).cur with
  | none => s
  | some r =>
    if r.finished then s else
    let t := updLathe s k fun l => { l with cur := none }
    if outstanding t (latheSlice k) r.dealt then
      dropUnstored (takeSeq t (latheSlice k) r.dealt) r.dealt.pkt cause
    else t

/-- A finished program's result offered to the reorder stage (07 R248, R249): held by the lathe while the stage is full,
discarded and counted when it was skipped. -/
def offerResult (s : State) (k : Nat) : State :=
  match (getLathe s k).cur with
  | none => s
  | some r =>
    if !r.finished then s else
    let slice := latheSlice k
    if !outstanding s slice r.dealt then
      updSlice (updLathe s k fun l => { l with cur := none }) slice fun x => { x with lateResults := x.lateResults + 1 }
    else if 512 ≤ (getSlice s slice).results then s
    else
      let t := updLathe s k fun l => { l with cur := none }
      let k := (getSlice s slice).completed
      let t := updSlice t slice fun x => { x with results := x.results + 1, completed := k + 1 }
      updBucket t slice r.dealt.bucket fun x =>
        { x with out := x.out.map fun o => if o.seq = r.dealt.seq then { o with result := some r.dealt.pkt, done := k } else o }

/-! Isolation, faults, machine checks -/

/-- LATHE_ISOLATED (10 Table 10-21). -/
def postIso (s : State) (k cause : Nat) (on : Bool) : State :=
  postAll s 0x0A02 0 (packN [(0, 8, k), (8, 8, cause), (16, 1, b2n on)])

/-- A lathe isolated (10 R376, R377). (Log entry 48.) -/
def isolateLathe (s : State) (k cause : Nat) : State :=
  let t := updLathe s k fun l => { l with iso := cause, recovery := none, testing := false }
  let t := t.updLat fun x => { x with isoRegs := x.isoRegs ||| BitVec.ofNat 192 (2 ^ k) }
  postIso t k cause true

/-- A program fault (10 R361): counted, LATHE_FAULTS posted for the first of a millisecond, the packet dropped. -/
def latheFault (s : State) (k code pc : Nat) : State :=
  let slice := latheSlice k
  let x := getSlice s slice
  let recent := s.tb.now :: x.faults.filter fun t => decide (s.tb.now < t + 1000000)
  let first := match x.faultAt with | some t => decide (t + 1000000 ≤ s.tb.now) | none => true
  let t := updSlice s slice fun y => { y with faults := recent, faultAt := if first then some s.tb.now else y.faultAt }
  let t := updLathe t k fun l =>
    { l with faults := l.faults + 1, budgetDrops := if code = 6 then l.budgetDrops + 1 else l.budgetDrops,
             lastFaultPc := pc, lastFaultCode := code }
  let t := if first then
      postAll t 0x0A03 0 (packN [(0, 5, slice), (8, 8, code), (16, 16, pc), (32, 32, recent.length)]) else t
  latheDrop t k (if code = 6 then 0xA2 else 0xA1)

/-- A lathe memory error recorded (10 R351; 17 Table 17-3): 0 register, 1 local, 2 shared. -/
def memoryError (s : State) (k kind word : Nat) : State :=
  recordError s (groupOfSlice (latheSlice k)) 0x04 k 1 3 (packN [(0, 2, kind), (2, 21, word)])

/-- A control-store bank of a lathe is valid (10 R373). -/
def csValid (l : Lathe) (b : Bool) : Bool := if b then l.validB else l.validA
def setCs (l : Lathe) (b v : Bool) : Lathe := if b then { l with validB := v } else { l with validA := v }

/-- A bank of a lathe's group that is being reloaded (10 R375). -/
def reloading (s : State) (k : Nat) (b : Bool) : Bool :=
  match (getSlice s (latheSlice k)).reload with | some r => r.1 == b | none => false

/-- MACHINE_CHECK (10 Table 10-21). -/
def postMcheck (s : State) (k cause outcome : Nat) (bank : Bool) (word : Nat) : State :=
  postAll s 0x0A01 0 (packN [(0, 8, k), (8, 4, cause), (12, 2, outcome), (14, 1, b2n bank), (15, 13, word),
    (32, 32, (getLathe s k).mchecks)])

/-- A machine check of causes 1 to 3 (10 R372 to R374): the packet in progress is dropped and the recovery begins, or the
third within a second isolates the lathe. -/
def machineCheck (s : State) (k cause : Nat) (bank : Bool) (word : Nat) : State :=
  let l := getLathe s k
  let recent := s.tb.now :: l.recent.filter fun t => decide (s.tb.now < t + 1000000000)
  let t := latheDrop s k 0xA3
  let t := updLathe t k fun y => { y with mchecks := y.mchecks + 1, lastMcheckDt := s.tb.dt, recent := recent }
  let g := groupOfSlice (latheSlice k)
  let detail := packN [(0, 3, cause), (3, 1, b2n bank), (4, 13, word)]
  if 3 ≤ recent.length then
    isolateLathe (postMcheck (recordError t g 0x06 k 2 4 detail) k cause 3 bank word) k 2
  else
    let t := recordError t g 0x06 k 0 0 detail
    let twin := csValid l (!bank) || reloading s k (!bank)
    updLathe t k fun y =>
      let y := setCs y bank false
      if twin then { y with recovery := some ⟨bank, false, word, cause⟩ }
      else { setCs y (!bank) false with recovery := some ⟨bank, true, word, cause⟩ }

/-- The control-store bank that a lathe fetches from for a program bank (10 R359, R375). -/
def csBank (l : Lathe) (b : Bool) : Bool := if l.redirect = some b then !b else b

/-! Memories -/

/-- A general register; g0 reads zero (10 Table 10-1). -/
def greg (l : Lathe) (r : BitVec 5) : BitVec 64 := if r = 0 then 0 else l.regs.getD r.toNat 0
def setGreg (l : Lathe) (r : BitVec 5) (v : BitVec 64) : Lathe :=
  if r = 0 then l
  else { l with regs := l.regs.set r.toNat v, badRegs := l.badRegs.filter fun x => x != r.toNat }

/-- Bytes of local memory; byte `a` is byte a mod 8 of its word, the least significant first. -/
def localByte (l : Lathe) (a : Nat) : Byte := BitVec.ofNat 8 (fld (SMap.get (fun _ => (0 : BitVec 64)) l.mem (a / 8)) (8 * (a % 8)) 8)
def localBytes (l : Lathe) (a n : Nat) : List Byte := (List.range n).map fun i => localByte l (a + i)
/-- One byte stored; the word's mark is cleared (10 R351). -/
def putLocal (l : Lathe) (a : Nat) (v : Byte) : Lathe :=
  let w := SMap.get (fun _ => (0 : BitVec 64)) l.mem (a / 8)
  let i := 8 * (a % 8)
  let w' := BitVec.ofNat 64 (w.toNat - fld w i 8 * 2 ^ i + v.toNat * 2 ^ i)
  { l with mem := SMap.put (fun _ => 0) l.mem (a / 8) w', badMem := l.badMem.filter fun x => x != a / 8 }
def putLocals : Lathe → Nat → List Byte → Lathe
  | l, _, [] => l
  | l, a, b :: bs => putLocals (putLocal l a b) (a + 1) bs
/-- The first marked word that `n` bytes of local memory at `a` touch. -/
def badLocal (l : Lathe) (a n : Nat) : Option Nat :=
  ((List.range (n / 8 + 2)).map fun i => a / 8 + i).find? fun w => l.badMem.contains w && decide (8 * w < a + n)

/-- A shared-memory word of a slice, and a store to it (10 R351: the mark goes). -/
def shmWord (s : State) (slice w : Nat) : BitVec 64 := SMap.get (fun _ => 0) s.lat.shm (2 ^ 18 * slice + w)
def putShm (s : State) (slice w : Nat) (v : BitVec 64) : State :=
  s.updLat fun x =>
    { x with shm := SMap.put (fun _ => 0) x.shm (2 ^ 18 * slice + w) v,
             badShm := x.badShm.filter fun i => i != 2 ^ 18 * slice + w }
def putShmWords (slice : Nat) : State → Nat → List (BitVec 64) → State
  | s, _, [] => s
  | s, w, v :: vs => putShmWords slice (putShm s slice w v) (w + 1) vs

end Sys2Proof.Machine
end

