-- ==== Sys2Proof/Machine/Micro.lean ====
section
/-! DEFINITION. The microcode beneath the action ISA (10 R365 to R367): the microwords of a control store, the sequencing of a
microroutine, and the run of an instruction's microroutine. -/

namespace Sys2Proof.Machine

/-- A microword of its fields (10 Table 10-7). -/
def mword (uop dst src seq field : Nat) : BitVec 32 :=
  BitVec.ofNat 32 (packN [(26, 6, uop), (22, 4, dst), (18, 4, src), (16, 2, seq), (0, 16, field)])

/-- The sequencing field of a BRANCH. -/
def branchField (base cgroup cmask : Nat) : Nat := packN [(7, 9, base), (5, 2, cgroup), (1, 4, cmask)]

/-- The CRC microroutine (10 Table 10-11); an operand it does not state is 0. -/
def crcRoutine : List (Nat × BitVec 32) :=
  [(0x310, mword 0x01 14 10 0 0), (0x311, mword 0x01 13 9 0 0), (0x312, mword 0x01 0 8 3 0x1A50),
   (0x1A50, mword 0x30 0 0 1 (branchField 0x1A5 2 3)), (0x1A51, mword 0x01 8 0 2 0),
   (0x1A52, mword 0x38 0 0 1 (branchField 0x1A6 3 1)), (0x1A53, mword 0x01 8 0 2 0), (0x1A60, mword 0 0 0 3 0x1A50),
   (0x1A61, mword 0 0 0 3 0x1F00)]

/-- The microword at an address: that of Table 10-11, or one of the vendor's, which the spec does not give. -/
def microword (a : Nat) : BitVec 32 :=
  match crcRoutine.find? fun e => e.1 == a with
  | some e => e.2
  | none => Config.microcode a

/-- What a microroutine sees of the instruction it runs (10 Tables 10-8, 10-10): g[RA], g[RB], the immediate, FN, the frame, and the
number of the next free value. -/
structure MicroEnv where
  ra : BitVec 64
  rb : BitVec 64
  imm : BitVec 64
  fn : BitVec 11
  frame : List Byte
  ctr : Nat

/-- A microroutine under way: its registers, g[RD], and whether it has come to its end. -/
structure MicroRun where
  m : Micro
  rd : BitVec 64
  stop : Bool

/-- The operand that SRC selects (10 Table 10-8). -/
def microSrc (e : MicroEnv) (x : MicroRun) (w : BitVec 32) : BitVec 64 :=
  match fld w 18 4 with
  | 8 => x.rd
  | 9 => e.ra
  | 10 => e.rb
  | 11 => e.imm
  | 12 => x.m.mdr
  | 13 => x.m.mar
  | 14 => x.m.cnt
  | 15 => if fld w 16 2 = 0 then BitVec.ofNat 64 (fld w 0 16) else 0
  | n => x.m.t.getD n 0

/-- The present value of the operand that DST selects. -/
def microDst (e : MicroEnv) (x : MicroRun) (w : BitVec 32) : BitVec 64 :=
  match fld w 22 4 with
  | 8 => x.rd
  | 9 => e.ra
  | 10 => e.rb
  | 12 => x.m.mdr
  | 13 => x.m.mar
  | 14 => x.m.cnt
  | n => x.m.t.getD n 0

/-- The operand that DST selects written; what a routine writes to general registers is the instruction's own effect. -/
def microPut (x : MicroRun) (w : BitVec 32) (v : BitVec 64) : MicroRun :=
  match fld w 22 4 with
  | 8 => { x with rd := v }
  | 9 => x
  | 10 => x
  | 11 => x
  | 12 => { x with m := { x.m with mdr := v } }
  | 13 => { x with m := { x.m with mar := v } }
  | 14 => { x with m := { x.m with cnt := v } }
  | 15 => x
  | n => { x with m := { x.m with t := x.m.t.set n v } }

/-- The conditions of an ALU result (10 Table 10-10 group 0). -/
def microFlags (x : MicroRun) (v : BitVec 64) (carry overflow : Bool) : MicroRun :=
  { x with m := { x.m with flags := BitVec.ofNat 4 (packN [(0, 1, b2n (v == 0)), (1, 1, b2n v.msb), (2, 1, b2n carry),
    (3, 1, b2n overflow)]) } }

/-- A subtraction's conditions; carry is the borrow. (Log entry 58.) -/
def microSub (x : MicroRun) (a b : BitVec 64) : MicroRun :=
  microFlags x (a - b) (a.ult b) (a.msb != b.msb && (a - b).msb != a.msb)

/-- The bytes that one CRC16B takes: 16, but first those beyond a multiple of 16. (Log entry 60.) -/
def crcBytes (cnt : Nat) : Nat := if cnt = 0 then 0 else (cnt - 1) % 16 + 1

/-- One micro-operation (10 Table 10-9); what an operation leaves that the spec does not state is free (log entry 58). -/
def microOp (e : MicroEnv) (x : MicroRun) (w : BitVec 32) : MicroRun :=
  let a := microDst e x w
  let b := microSrc e x w
  let free := BitVec.ofNat 64 (Config.freeValue e.ctr)
  let logic := fun v => microFlags (microPut x w v) v false false
  match fld w 26 6 with
  | 0x01 => microPut x w b
  | 0x02 => microFlags (microPut x w (a + b)) (a + b) (decide (2 ^ 64 ≤ a.toNat + b.toNat)) (a.msb == b.msb && (a + b).msb != a.msb)
  | 0x03 => microSub (microPut x w (a - b)) a b
  | 0x04 => logic (a &&& b)
  | 0x05 => logic (a ||| b)
  | 0x06 => logic (a ^^^ b)
  | 0x07 => logic (a <<< b.toNat)
  | 0x08 => logic (a >>> b.toNat)
  | 0x09 => logic (a.sshiftRight b.toNat)
  | 0x0A => microSub x a b
  | 0x0E => { x with m := { x.m with cnt := x.m.cnt - 1 } }
  | 0x30 =>
    let n := crcBytes x.m.cnt.toNat
    let y := microPut x w (BitVec.ofNat 64 (crcRefl 0x82F63B78 (fld a 0 32) (slice e.frame x.m.mar.toNat n)))
    { y with m := { y.m with mar := y.m.mar + BitVec.ofNat 64 n, cnt := y.m.cnt - BitVec.ofNat 64 n } }
  | 0x38 => { x with m := { x.m with resume := BitVec.ofNat 13 (16 * fld w 7 9) } }
  | 0x33 => { x with stop := true }
  | 0x3A => { x with stop := true }
  | n =>
    if 0x0B ≤ n ∧ n ≤ 0x0F ∨ n = 0x31 ∨ n = 0x32 then microPut x w free
    else if 0x10 ≤ n ∧ n ≤ 0x2B then { x with m := { x.m with mdr := free } }
    else x

/-- The conditions of a group (10 Table 10-10), c0 least significant. Nothing is requested of the lathe within an instruction: requests
take effect between two (log entry 60). -/
def microConds (e : MicroEnv) (m : Micro) (group : Nat) : BitVec 4 :=
  match group with
  | 0 => m.flags
  | 1 => BitVec.ofNat 4 (fld e.fn 7 4)
  | 2 => BitVec.ofNat 4 (packN [(0, 1, b2n (m.cnt == 0)), (1, 1, b2n (fld m.cnt 0 9 == 0)), (2, 1, b2n (fld m.cnt 0 8 == 0)),
      (3, 1, b2n m.hit)])
  | _ => 0

/-- Where a BRANCH goes (10 R366): BASE × 16 + (C AND CMASK). -/
def branchTo (e : MicroEnv) (m : Micro) (field : BitVec 16) : BitVec 13 :=
  BitVec.ofNat 13 (16 * fld field 7 9 + (microConds e m (fld field 5 2) &&& BitVec.ofNat 4 (fld field 1 4)).toNat)

/-- Where a DISPATCH goes (10 R366): 16 × OPC of the next instruction. -/
def dispatchTo (opc : BitVec 6) : BitVec 13 := BitVec.ofNat 13 (16 * opc.toNat)

/-- The address that follows a microword, from the registers after its operation (10 Table 10-7, R366). A DISPATCH ends the routine:
the next instruction names where it goes. -/
def microNext (e : MicroEnv) (x : MicroRun) (w : BitVec 32) : MicroRun :=
  if fld w 26 6 = 0x39 then { x with m := { x.m with upc := x.m.resume } }
  else
    match fld w 16 2 with
    | 0 => { x with m := { x.m with upc := x.m.upc + 1 } }
    | 1 => { x with m := { x.m with upc := branchTo e x.m (BitVec.ofNat 16 (fld w 0 16)) } }
    | 2 => { x with stop := true }
    | _ => { x with m := { x.m with upc := BitVec.ofNat 13 (fld w 0 13) } }

/-- A microroutine run for at most `n` microcycles. -/
def microRun (e : MicroEnv) : Nat → MicroRun → MicroRun
  | 0, x => x
  | n + 1, x =>
    if x.stop then x else
    let w := microword x.m.upc.toNat
    microRun { e with ctr := e.ctr + 1 } n (microNext e (microOp e x w) w)

/-- The microroutine of instruction `i` run on lathe `l` for `n` microcycles, from where DISPATCH enters it; `hit` is what its lookup
found. -/
def microRoutine (i : LInsn) (l : Lathe) (frame : List Byte) (ctr n : Nat) (hit : Bool) : MicroRun :=
  microRun ⟨greg l i.ra, greg l i.rb, i.imm.signExtend 64, i.fn, frame, ctr⟩ n
    ⟨{ l.micro with upc := dispatchTo i.opc, hit := hit }, greg l i.rd, false⟩

end Sys2Proof.Machine
end

