-- ==== Sys2Proof/Machine/Lathes.lean ====
section
/-! DEFINITION. The commands of chapter 10 on lathes, program banks, shared memory and microcode, and those of 07 R247 to R250
on dealing. -/

namespace Sys2Proof.Machine

/-! Dealing and reorder (07 R247 to R250) -/

/-- 07 R250: DEAL_SET. -/
def execDealSet (o : Order) (s : State) : Host.Outcome State Fault Refusal :=
  .next (runOrder (setForm 0x4708 [0x76] 0x1F [(0, 6), (8, 12)] modesSet true) o s
    { badArgument := decide (o.f 8 12 = 0) } fun t =>
    let k := o.inst
    let old := (getSlice t k).exclude
    let new := BitVec.ofNat 6 (o.f 0 6)
    let fresh := ((List.range 6).filter fun i => bit new i && !bit old i).map fun i => 6 * k + i
    let t := updSlice t k fun x =>
      { x with exclude := new, timeoutUs := o.f 8 12,
               dealWaits := if fresh.isEmpty then x.dealWaits else x.dealWaits ++ [⟨fresh, o⟩] }
    if fresh.isEmpty then (t, .done stSuccess 0) else (fresh.foldl (fun u n => pushItem u n .marker) t, .later))

/-- 07 R250: a drain marker leaves its lathe; the last one of a DEAL_SET completes it. -/
def execDealDrainMarkerDone (k : Nat) (s : State) : Host.Outcome State Fault Refusal :=
  .next (
    let l := getLathe s k
    match l.queue with
    | .marker :: q =>
      if l.cur.isSome then s else
      let slice := latheSlice k
      let t := updLathe s k fun x => { x with queue := q }
      match (getSlice t slice).dealWaits.find? fun w => w.lathes.contains k with
      | none => t
      | some w =>
        let w' : DealWait := { w with lathes := w.lathes.erase k }
        if w'.lathes.isEmpty then
          finishThis (updSlice t slice fun x => { x with dealWaits := x.dealWaits.erase w }) 0x4708 w.order stSuccess 0
        else updSlice t slice fun x => { x with dealWaits := x.dealWaits.replace w w' }
    | _ => s)

/-- 07 R247: a slice deals one packet: one stranded on a lathe that is out of service, with its number; else the first of the
admission queue; else the next one decided, which waits in that queue or is dropped when no lathe takes it.
(Log entry 48.) -/
def execLatheDeal (slice : Nat) (s : State) : Host.Outcome State Fault Refusal :=
  .next (
    let x := getSlice s slice
    match strayed s slice, nextLathe s slice, x.admission, x.arrivals with
    | some e, some i, _, _ =>
      let t := updLathe s (6 * slice + e.1) fun l => { l with queue := l.queue.erase (.packet e.2) }
      pushItem (updSlice t slice fun y => { y with last := i }) (6 * slice + i) (.packet { e.2 with pkt := { e.2.pkt with lathe := i } })
    | _, some i, p :: ps, _ => dealTo (updSlice s slice fun y => { y with admission := ps }) slice i p
    | _, some i, [], p :: ps => dealTo (updSlice s slice fun y => { y with arrivals := ps }) slice i p
    | _, none, adm, p :: ps =>
      let t := updSlice s slice fun y => { y with arrivals := ps }
      if 256 ≤ adm.length then dropUnstored t p 0x82
      else updSlice t slice fun y => { y with admission := y.admission ++ [p] }
    | _, _, _, [] => s)

/-- The lathes of a slice that hold finished results offer them again. -/
def offerAll (s : State) (slice : Nat) : State := (List.range 6).foldl (fun t i => offerResult t (6 * slice + i)) s

/-- A result of the slice that may be released and was complete before place `k` (07 R248). -/
def earlierResult (s : State) (slice k : Nat) : Bool :=
  s.lat.buckets.any fun kv => kv.1 / 4096 == slice &&
    (match kv.2.out with | o :: _ => o.result.isSome && decide (o.done < k) | [] => false)

/-- 07 R248: the result of a bucket's oldest outstanding number is released, in completion order among the buckets, and its
decision is fixed (07 R234). -/
def execLatheResultRelease (slice bucket : Nat) (s : State) : Host.Outcome State Fault Refusal :=
  .next (
    match (getBucket s slice bucket).out with
    | ⟨_, _, some p, k⟩ :: os =>
      if earlierResult s slice k then s else
      let t := updBucket s slice bucket fun x => { x with out := os }
      let t := updSlice t slice fun x => { x with results := x.results - 1 }
      offerAll (fixDecision t { p with dec := { p.dec with lathe := 0 } }) slice
    | _ => s)

/-- The packet of an outstanding number that has no result yet: queued on a lathe, or being run. -/
def findDealt (s : State) (slice bucket : Nat) (q : BitVec 16) : Option Pkt :=
  (List.range 6).findSome? fun i =>
    let l := getLathe s (6 * slice + i)
    let mine := fun (d : Dealt) => d.bucket == bucket && d.seq == q
    match l.cur with
    | some r => if mine r.dealt then some r.dealt.pkt else
        l.queue.findSome? fun e => match e with | .packet d => if mine d then some d.pkt else none | .marker => none
    | none => l.queue.findSome? fun e => match e with | .packet d => if mine d then some d.pkt else none | .marker => none

/-- 07 R249: a bucket's oldest outstanding packet has been dealt for longer than LATHE_TIMEOUT_US. -/
def execLatheTimeoutSkip (slice bucket : Nat) (s : State) : Host.Outcome State Fault Refusal :=
  .next (
    let x := getSlice s slice
    match (getBucket s slice bucket).out with
    | ⟨q, at_, none, _⟩ :: os =>
      if s.tb.now ≤ at_ + x.timeoutUs * 1000 then s else
      let recent := s.tb.now :: x.skips.filter fun t => decide (s.tb.now < t + 1000000)
      let first := match x.stallAt with | some t => decide (t + 1000000 ≤ s.tb.now) | none => true
      let t := updBucket s slice bucket fun y => { y with out := os }
      let t := updSlice t slice fun y => { y with skips := recent, stallAt := if first then some s.tb.now else y.stallAt }
      let t := match findDealt s slice bucket q with | some p => dropUnstored t p 0x83 | none => t
      if first then
        postAll t 0x0702 0 (packN [(0, 5, slice), (8, 8, min recent.length 255), (16, 48, x.lateResults)])
      else t
    | _ => s)

/-! Reads -/

/-- STATE of READ_LATHE (10 Table 10-18). -/
def latheState (l : Lathe) : Nat :=
  if l.testing then 4 else if l.iso ≠ 0 then 3 else if l.recovery.isSome then 2 else if l.cur.isSome then 1 else 0

/-- READ_LATHE's result (10 Table 10-18). -/
def latheRecord (l : Lathe) : Nat :=
  packN [(0, 3, latheState l), (4, 1, b2n l.validA), (5, 1, b2n l.validB), (6, 1, b2n l.redirect.isSome), (8, 8, l.iso),
    (32, 32, l.mchecks), (64, 64, l.packets), (128, 64, l.busy), (192, 48, l.stalls), (240, 32, l.faults),
    (272, 32, l.budgetDrops), (304, 16, l.lastFaultPc), (320, 8, l.lastFaultCode), (336, 96, (dtWord l.lastMcheckDt).toNat),
    (512, 256, l.digestA.toNat), (768, 256, l.digestB.toNat)]

/-- 10 R379: READ_LATHE. -/
def execReadLathe (o : Order) (s : State) : Host.Outcome State Fault Refusal :=
  .next (runOrder (readForm 0x0A01 [0xA1] 0xFF [] 128 modesOn) o s { badObject := decide (192 ≤ o.inst) } fun t =>
    (t, .result (bytesLE 128 (latheRecord (getLathe t o.inst))) 0))

/-- A 256-bit digest as a field of a little-endian structure: its first byte lowest. -/
def digestField (d : BitVec 256) : Nat := leNat (bytesBE 32 d.toNat)

/-- READ_BANK's result (10 Table 10-19). -/
def bankRecord (s : State) (b : Bool) : Nat :=
  let x := bankOf s b
  packN [(0, 2, x.state), (2, 1, b2n (bankInUse s b)), (8, 3, bankVersions s b), (32, 32, x.textWords), (64, 32, x.dataBytes),
    (128, 256, digestField (bankDigest s b)), (384, 256, digestField x.mcDigest)]

/-- The bank that an order names: 0 is A. -/
def orderBank (o : Order) : Bool := decide (o.inst = 1)

/-- 10 R379: READ_BANK. -/
def execReadBank (o : Order) (s : State) : Host.Outcome State Fault Refusal :=
  .next (runOrder (readForm 0x0A02 [0xA2] 1 [] 128 modesOn) o s {} fun t =>
    (t, .result (bytesLE 128 (bankRecord t (orderBank o))) 0))

/-- The accesses of a slice's work-order port to `n` words of its shared memory from address `a` (10 R363, 14 Table 14-1). -/
def shmPort (s : State) (slice a n : Nat) : State :=
  arbUseAll s 0xE2 6 ((List.range n).map fun i => 16 * slice + (a / 8 + i) % 16)

/-- 10 R379: SHM_READ. What a word with a marked parity error reads as is not stated, so it is free (log entry 1). -/
def execShmRead (o : Order) (s : State) : Host.Outcome State Fault Refusal :=
  let a := o.f 0 21
  let n := o.f 21 11
  .next (runOrder (readForm 0x0A03 [0xA3] 0x1F [(0, 32)] 64 modesOn) o s
    { badArgument := decide (a % 64 ≠ 0) || decide (n = 0) || decide (1024 < n) || decide (2 ^ 21 < a + 64 * n) } fun t =>
    let word := fun w => if t.lat.badShm.contains (2 ^ 18 * o.inst + w) then Config.freeValue (t.freeCtr + w) % 2 ^ 64
      else (shmWord t o.inst w).toNat
    ((List.range (8 * n)).foldl (fun u _ => u.drawn) (shmPort t o.inst a (8 * n)),
      .result ((List.range (8 * n)).flatMap fun i => bytesLE 8 (word (a / 8 + i))) 0))

/-- The bits of a byte that are 1, modulo 2. -/
def parityOf (v n : Nat) : Nat := ((List.range n).foldl (fun p i => p + nfld v i 1) 0) % 2

/-- A stored microword with its parity (10 R365), and whether it is correct; before a bank is loaded its words are free.
(Log entry 58.) -/
def microRecord (s : State) (l : Lathe) (b : Bool) (w : Nat) : Nat :=
  let loaded := (if b then l.digestB else l.digestA) != 0
  let v := if loaded then (microword w).toNat else Config.freeValue (s.freeCtr + w) % 2 ^ 32
  let flips := SMap.get (fun _ => (0 : BitVec 4)) l.flips (8192 * b2n b + w)
  let par := (List.range 4).foldl (fun a i => a + parityOf (nfld v (8 * i) 8) 8 * 2 ^ i) 0
  packN [(0, 32, v), (32, 4, (BitVec.ofNat 4 par ^^^ flips).toNat), (48, 1, b2n (flips == 0))]

/-- A stored mandrel word (10 Table 10-12), and as READ_CONTROL_STORE shows it, its parity correct. -/
def mandrelWord (w : Nat) : Nat :=
  let v := (Config.mandrel w).toNat
  packN [(0, 46, v), (46, 1, parityOf (nfld v 0 23) 23), (47, 1, parityOf (nfld v 23 23) 23)]
def mandrelRecord (w : Nat) : Nat := packN [(0, 48, mandrelWord w), (48, 1, 1)]

/-- The signature that self-test computes (10 R370): the CRC-32C of the mandrel's 1,024 words, each of 6 bytes, most significant
first. -/
def mandrelSignature : BitVec 32 := crc32c ((List.range 1024).flatMap fun w => bytesBE 6 (mandrelWord w))

/-- 10 R379: READ_CONTROL_STORE. -/
def execReadControlStore (o : Order) (s : State) : Host.Outcome State Fault Refusal :=
  let first := o.f 1 13
  let n := o.f 14 14
  let mandrel := o.b 28
  .next (runOrder (readForm 0x0A04 [0xA1] 0xFF [(0, 29)] 64 modesOn) o s
    { badObject := decide (192 ≤ o.inst),
      badArgument := decide (n = 0) || decide (8192 < n) || decide ((if mandrel then 1024 else 8192) < first + n) } fun t =>
    let l := getLathe t o.inst
    ((List.range n).foldl (fun u _ => u.drawn) t,
      .result ((List.range n).flatMap fun i =>
        bytesLE 8 (if mandrel then mandrelRecord (first + i) else microRecord t l (o.b 0) (first + i))) 0))

/-! Program banks (10 R355 to R358) -/

/-- BANK_STATE (10 Table 10-21). -/
def postBank (s : State) (b : Bool) (st : Nat) : State := postAll s 0x0A04 0 (packN [(0, 1, b2n b), (1, 2, st)])

/-- The program table of an image. -/
def imageTable (bs : List Byte) : List (BitVec 64) := (List.range 256).map fun p => BitVec.ofNat 64 (leNat (slice bs (64 + 8 * p) 8))

/-- A program-table entry of an image is invalid (10 R356, Table 10-3): reserved bits, an entry beyond the text, a window
beyond 512 pages. -/
def entryBad (text : Nat) (e : BitVec 64) : Bool :=
  fld e 41 7 != 0 || fld e 58 6 != 0 ||
    (fld e 16 16 != 0 && (decide (text ≤ fld e 0 16) || decide (512 < fld e 32 9 + fld e 48 10)))

/-- The sizes that an image states. -/
def imageText (bs : List Byte) : Nat := leNat (slice bs 8 4)
def imageData (bs : List Byte) : Nat := leNat (slice bs 12 4)
/-- The bytes of an image before its trailer, and the trailer. -/
def imageBody (bs : List Byte) : List Byte := bs.take (bs.length - 32)
def imageDigest (bs : List Byte) : BitVec 256 := BitVec.ofNat 256 (beNat (bs.drop (bs.length - 32)))

/-- IMAGE_INVALID (10 R356). -/
def imageInvalid (bs : List Byte) : Bool :=
  let text := imageText bs
  let data := imageData bs
  leNat (slice bs 0 4) != 0x53564F31 || leNat (slice bs 4 2) != 1 || leNat (slice bs 6 2) != 0 ||
    decide (text = 0) || decide (65536 < text) || decide (65536 < data) || data % 8 != 0 ||
    bs.length != 64 * ((2112 + 4 * text + data + 32 + 63) / 64) || imageDigest bs != sha256 (imageBody bs) ||
    (slice bs 48 16).any (fun b => b != 0) || (slice bs 64 8).any (fun b => b != 0) ||
    (slice bs (2112 + 4 * text + data) (bs.length - 32 - (2112 + 4 * text + data))).any (fun b => b != 0) ||
    (imageTable bs).any (entryBad text)

/-- The image that an image's bytes make of a bank. -/
def imageBank (bs : List Byte) : Bank :=
  let text := imageText bs
  { state := 2, textWords := text, dataBytes := imageData bs, digest := imageDigest bs,
    mcDigest := BitVec.ofNat 256 (beNat (slice bs 16 32)), table := imageTable bs,
    text := (List.range text).map fun i => BitVec.ofNat 32 (leNat (slice bs (2112 + 4 * i) 4)),
    data := (List.range (imageData bs / 8)).map fun i => BitVec.ofNat 64 (leNat (slice bs (2112 + 4 * text + 8 * i) 8)) }

/-- 10 R356: IMAGE_LOAD. -/
def execImageLoad (o : Order) (s : State) : Host.Outcome State Fault Refusal :=
  let b := orderBank o
  .next (runPtr (ptrForm 0x4A01 [0xA2] 1 modesSet true) o s {}
    (fun bs =>
      { chapter := if imageInvalid bs then some 0x8A02
                   else if beNat (slice bs 16 32) ≠ Config.microcodeDigest.toNat then some 0x8A03
                   else if bankInUse s b then some 0x8A01
                   else none })
    fun bs t =>
      if bankDigest t b = imageDigest bs ∧ (bankOf t b).state = 2 then (t, .done 0x0A01 (leNat ((bytesBE 32 (imageDigest bs).toNat).take 8)))
      else
        let old := bankDigest t b
        (postBank (bankElementChange (updBank t b fun x => { x with state := 1 }) b old 0) b 1, .later))

/-- 10 R356: a load ends: the bank is ready, or its verification failed. -/
def execImageLoadDone (b ok : Bool) (s : State) : Host.Outcome State Fault Refusal :=
  .next (
    match findRunning s 0x4A01 fun o => orderBank o == b with
    | none => s
    | some r =>
      match r.order.data with
      | .bytes bs =>
        if ok then
          finishOrder (postBank (bankElementChange (updBank s b fun _ => imageBank bs) b 0 (imageDigest bs)) b 2) r stSuccess
            (leNat ((bytesBE 32 (imageDigest bs).toNat).take 8))
        else finishOrder (postBank (updBank s b fun x => { x with state := 3 }) b 3) r 0x8A07 0
      | _ => s)

/-- 10 R379: BANK_CLEAR. -/
def execBankClear (o : Order) (s : State) : Host.Outcome State Fault Refusal :=
  let b := orderBank o
  .next (runOrder (setForm 0x4A02 [0xA2] 1 [] modesSet true) o s
    { chapter := if bankInUse s b then some 0x8A01 else none } fun t =>
    (postBank (updBank (bankElementChange t b (bankDigest t b) 0) b fun _ => Bank.reset) b 0, .done stSuccess 0))

/-- 10 R379, R364: SHM_WRITE. -/
def execShmWrite (o : Order) (s : State) : Host.Outcome State Fault Refusal :=
  .next (runPtr (ptrForm 0x4A03 [0xA3] 0x1F modesSet true) o s {}
    (fun bs =>
      let h := leNat (slice bs 0 64)
      { malformed := !onlyFields h [(0, 21)], badArgument := decide (h % 64 ≠ 0) || decide (2 ^ 21 < h + (bs.length - 64)) })
    fun bs t =>
      let a := leNat (slice bs 0 64)
      (putShmWords o.inst (shmPort t o.inst a ((bs.length - 64) / 8)) (a / 8) ((List.range ((bs.length - 64) / 8)).map fun i =>
        BitVec.ofNat 64 (leNat (slice bs (64 + 8 * i) 8))), .done stSuccess 0))

/-! Isolation, restoring, microcode (10 R372 to R378) -/

/-- 10 R378: LATHE_ISOLATE. -/
def execLatheIsolate (o : Order) (s : State) : Host.Outcome State Fault Refusal :=
  .next (runOrder (setForm 0x4A04 [0xA1] 0xFF [] modesSet true) o s
    { badObject := decide (192 ≤ o.inst), chapter := if (getLathe s o.inst).iso ≠ 0 then some 0x8A04 else none } fun t =>
    (isolateLathe (latheDrop t o.inst 0xA5) o.inst 3, .done stSuccess 0))

/-- 10 R376: LATHE_RESTORE. -/
def execLatheRestore (o : Order) (s : State) : Host.Outcome State Fault Refusal :=
  .next (runOrder (setForm 0x4A05 [0xA1] 0xFF [] modesSet true) o s
    { badObject := decide (192 ≤ o.inst), chapter := if (getLathe s o.inst).iso = 0 then some 0x8A05 else none } fun t =>
    (updLathe t o.inst fun l => { l with testing := true }, .later))

/-- Both control-store banks loaded from boot-store item 1. -/
def loadBoth (l : Lathe) : Lathe :=
  { l with validA := true, validB := true, digestA := Config.microcodeDigest, digestB := Config.microcodeDigest, flips := [] }

/-- A lathe's registers and local memory after a self-test has marched them (10 R370): free values (log entry 1), every mark
gone. -/
def marched (ctr : Nat) (l : Lathe) : Lathe :=
  { l with regs := (List.range 32).map fun i => BitVec.ofNat 64 (Config.freeValue (ctr + i)),
           badRegs := [], badMem := [],
           mem := (List.range 8192).foldl (fun m w => SMap.put (fun _ => 0) m w (BitVec.ofNat 64 (Config.freeValue (ctr + 32 + w)))) [] }

/-- The lathes of a slice changed. -/
def updGroupLathes (s : State) (slice : Nat) (f : Lathe → Lathe) : State :=
  (List.range 6).foldl (fun t i => updLathe t (6 * slice + i) f) s

/-- A bank's reload begun in a group (10 R375): every lathe fetches from the twin. (Log entry 59.) -/
def beginReload (s : State) (slice : Nat) (b : Bool) (o : Option Order) : State :=
  updGroupLathes (updSlice s slice fun x => { x with reload := some (b, o) }) slice fun l => setCs { l with redirect := some b } b false

/-- 10 R375: MICROCODE_RELOAD. (Log entry 59.) -/
def execMicrocodeReload (o : Order) (s : State) : Host.Outcome State Fault Refusal :=
  .next (runOrder (setForm 0x4A06 [0xA4] 0x1F [] modesSet true) o s
    { chapter := if (getSlice s o.inst).reload.isSome then some 0x8A08 else none } fun t =>
    (beginReload t o.inst false (some o), .later))

/-- A bank verified on a lathe. (Log entry 59.) -/
def reloaded (b : Bool) (l : Lathe) : Lathe :=
  let l := setCs { l with redirect := none, flips := l.flips.filter fun e => e.1 / 8192 != b2n b } b true
  if b then { l with digestB := Config.microcodeDigest } else { l with digestA := Config.microcodeDigest }

/-- 10 R375: a bank's reload ends; `bad` names the lathes on which the write or the read-back failed. After bank A comes bank
B; after B, or a failure, the order completes. -/
def execLatheRedirectDone (slice : Nat) (bad : BitVec 6) (s : State) : Host.Outcome State Fault Refusal :=
  .next (
    match (getSlice s slice).reload with
    | none => s
    | some (b, o) =>
      let t := (List.range 6).foldl (fun u i =>
        if bit bad i then
          isolateLathe (latheDrop (updLathe u (6 * slice + i) fun l => { l with redirect := none }) (6 * slice + i) 0xA3)
            (6 * slice + i) 1
        else updLathe u (6 * slice + i) (reloaded b)) (updSlice s slice fun x => { x with reload := none })
      if bad = 0 ∧ b = false then beginReload t slice true o
      else
        match o with
        | some r => finishThis t 0x4A06 r (if bad = 0 then stSuccess else 0x8A07) 0
        | none => t)

/-- A machine check of cause 4 met in a self-test (10 R370, Table 10-13): counted, recorded and reported, and the lathe isolated.
(Log entry 58.) -/
def testCheck (s : State) (k : Nat) : State :=
  let t := recordError s (groupOfSlice (latheSlice k)) 0x06 k 2 4 (packN [(0, 3, 4)])
  let t := updLathe t k fun y => { y with mchecks := y.mchecks + 1, lastMcheckDt := s.tb.dt }
  let t := postMcheck t k 4 3 false 0
  if (getLathe t k).iso = 0 then isolateLathe t k 4 else t

/-- 10 R376: the test and reload of LATHE_RESTORE end: readmitted; or the self-test failed, by its signature, by a march or a
micro-operation (1), or by a parity error on a mandrel fetch (3); or the reload failed (2). (Log entry 58.) -/
def execLatheRestoreDone (k res : Nat) (s : State) : Host.Outcome State Fault Refusal :=
  .next (
    match findRunning s 0x4A05 fun o => o.inst == k with
    | none => s
    | some r =>
      if !(getLathe s k).testing then s else
      if res = 0 ∧ mandrelSignature = Config.fusedSignature then
        let t := updLathe s k fun l => loadBoth { marched s.freeCtr l with iso := 0, testing := false, recent := [] }
        let t := { t with freeCtr := t.freeCtr + 8224 }
        let t := t.updLat fun x => { x with isoRegs := x.isoRegs &&& ~~~(BitVec.ofNat 192 (2 ^ k)) }
        finishOrder (postIso t k 0 false) r stSuccess 0
      else
        let t := updLathe s k fun l => { l with testing := false }
        finishOrder (if res = 3 then testCheck t k else t) r (if res = 2 then 0x8A07 else 0x8A06) 0)

/-- 10 R370, R379: MANDREL_TEST. `res` is what the device meets beside the signature: 0 nothing, 1 a march or a micro-operation
fails, 2 a mandrel fetch has a parity error. (Log entry 58.) -/
def execMandrelTest (o : Order) (res : Nat) (s : State) : Host.Outcome State Fault Refusal :=
  .next (runOrder (setForm 0x4A07 [0xA1] 0xFF [] [.probe] false) o s { badObject := decide (192 ≤ o.inst) } fun t =>
    let d := packN [(0, 32, mandrelSignature.toNat), (32, 32, Config.fusedSignature.toNat)]
    (if res = 2 then testCheck t o.inst else t,
      .done (if res = 0 ∧ mandrelSignature = Config.fusedSignature then stSuccess else 0x8A06) d))

/-- The outcome of a recovery as CS_INJECT and MACHINE_CHECK report it: 1 twin, 2 boot store, 3 isolated. -/
def injectDone (s : State) (k outcome : Nat) : State :=
  match findRunning s 0x4A08 fun o => o.inst == k with
  | some r => finishOrder s r stSuccess outcome
  | none => s

/-- 10 R379: CS_INJECT. With no bit left inverted the fetch finds no error. (Log entry 59.) -/
def execCsInject (o : Order) (s : State) : Host.Outcome State Fault Refusal :=
  .next (runOrder (setForm 0x4A08 [0xA1] 0xFF [(0, 18)] [.probe] false) o s { badObject := decide (192 ≤ o.inst) } fun t =>
    let k := o.inst
    let key := 8192 * b2n (o.b 0) + o.f 1 13
    let t := updLathe t k fun l =>
      { l with flips := SMap.upd (fun _ => 0) l.flips key fun x => x ^^^ BitVec.ofNat 4 (o.f 14 4) }
    if SMap.get (fun _ => (0 : BitVec 4)) (getLathe t k).flips key = 0 then (t, .done stSuccess 0)
    else if (getLathe t k).iso ≠ 0 then (t, .done stSuccess 3)
    else
      let u := machineCheck t k 1 (o.b 0) (o.f 1 13)
      if (getLathe u k).iso ≠ 0 then (u, .done stSuccess 3) else (u, .later))

/-- 10 R373, R374: a recovery ends: well, or with a machine check of causes 4 to 6, which isolates the lathe. One that waits
for the twin's reload goes on only after it. -/
def execMcheckRecoveryDone (k cause : Nat) (s : State) : Host.Outcome State Fault Refusal :=
  .next (
    let l := getLathe s k
    match l.recovery with
    | none => s
    | some r =>
      if !r.boot && reloading s k (!r.bank) then s else
      let g := groupOfSlice (latheSlice k)
      if 4 ≤ cause ∧ cause ≤ 6 then
        let t := recordError s g 0x06 k 2 4 (packN [(0, 3, cause), (3, 1, b2n r.bank), (4, 13, r.word)])
        let t := updLathe t k fun y => { y with mchecks := y.mchecks + 1, lastMcheckDt := s.tb.dt }
        injectDone (isolateLathe (postMcheck t k cause 3 r.bank r.word) k 1) k 3
      else
        let outcome := if r.boot then 2 else 1
        let t := updLathe s k fun y =>
          if r.boot then { loadBoth y with recovery := none }
          else
            let y := setCs { y with recovery := none, flips := y.flips.filter fun e => e.1 / 8192 != b2n r.bank } r.bank true
            if r.bank then { y with digestB := y.digestA } else { y with digestA := y.digestB }
        let t := recoverError t g 0x06 k 0 1
        injectDone (postMcheck t k r.cause outcome r.bank r.word) k outcome)

end Sys2Proof.Machine
end

