-- ==== Sys2Proof/Machine/Ownership.lean ====
section
/-! DEFINITION. Ownership: the orders of subject 2 (02 Table 2-19), the CLAIM and RENEW writes, the lease and the cuts
(02 R77 to R91). -/

namespace Sys2Proof.Machine

/-- BAR0 can be reached by a master (02 R46): a host port with its link up, Memory Space Enable set and in D0, M0 at a
dynamic address. (Log entry 22.) -/
def barOk (s : State) (m : Master) : Bool :=
  match m with
  | .m0 => s.pin.vaux && s.host.m0Addr.isSome
  | _ => let p := s.host.ports.get m; p.linkUp && p.memEn && !p.d3hot

/-- The next state. -/
abbrev nextOf (s : State) : Host.Outcome State Fault Refusal := .next s

/-- 02 Table 2-19: NOP does nothing and completes with zero DATA. -/
def execNop (o : Order) (s : State) : Host.Outcome State Fault Refusal :=
  .next (runOrder (readForm 0x0201 [] 0 [] 0 modesAll) o s {} fun t => (t, .done stSuccess 0))

/-- The DATA of READ_OWNERSHIP (02 Table 2-19). -/
def ownershipData (s : State) : Nat :=
  packN [(0, 16, ownState s), (16, 16, remainMs s), (32, 32, s.own.gen.toNat)]

/-- 02 Table 2-19: READ_OWNERSHIP. -/
def execReadOwnership (o : Order) (s : State) : Host.Outcome State Fault Refusal :=
  .next (runOrder (readForm 0x0202 [0x02] 0 [] 0 modesAll) o s {} fun t => (t, .done stSuccess (ownershipData t)))

/-- 00 R15, 20 R609: a reserved or unlisted opcode has no effect and completes MALFORMED. -/
def execReservedOpcodeOrder (o : Order) (_opcode : BitVec 16) (s : State) : Host.Outcome State Fault Refusal :=
  .next (complete s o stMalformed 0)

/-- 02 R85: an offer to a named successor. -/
def execHandoverOffer (o : Order) (s : State) : Host.Outcome State Fault Refusal :=
  let to_ := mOf (o.f 0 2)
  let c : Checks :=
    { malformed := to_.isNone,
      badArgument := to_ == s.own.owner || (match to_ with | some m => !attached s m | none => true) || decide (o.f 16 16 < 1) ||
        decide (10000 < o.f 16 16),
      chapter := if s.own.offer.isSome then some stOfferPending else none }
  .next (runOrder (readForm 0x8201 [0x02] 0 [(0, 2), (16, 16)] 0 modesAll) o s c fun t =>
    let m := to_.getD .h0
    let u := t.updOwn fun w => { w with offer := some ⟨m, t.tb.now + o.f 16 16 * 1000000⟩ }
    (postTo u 0x0204 0 (packN [(0, 2, mIdx o.master), (16, 16, o.f 16 16), (32, 32, nfld (dtWord t.tb.dt).toNat 16 32)]) m,
      .done stSuccess t.own.gen.toNat))

/-- The offer has not lapsed: a pending one before its instant, or one already accepted (02 R86, R88). -/
def offerLive (s : State) : Bool :=
  match s.own.offer with
  | some f => s.own.drain.isSome || decide (s.tb.now < f.lapse)
  | none => false

/-- The status of the first condition of 02 R86 that fails, after MALFORMED. -/
def acceptFail (s : State) (o : Order) : Option Nat :=
  if !offerLive s then some stNoOffer
  else if (s.own.offer.map fun f => f.to_) != some o.master then some stNotOwner
  else if o.ownGen != s.own.gen then some stStale
  else if draining s then some stCut
  else if o.f 0 2 != ownerNum s.own.owner then some stBadArgument
  else none

/-- The lease stopped by a drain (02 R80, R87): what is left of it is kept. -/
def startDrain (s : State) (k : DrainKind) (old : Master) : State :=
  s.updOwn fun w => { w with drain := some ⟨k, old, s.tb.now⟩, frozen := w.leaseEnd - s.tb.now }

/-- 02 R86, R87: a valid accept begins the drain; it completes at the cut. -/
def execHandoverAccept (o : Order) (s : State) : Host.Outcome State Fault Refusal :=
  let f := readForm 0x8202 [0x02] 0 [(0, 2)] 0 modesAll
  .next (
    if !headForm f o then complete s o stMalformed 0
    else match acceptFail s o with
      | some st => complete s o st 0
      | none => reply f o (startDrain s (.accept o) (s.own.owner.getD .h0)) .later)

/-- OFFER_LAPSED to the owner and the named successor (02 Table 2-17). -/
def postLapsed (s : State) (cause : Nat) (owner : Option Master) (to_ : Master) : State :=
  let t := match owner with | some m => postTo s 0x0205 0 cause m | none => s
  postTo t 0x0205 0 cause to_

/-- A pending offer removed, with OFFER_LAPSED and its cause (02 R81, R88). -/
def cancelOffer (s : State) (cause : Nat) (owner : Option Master) : State :=
  match s.own.offer with
  | none => s
  | some f => postLapsed (s.updOwn fun w => { w with offer := none }) cause owner f.to_

/-- 02 R88: the owner withdraws its offer. -/
def execHandoverWithdraw (o : Order) (s : State) : Host.Outcome State Fault Refusal :=
  let c : Checks := { chapter := if s.own.offer.isNone then some stNoOffer else none }
  .next (runOrder (readForm 0x8203 [0x02] 0 [] 0 modesAll) o s c fun t =>
    (cancelOffer t 2 t.own.owner, .done stSuccess t.own.gen.toNat))

/-- 02 R89: RELEASE cancels an offer and drains to a cut to no owner. -/
def execRelease (o : Order) (s : State) : Host.Outcome State Fault Refusal :=
  .next (runOrder (readForm 0x8204 [0x02] 0 [] 0 modesAll) o s {} fun t =>
    (startDrain (cancelOffer t 3 t.own.owner) (.release o) o.master, .later))

/-- OWNER_CHANGED (02 Table 2-17). -/
def postOwnerChanged (s : State) (old new : Option Master) (cause : Nat) : State :=
  postAll s 0x0201 0 (packN [(0, 2, ownerNum old), (2, 2, ownerNum new), (4, 4, cause)])

/-- A lease of LEASE_MS started for an owner at the next generation (02 R77, R79, R87). -/
def grant (s : State) (m : Master) : State :=
  s.updOwn fun w =>
    { w with owner := some m, leaseValid := true, gen := w.gen + 1, leaseLen := w.leaseMs * 1000000,
             leaseEnd := s.tb.now + w.leaseMs * 1000000, lowPosted := false, drain := none, offer := none }

/-- No owner, at the next generation (02 R79, R81, R89). -/
def disown (s : State) : State :=
  s.updOwn fun w => { w with owner := none, leaseValid := false, gen := w.gen + 1, offer := none }

/-- SERVICE gives way to COAST when the owner is lost (03 Table 3-5). -/
def coastIfService (s : State) : State :=
  if s.mode.mode == .service then setMode s .coast else s

/-- The result of a CLAIM by `m` (02 R77): 1 granted, else the first condition that fails. -/
def claimResult (s : State) (m : Master) (v : Word) : Nat :=
  if !attached s m then 7 else if s.own.leaseValid then 2 else if draining s then 4 else if v != s.own.gen then 3 else 1

def setResult (s : State) (m : Master) (r : Nat) : State :=
  s.updOwn fun w => { w with result := w.result.upd m fun _ => r }

/-- A CLAIM write (02 R77). Granted, it also ends COAST when no warm start runs (03 Table 3-5). -/
def claimWrite (s : State) (m : Master) (v : Word) : State :=
  let r := claimResult s m v
  let t := setResult s m r
  if r ≠ 1 then t
  else
    let u := postOwnerChanged (grant t m) none (some m) 1
    if u.mode.mode == .coast && !u.mode.active && !u.mode.haltEntry then setMode u .service else u

/-- 02 R46, R77: a CLAIM write, by a master that reaches BAR0. -/
def execClaimWrite (m : Master) (v : Word) (s : State) : Host.Outcome State Fault Refusal :=
  .next (if barOk s m then claimWrite s m v else s)

/-- A RENEW write is granted (02 R80): the owner's, of the current generation, with no drain. -/
def renewOk (s : State) (m : Master) (v : Word) : Bool :=
  s.own.owner == some m && s.own.leaseValid && v == s.own.gen && !draining s

/-- A RENEW write (02 R80): it restarts the lease or is refused. -/
def renewWrite (s : State) (m : Master) (v : Word) : State :=
  if renewOk s m v then
    (setResult s m 5).updOwn fun w =>
      { w with leaseLen := w.leaseMs * 1000000, leaseEnd := s.tb.now + w.leaseMs * 1000000, lowPosted := false }
  else setResult s m 6

/-- 02 R46, R80: a RENEW write, by a master that reaches BAR0. -/
def execRenewWrite (m : Master) (v : Word) (s : State) : Host.Outcome State Fault Refusal :=
  .next (if barOk s m then renewWrite s m v else s)

/-- 02 R80: LEASE_LOW, once, when REMAIN_MS is below a quarter of the running lease's length. -/
def execLeaseLow (s : State) : Host.Outcome State Fault Refusal :=
  .next (
    if s.own.leaseValid && !draining s && !s.own.lowPosted && decide (remainMs s * 4 < s.own.leaseLen / 1000000) then
      match s.own.owner with
      | some m => postTo (s.updOwn fun w => { w with lowPosted := true }) 0x0202 0 (remainMs s) m
      | none => s
    else s)

/-- Mutating orders of a master, STARTs included, that were accepted and are not complete (02 R81, R87). One whose completion
is only held for a full completion ring (R57) counts as complete (log entry 92). -/
def drainWaits (s : State) (m : Master) : Bool := mutatingRuns s m || startRuns s m

/-- 02 R81: the lease has run out: OWN_GEN moves on first, then a pending offer is cancelled. (Log entry 5.) -/
def execLeaseExpired (s : State) : Host.Outcome State Fault Refusal :=
  .next (
    match s.own.owner with
    | some m =>
      if s.own.leaseValid && !draining s && decide (s.own.leaseEnd ≤ s.tb.now) then
        let t := disown s
        let t := match s.own.offer with
          | some f => postLapsed t 4 (some m) f.to_
          | none => t
        let t := postOwnerChanged (postAll t 0x0203 0 (mIdx m)) (some m) none 4
        let t := if drainWaits t m then startDrain t .expiry m else t
        retryStarts (coastIfService t)
      else s
    | none => s)

/-- 02 R81: the expired owner's last order has completed. -/
def execExpiryDrainEnd (s : State) : Host.Outcome State Fault Refusal :=
  .next (
    match s.own.drain with
    | some ⟨.expiry, old, _⟩ => if drainWaits s old then s else s.updOwn fun w => { w with drain := none }
    | _ => s)

/-- 02 R88: a pending offer lapses TIMEOUT_MS after its acceptance. -/
def execOfferLapsed (s : State) : Host.Outcome State Fault Refusal :=
  .next (
    match s.own.offer with
    | some f => if s.own.drain.isNone && decide (f.lapse ≤ s.tb.now) then cancelOffer s 1 s.own.owner else s
    | none => s)

/-- 02 R87: the cut of a handover. -/
def execHandoverCut (s : State) : Host.Outcome State Fault Refusal :=
  .next (
    match s.own.drain with
    | some ⟨.accept o, old, t0⟩ =>
      if drainWaits s old then s else
      let t := postOwnerChanged (grant s o.master) (some old) (some o.master) 2
      let d := packN [(0, 32, t.own.gen.toNat), (32, 32, min (s.tb.now - t0) (2 ^ 32 - 1))]
      match findRunning t 0x8202 (· == o) with
      | some r => finishOrder t r stSuccess d
      | none => t
    | _ => s)

/-- 02 R89: the cut of a release, to no owner. -/
def execReleaseCut (s : State) : Host.Outcome State Fault Refusal :=
  .next (
    match s.own.drain with
    | some ⟨.release o, old, _⟩ =>
      if drainWaits s old then s else
      let t := postOwnerChanged ((disown s).updOwn fun w => { w with drain := none }) (some old) none 3
      let t := coastIfService t
      match findRunning t 0x8204 (· == o) with
      | some r => finishOrder t r stSuccess t.own.gen.toNat
      | none => t
    | _ => s)

end Sys2Proof.Machine
end

