-- ==== Sys2Proof/Machine/Ecdsa.lean ====
section
/-! DEFINITION. ECDSA over curve P-384 with SHA-256 (06 R215; FIPS 186-4, SEC 2). -/

namespace Sys2Proof.Machine

/-- The prime field of P-384, the order of its base point, and the base point. -/
def ecP : Nat := 2 ^ 384 - 2 ^ 128 - 2 ^ 96 + 2 ^ 32 - 1
def ecN : Nat :=
  39402006196394479212279040100143613805079739270465446667946905279627659399113263569398956308152294913554433653942643
def ecGx : Nat := 0xaa87ca22be8b05378eb1c71ef320ad746e1d3b628ba79b9859f741e082542a385502f25dbf55296c3a545e3872760ab7
def ecGy : Nat := 0x3617de4a96262c6f5d9e98bf9292dc29f8f41dbd289a147ce9da3113b5f0b8c00a60b1ce1d7e819d7a431d7c90ea0e5f

/-- `a ^ e` modulo `m`, by the `k` low bits of `e`, the highest first. -/
def powMod (a m e : Nat) : Nat → Nat
  | 0 => 1
  | k + 1 => let h := powMod a m (e / 2) k; let q := h * h % m; if e % 2 = 1 then q * a % m else q

/-- The inverse modulo a prime of 384 bits. -/
def invMod (a m : Nat) : Nat := powMod a m (m - 2) 384

/-- A point in Jacobian coordinates; the point at infinity has z = 0. -/
structure EcPoint where
  x : Nat
  y : Nat
  z : Nat
deriving DecidableEq, Repr

/-- The difference in the field. -/
def ecSub (a b : Nat) : Nat := (a + (ecP - b % ecP)) % ecP

/-- A point doubled; the curve's a is -3. -/
def ecDouble (a : EcPoint) : EcPoint :=
  if a.z = 0 ∨ a.y = 0 then ⟨1, 1, 0⟩ else
  let yy := a.y * a.y % ecP
  let s := 4 * a.x * yy % ecP
  let zz := a.z * a.z % ecP
  let m := 3 * ecSub a.x zz * (a.x + zz) % ecP
  let x := ecSub (m * m) (2 * s)
  ⟨x, ecSub (m * ecSub s x) (8 * yy * yy), 2 * a.y * a.z % ecP⟩

/-- Two points added. -/
def ecAdd (a b : EcPoint) : EcPoint :=
  if a.z = 0 then b else if b.z = 0 then a else
  let za := a.z * a.z % ecP
  let zb := b.z * b.z % ecP
  let u := a.x * zb % ecP
  let v := b.x * za % ecP
  let s := a.y * zb * b.z % ecP
  let t := b.y * za * a.z % ecP
  if u = v then if s = t then ecDouble a else ⟨1, 1, 0⟩
  else
    let h := ecSub v u
    let r := ecSub t s
    let h2 := h * h % ecP
    let x := ecSub (r * r) (h2 * h + 2 * u * h2)
    ⟨x, ecSub (r * ecSub (u * h2) x) (s * h2 * h), h * a.z * b.z % ecP⟩

/-- The base point times the `k` low bits of a number. -/
def ecMul (e : Nat) : Nat → EcPoint
  | 0 => ⟨1, 1, 0⟩
  | k + 1 => let d := ecDouble (ecMul (e / 2) k); if e % 2 = 1 then ecAdd d ⟨ecGx, ecGy, 1⟩ else d

/-- The pair r, s for a hash, a key and a nonce. -/
def ecPair (hash key nonce : Nat) : Nat × Nat :=
  let q := ecMul nonce 384
  let zi := invMod q.z ecP
  let r := q.x * (zi * zi % ecP) % ecP % ecN
  (r, invMod nonce ecN * ((hash + r * key) % ecN) % ecN)

/-- The signature of a message: r then s, 48 bytes each, most significant byte first. `nonce k` is the per-message number drawn in
attempt `k`: one that makes r or s zero is drawn again. (Log entry 39.) -/
def ecSign (key : Nat) (msg : List Byte) (nonce : Nat → Nat) : Nat → BitVec 768
  | 0 => 0
  | n + 1 =>
    let p := ecPair (sha256 msg).toNat key (nonce n % (ecN - 1) + 1)
    if p.1 = 0 ∨ p.2 = 0 then ecSign key msg nonce n else BitVec.ofNat 768 (p.1 * 2 ^ 384 + p.2)

end Sys2Proof.Machine
end

