-- ==== Sys2Proof/Machine/Time.lean ====
section
/-! DEFINITION. Commands of chapter 06: orders of Table 6-12, sources, the outputs, the evidence log. -/

namespace Sys2Proof.Machine

/-- READ_TB's result (06 Table 6-14). -/
def tbRecord (s : State) (hop : Nat) : Nat :=
  packN [(0, 96, (dtWord s.tb.dt).toNat), (96, 2, servoNum s.tb.servo), (98, 3, s.tb.set.source),
    (101, 1, b2n (tbLocked s.tb)), (102, 8, hop), (128, 64, unsigned 64 s.tb.offset),
    (192, 32, unsigned 32 s.tb.freqPpt), (224, 32, s.log.epoch.toNat),
    (256, 64, match s.log.fill with | some f => f.number | none => s.log.nextBlock), (320, 64, s.log.lostTotal)]

/-- 06 R219: READ_TB. -/
def execReadTb (o : Order) (s : State) : Host.Outcome State Fault Refusal :=
  .next (runOrder (readForm 0x0601 [0x61] 0 [] 64 modesOn) o s {} fun t =>
    (t, .result (bytesLE 64 (tbRecord t (hops t))) 0))

/-- The mean of some samples' part (06 R207), rounded to the nearest with ties to even. -/
def meanOf (xs : List Int) : Int :=
  let n : Int := xs.length
  let sum := xs.foldl (· + ·) 0
  if n = 0 then 0 else
  let q := sum / n
  let r := sum % n
  if 2 * r < n then q else if n < 2 * r then q + 1 else if q % 2 = 0 then q else q + 1

/-- READ_LTT's result (06 Table 6-15). -/
def lttRecord (l : Ltt) : Nat :=
  packN [(0, 64, unsigned 64 (meanOf (l.samples.map Prod.fst))), (64, 64, unsigned 64 (meanOf (l.samples.map Prod.snd))),
    (128, 5, l.samples.length), (133, 1, b2n l.farLocked), (134, 8, l.farHops), (160, 96, (dtWord l.sampleDt).toNat)]

/-- 06 R219: READ_LTT; absent on the JG-204-S (00 R3). -/
def execReadLtt (o : Order) (s : State) : Host.Outcome State Fault Refusal :=
  .next (runOrder (readForm 0x0602 [0x62] 0xFFFFFF [] 64 modesOn) o s
    { unsupported := Config.codeS, badObject := !portExists s o.inst } fun t =>
    (t, .result (bytesLE 64 (lttRecord (getLtt t o.inst))) 0))

/-- A closed block that the log holds. (Log entry 40.) -/
def heldBlock (s : State) (n : Nat) : Option Block := s.log.blocks.find? fun b => b.number == n

/-- READ_LOG_BLOCK's bytes: the header, r and s, 32 zero bytes, the records (06 Table 6-12). -/
def blockBytes (b : Block) (sig : BitVec 768) : List Byte :=
  bytesBE 128 b.header.toNat ++ bytesBE 96 sig.toNat ++ List.replicate 32 0 ++ b.records.flatMap fun r => bytesBE 64 r.toNat

/-- The DRAM read of a log block failed, and failed again when retried: recorded; the block stays (17 R542). -/
def logReadError (s : State) (o : Order) : Option State :=
  match o.data with
  | .dramError g a => some (recordError s 17 0x0A (g % 8) 1 3 (packN [(0, 3, 1), (8, 56, a)]))
  | _ => none

/-- 06 R219: READ_LOG_BLOCK; a block closed but not yet signed is awaited (R214). -/
def execReadLogBlock (o : Order) (s : State) : Host.Outcome State Fault Refusal :=
  let c : Checks := { chapter := if (heldBlock s (o.f 0 64)).isNone then some 0x8603 else none }
  .next (runOrder (readForm 0x0603 [0x63] 0 [(0, 64)] 262400 modesOn) o s c fun t =>
    match heldBlock t (o.f 0 64) with
    | some ⟨k, h, some sg, rs, w⟩ =>
      match logReadError t o with
      | some u => (u, .done stDmaError 0)
      | none => (t, .result (blockBytes ⟨k, h, some sg, rs, w⟩ sg) t.log.epoch.toNat)
    | _ => (t, .later))

/-- 06 R216: READ_CERT. -/
def execReadCert (o : Order) (s : State) : Host.Outcome State Fault Refusal :=
  .next (runOrder (readForm 0x0604 [0x61] 0 [] 2048 modesOn) o s {} fun t =>
    (t, .result (padTo 2048 Config.certificate) (min Config.certificate.length 2048)))

/-- TB_SET's fields (06 Table 6-11). -/
def tbSetOf (o : Order) : TbSet :=
  { source := o.f 0 3, refFreq := o.b 3, sourcePort := o.f 4 9, holdLimit := o.f 13 12, lockPs := o.f 25 20,
    stepThreshold := o.f 45 20, ppsOutOffset := o.f 65 30, ppsOutEn := o.b 95, tsyncEn := o.b 96, tsyncFreq := o.b 97,
    domain := o.f 98 8 }

/-- TB_SET's ranges (06 Table 6-11). -/
def tbSetBad (b : TbSet) : Bool :=
  decide (3600 < b.holdLimit) || decide (b.lockPs < 100) || decide (1000000 < b.lockPs) ||
    decide (b.stepThreshold < 100) || decide (1000000 < b.stepThreshold) || decide (999999999 < b.ppsOutOffset) ||
    decide (b.domain < 24) || decide (43 < b.domain)

/-- The servo under new settings (06 Table 6-4): LOCKED to the internal source, FREERUN under one that is not qualified. -/
def applyTbSet (s : State) (b : TbSet) : State :=
  let t := updTime s fun x => { x with set := b, ppsOut := x.ppsOut && b.ppsOutEn }
  if b.source = 0 then setServo t .locked else if qualified t then t else setServo t .freerun

/-- 06 R197: TB_SET. -/
def execTbSet (o : Order) (s : State) : Host.Outcome State Fault Refusal :=
  let c : Checks :=
    { malformed := decide (3 < o.f 0 3), unsupported := o.f 0 3 == 3 && Config.codeS, badArgument := tbSetBad (tbSetOf o),
      chapter := if o.f 0 3 == 3 && !isNative s (o.f 4 9) then some 0x8602 else none }
  .next (runOrder (setForm 0x4601 [0x61] 0 [(0, 106)] modesOn false) o s c fun t =>
    (applyTbSet t (tbSetOf o), .done stSuccess 0))

/-- 06 R203, R204: PTP_PORT_SET. -/
def execPtpPortSet (o : Order) (s : State) : Host.Outcome State Fault Refusal :=
  let c : Checks :=
    { malformed := o.f 0 2 == 3, badObject := !portExists s o.inst, badArgument := decide (o.f 4 8 < 1) }
  .next (runOrder (setForm 0x4603 [0x62] 0xFFFFFF [(0, 44)] modesOn false) o s c fun t =>
    let q : PtpPort := ⟨o.f 0 2, o.b 2, o.b 3, o.f 4 8, signed 32 (o.f 12 32)⟩
    let t := t.updTb fun b =>
      { b with ptp := SMap.put (fun _ => PtpPort.reset) b.ptp o.inst q,
               ptpRun := if q.role = 1 then b.ptpRun else b.ptpRun.filter fun kv => kv.1 != o.inst,
               ptpOut := if q.role = 0 then b.ptpOut.filter (fun m => m.port != o.inst) else b.ptpOut }
    (requalify t, .done stSuccess 0))

/-- 06 R221: LTT_SET. -/
def execLttSet (o : Order) (s : State) : Host.Outcome State Fault Refusal :=
  let c : Checks :=
    { unsupported := Config.codeS, badObject := !portExists s o.inst,
      chapter := if !isNative s o.inst then some 0x8602 else none }
  .next (runOrder (setForm 0x4604 [0x62] 0xFFFFFF [(0, 33)] modesOn false) o s c fun t =>
    (updLtt t o.inst fun l => { l with enable := o.b 0, asym := signed 32 (o.f 1 32) }, .done stSuccess 0))

/-- 06 R218: LOG_SET. -/
def execLogSet (o : Order) (s : State) : Host.Outcome State Fault Refusal :=
  let c : Checks :=
    { badArgument := decide (o.f 0 15 < 16) || decide (16383 < o.f 0 15) || decide (o.f 16 16 < 10) || decide (60000 < o.f 16 16) }
  .next (runOrder (setForm 0x4605 [0x63] 0 [(0, 32)] modesOn false) o s c fun t =>
    (t.updLog fun l => { l with slots := o.f 0 15, retain := o.b 15, closeMs := o.f 16 16 }, .done stSuccess 0))

/-- The last block closed in the epoch, or all ones (06 R214). -/
def lastClosed (l : LogSt) : Nat := if l.nextBlock = 0 then 2 ^ 64 - 1 else l.nextBlock - 1

/-- 06 R214: LOG_CLOSE. (Log entry 39.) -/
def execLogClose (o : Order) (s : State) : Host.Outcome State Fault Refusal :=
  .next (runOrder (setForm 0x4606 [0x63] 0 [] modesOn false) o s {} fun t =>
    match t.log.fill with
    | some f => (closeBlock t 3, .done stSuccess f.number)
    | none => (t, .done stSuccess (lastClosed t.log)))

/-- 06 R218: LOG_RELEASE. (Log entry 40.) -/
def execLogRelease (o : Order) (s : State) : Host.Outcome State Fault Refusal :=
  let c : Checks := { chapter := if (heldBlock s (o.f 0 64)).isNone then some 0x8603 else none }
  .next (runOrder (setForm 0x4607 [0x63] 0 [(0, 64)] modesOn false) o s c fun t =>
    (logSpace (t.updLog fun l => { l with released := max l.released (o.f 0 64 + 1) }), .done stSuccess 0))

/-! Sources, servo, PTP -/

/-- 06 R199: REF_IN has stayed within its frequency for 1 s. -/
def execRefInQualified (s : State) : Host.Outcome State Fault Refusal :=
  .next (if s.mode.mode == .dormant then s else requalify (s.updTb fun b => { b with refOk := true }))

/-- 06 R199: REF_IN loses qualification. -/
def execRefInLost (s : State) : Host.Outcome State Fault Refusal :=
  .next (requalify (s.updTb fun b => { b with refOk := false }))

/-- 06 R200: HOLD_S reaches HOLD_LIMIT and TB_LOCKED falls. -/
def execHoldoverLimit (s : State) : Host.Outcome State Fault Refusal :=
  .next (
    if s.tb.servo = .holdover then
      updTime s fun b => { b with holdS := min ((b.now - b.holdAt) / 1000000000) 65535 }
    else s)

/-- The outputs run: in every mode but DORMANT and HALT (06 R202). -/
def outputsRun (s : State) : Bool := s.mode.mode != .dormant && s.mode.mode != .halt

/-- DT has passed PPS_OUT_OFFSET within the last nanosecond: a nanosecond adds at most 65,536 units and 100 ppm of them. -/
def ppsPasses (b : TbSt) : Bool := decide ((b.dt + dtSec - b.set.ppsOutOffset * dtNs) % dtSec < 65543)

/-- 06 R202: DT's nanoseconds pass PPS_OUT_OFFSET: PPS_OUT rises for 1 ms. -/
def execPpsOutEdge (s : State) : Host.Outcome State Fault Refusal :=
  .next (
    if s.tb.set.ppsOutEn && outputsRun s && ppsPasses s.tb then
      s.updTb fun b => { b with ppsOut := true, ppsOutEnd := b.now + 1000000 }
    else s)

/-- TSYNC_OUT (06 R202): a square clock at 10 MHz (100 ns) or 156.25 MHz (6.4 ns) whose rising edges fall at whole multiples of its
period in DT. -/
def tsyncOut (s : State) : Bool :=
  s.tb.set.tsyncEn && outputsRun s &&
    (if s.tb.set.tsyncFreq then decide (s.tb.dt * 5 % 2097152 < 1048576) else decide (s.tb.dt % 6553600 < 3276800))

/-- 06 R220: an owner's slew has removed its offset. -/
def execTbSlewComplete (s : State) : Host.Outcome State Fault Refusal :=
  .next (if s.tb.ownerSlew && s.tb.slew == 0 then s.updTb fun b => { b with ownerSlew := false } else s)

/-! The evidence log -/

/-- 06 R213: the log stores its next queued record, one each 40 ns; `m` is its transfer (14 Table 14-1). (Log entry 39.) -/
def execEvidenceRecordStore (m : DramUse) (s : State) : Host.Outcome State Fault Refusal :=
  .next (
    let rests := match s.log.storedAt with | some t => decide (s.tb.now < t + 40) | none => false
    match rests, s.log.queue with
    | false, r :: rs => logStore ((dramUse s 0 m).updLog fun l => { l with queue := rs, storedAt := some s.tb.now }) r
    | _, _ => s)

/-- 06 R214: CLOSE_MS after its first record the block filling closes. -/
def execBlockCloseTimer (s : State) : Host.Outcome State Fault Refusal :=
  .next (
    match s.log.fill with
    | some f => if f.closeAt ≤ s.tb.now then closeBlock s 2 else s
    | none => s)

/-- The READ_LOG_BLOCK orders that wait for a block complete once it is signed. -/
def finishReads : List Running → State → Nat → List Byte → State
  | [], s, _, _ => s
  | r :: rs, s, n, bs =>
    if r.opcode.toNat = 0x0603 ∧ r.order.f 0 64 = n then
      finishReads rs (match logReadError s r.order with
        | some u => finishOrder u r stDmaError 0
        | none => finishResult s r bs s.log.epoch.toNat) n bs
    else finishReads rs s n bs

/-- The oldest unsigned block for which `p` holds is signed with the device key; the numbers the signature draws are free (06 R214,
R215). -/
def signBlock (s : State) (p : Block → Bool) : State :=
  match s.log.blocks.find? fun b => b.sig.isNone && p b with
  | none => s
  | some b =>
    let sg := ecSign Config.deviceKey (bytesBE 128 b.header.toNat) (fun k => freeNat s / 2 ^ (384 * k)) 4
    let t := s.drawn.updLog fun l =>
      { l with blocks := l.blocks.map fun x => if x.number = b.number then { x with sig := some sg } else x }
    finishReads t.host.running t b.number (blockBytes b sg)

/-- 06 R214: a closed block is signed. -/
def execBlockSigned (s : State) : Host.Outcome State Fault Refusal := .next (signBlock s fun b => b.why != 5)

/-- 16 R531 step 6: the block closed at HALT entry is signed. -/
def execHaltBlockSigned (s : State) : Host.Outcome State Fault Refusal := .next (signBlock s fun b => b.why == 5)

end Sys2Proof.Machine
end

