-- ==== Sys2Proof/Machine/Modes.lean ====
section
/-! DEFINITION. The operating modes and the starts: the orders of subject 3, the start's steps, entry to HALT and the way
out of it, the way into and out of DORMANT (03 R92 to R120; 16 R531 to R533). -/

namespace Sys2Proof.Machine

/-! Orders -/

/-- 03 Table 3-9: READ_START. -/
def execReadStart (o : Order) (s : State) : Host.Outcome State Fault Refusal :=
  .next (runOrder (readForm 0x0301 [0x03] 0 [] 0 modesAll) o s {} fun t =>
    (t, .done stSuccess (modeStatus t + lastStartWord t.mode.last * 2 ^ 32)))

/-- 03 R109: a START waits until the owner's other mutating orders have completed; then it is accepted. One that is malformed,
or that its poster may not post, waits for nothing and has no effect (02 R82, R83). -/
def execStart (o : Order) (s : State) : Host.Outcome State Fault Refusal :=
  .next (
    match s.own.owner with
    | some m =>
      if mutatingRuns s m then
        match startFail o s with
        | some st => complete s o st 0
        | none => s.updMode fun d => { d with waiting := d.waiting ++ [o] }
      else acceptStart o s
    | none => acceptStart o s)

/-- 03 R97, R111: ENTER_SERVICE. -/
def execEnterService (o : Order) (s : State) : Host.Outcome State Fault Refusal :=
  let c : Checks := { chapter := if !s.mode.ready || !s.fp.committedValid then some 0x8304 else none }
  .next (runOrder (setForm 0x4302 [0x03] 0 [] [.prepare] false) o s c fun t => (setMode t .service, .done stSuccess 0))

/-- 03 R97, R111, R119: ENTER_PROBE; READY clears and held packets are discarded. -/
def execEnterProbe (o : Order) (s : State) : Host.Outcome State Fault Refusal :=
  let c : Checks := { chapter := if !s.mode.ready then some 0x8304 else none }
  .next (runOrder (setForm 0x4303 [0x03] 0 [] modesSet false) o s c fun t =>
    (discardPackets ((setMode t .probe).updMode fun m => { m with ready := false }), .done stSuccess 0))

/-! The start's steps (03 R102 to R106) -/

/-- The START orders of an ended start complete: the one it answers, and those that joined it. -/
def endStart (s : State) (own joined : Nat) : State :=
  let d := startData s
  let t := completeAll (completeAll s s.mode.req.toList own d) s.mode.joined joined d
  t.updMode fun m => { m with req := none, joined := [], active := false, step := 0 }

/-- A pending cold start begins (03 R112). (Log entry 26.) -/
def beginPending (s : State) : State :=
  let m := s.mode
  (beginStart (s.updMode fun d => { d with pendCold := none, pendJoined := [] }) false 3 m.pendCold).updMode fun d =>
    { d with joined := m.pendJoined }

/-- The running start fails in its step (03 R113, R114). -/
def failStart (s : State) (detail : Nat) : State :=
  let fails := min 3 (s.mode.warmFails + 1)
  let t := s.updMode fun m =>
    { m with ready := false, last := { m.last with result := 2, failedStep := m.step, detail := detail % 65536 } }
  let t := if s.mode.warm then
      t.updMode fun m => { m with warmFailPrepare := true, warmFails := fails, forceCold := decide (3 ≤ fails) }
    else t
  endStart (setMode t .prepare) 0x8301 0x8301

/-- Step 9 (03 Table 3-7, R115, R117). (Log entry 27.) -/
def finishStart (s : State) : State :=
  let t := s.updMode fun m =>
    { m with ready := true, warmFails := 0, forceCold := false, warmFailPrepare := false,
             last := { m.last with result := 1, failedStep := 0, detail := 0 } }
  let t := if s.mode.warm && s.own.owner.isSome then setMode t .service else t
  endStart t (if s.mode.last.cause = 5 then 0x0302 else stSuccess) 0x0301

/-- A lathe group passes its validity test of step 7 (03 Table 3-8). -/
def groupValid (s : State) (slice : Nat) : Bool :=
  ((List.range 6).all fun i =>
    let l := getLathe s (6 * slice + i)
    l.digestA == Config.microcodeDigest && l.digestB == Config.microcodeDigest) &&
  (List.range 16).all fun i =>
    let r := getErr s (groupOfSlice slice) i
    !(r.opened && r.cls == 0x06 && latheSlice r.unit == slice)

/-- A lane passes its validity test of step 8 (03 Table 3-8); a change of its rate ends its hold of lock (04 R129).
(Log entry 32.) -/
def laneValid (s : State) (p : Nat) : Bool :=
  let l := getLane s p
  let d := (getEng s (p / 17)).temp - l.calTemp
  lockHeld l && decide (d.natAbs ≤ s.mode.tempWindow * 16)

/-- The recalibration, or the full calibration, that a warm start begins on a lane that fails its test (03 R103, R105). -/
def recalLane (s : State) (p : Nat) : State :=
  if laneValid s p || (getLane s p).recal then s else
  beginRecal s p false

/-- How the calibration of lane `p` ends (04 R129): as the operand says; a lane of a group held off finds no light at C1 (R150);
for a lane it does not list, the transmit set measured is free. -/
def calOf (s : State) (cals : List (Nat × LaneCal)) (p : Nat) : LaneCal :=
  let c := match cals.find? fun c => c.1 == p with
    | some c => c.2
    | none => ⟨0, false, BitVec.ofNat 32 (freeNat s / 2 ^ (32 * p)), 0, 0, 0, (getEng s (p / 17)).temp⟩
  if bit s.opt.forceOff (p / 17 / 16) then { c with cause := 1 } else c

/-- A lane after a cold start's calibration: failed, or its sets and its record written (04 R129). -/
def coldLane (s : State) (cals : List (Nat × LaneCal)) (p : Nat) : Lane :=
  let c := calOf s cals p
  let l := getLane s p
  if c.cause ≠ 0 then { l with state := 5, role := 6, failCause := c.cause }
  else
    let seed := Config.laneSeed l.rate
    writeCal s.tb.dt { c with ctle := BitVec.ofNat 8 (fld seed 0 8), dfe := BitVec.ofNat 8 (fld seed 8 8),
                              ffe := BitVec.ofNat 128 (fld seed 16 128) } (writeSets c l)

/-- Step 8's work: a cold start's calibration of every lane, as it ended; a warm start's begin (03 R103, R106; 04 R129). -/
def laneWork (s : State) (cals : List (Nat × LaneCal)) : State :=
  if s.mode.warm then (List.range 544).foldl recalLane s
  else
    let t := s.drawn.updOpt fun o => { o with lanes := (List.range 544).map fun p => (p, coldLane s cals p) }
    ((List.range 544).filter fun p => (calOf s cals p).cause != 0).foldl (fun t p =>
      postAll t 0x0401 0 (packN [(0, 10, p), (10, 6, (calOf s cals p).cause)])) t

/-- What a step does as it begins: a cold start's step 4 restores TB_SET, its step 5 enables the sources; a warm start's
step 7 reloads the lathe groups that fail their test (03 Table 3-7, Table 3-8; 04 R148). (Log entry 28.) -/
def stepBegins (s : State) (n : Nat) : State :=
  let t := s.updMode fun m => { m with step := n }
  if n = 4 ∧ s.mode.warm = false then applyTbSet t TbSet.reset
  else if n = 5 then refreshEls (t.updOpt fun o => { o with step5 := true })
  else if n = 7 ∧ s.mode.warm = true then
    (List.range 32).foldl (fun u k =>
      if groupValid u k || (getSlice u k).reload.isSome then u else beginReload u k false none) t
  else t

/-- A lathe that failed mandrel self-test isolated, with its record (10 R371; 17 Table 17-3). -/
def mandrelFailed (s : State) (k : Nat) (sig : BitVec 32) : State :=
  let t := recordError s (groupOfSlice (latheSlice k)) 0x07 k 2 4 sig.toNat
  isolateLathe (t.updLat fun x => { x with testFail := x.testFail ||| BitVec.ofNat 192 (2 ^ k) }) k 4

/-- What a cold start's step has done when it ends: step 5 leaves the memories zero and the program banks empty, isolates the
lathes that fail it and readmits the collective units that pass it; step 6 clears the tables; step 7 loads the lathes and readmits those
that passed step 5 (03 Table 3-7; 08 R317, R318; 10 Table 10-1, R371, R376; 17 R545). (Log entry 28.) -/
def stepEnds (s : State) (n : Nat) (test : SelfTest) : State :=
  match n with
  | 5 =>
    let t := s.updLat fun x =>
      { x with bankA := Bank.reset, bankB := Bank.reset, shm := [], badShm := [], testFail := 0,
               lathes := x.lathes.map fun kv => (kv.1, { Lathe.reset with iso := kv.2.iso }) }
    let t := t.updErr fun e => { e with cuIsolated := e.cuIsolated &&& test.units }
    test.lathes.foldl (fun u f => mandrelFailed u f.1 f.2) t
  | 6 => (s.updTbl fun x => { TblSt.reset with dumps := x.dumps }).updFp fun p => { p with active := versionElement 0 + bankElement 0 }
  | 7 =>
    let t := (List.range 192).foldl (fun u k =>
      updLathe u k fun l => loadBoth { l with iso := if bit s.lat.testFail k then l.iso else 0 }) s
    t.updLat fun x => { x with isoRegs := x.isoRegs &&& x.testFail }
  | _ => s

/-- The step that follows in the sequence (03 R102); after step 7, step 8 if it has not ended yet. (Log entry 27.) -/
def nextStep (m : ModeSt) : Nat :=
  if m.step = 4 ∧ m.warm then 7
  else if m.step = 7 ∧ m.laneDone then 9
  else m.step + 1

/-- The steps whose failure fails a start (03 R106). (Log entry 27.) -/
def canFail (n : Nat) : Bool := n == 2 || n == 3 || n == 5 || n == 7

/-- The step of the sequence that runs may end: step 7 of a warm start once no group is being reloaded. -/
def stepReady (s : State) : Bool :=
  !(s.mode.step == 7 && s.mode.warm) || (List.range 32).all fun k => (getSlice s k).reload.isNone

/-- The running step of the sequence ends (03 R98, R102, R112): the start yields to a pending cold start, which outranks the
step's failure, or it fails, ends, or goes on. (Log entry 26.) -/
def sequenceStep (s : State) (fail : Option Nat) (test : SelfTest) : State :=
  if s.mode.pendCold.isSome then
    let t := s.updMode fun m => { m with last := { m.last with result := 3, failedStep := 0, detail := 1 } }
    beginPending (endStart t 0x8302 0x8302)
  else
    match (if canFail s.mode.step then fail else none) with
    | some d => failStart s d
    | none =>
      let t := if s.mode.warm then s else stepEnds s s.mode.step test
      if s.mode.step = 9 then finishStart t else stepBegins t (nextStep t.mode)

/-- 03 R102: a start step is done. `lanes` says that it is step 8, which runs beside steps 5 to 7, with the calibrations of a
cold start; otherwise it is the running step of the sequence, with the failing unit if it failed (Table 3-4 DETAIL); `test` is what a cold
start's step 5 found.
(Log entries 5 and 27.) -/
def execStartStepDone (lanes : Bool) (fail : Option Nat) (cals : List (Nat × LaneCal)) (test : SelfTest) (s : State) :
    Host.Outcome State Fault Refusal :=
  .next (
    if !s.mode.active || s.mode.haltEntry then s
    else if lanes then
      if s.mode.laneDone || s.mode.step < 5 || 8 < s.mode.step then s
      else
        let t := (laneWork s cals).updMode fun m => { m with laneDone := true }
        if s.mode.step = 8 then sequenceStep t none test else t
    else if s.mode.step = 8 || !stepReady s then s
    else sequenceStep s fail test)

/-! HALT (16 R531 to R533) -/

/-- The lanes with VLANE and VOPT off (16 R531, R532): no signal, no lock. (Log entry 32.) -/
def darkLanes (s : State) : State :=
  s.updOpt fun o =>
    { o with step5 := false,
             lanes := o.lanes.map fun kv =>
               (kv.1, { unlockLane s.tb.now kv.2 with signal := false, power := none }) }

/-- 16 R531 step 5: HALT entry ends: packets discarded, the open block closed, MODE HALT, HALT_NOTICE and vector 0; table contents
are no longer preserved (03 R120). -/
def execHaltEntryDone (s : State) : Host.Outcome State Fault Refusal :=
  .next (
    if !s.mode.haltEntry then s else
    let t := darkLanes (discardPackets (endOrders s dataPlaneOrder))
    let t := closeBlock ((t.updTb fun b => { b with ppsOut := false }).updTbl fun x => { x with gone := true }) 5
    let t := setMode (t.updMode fun m => { m with haltEntry := false, ready := false }) .halt
    let t := postAll t 0x1001 0 (packN [(0, 1, b2n t.riv.flowLatch), (1, 1, b2n t.riv.trayLatch),
      (2, 1, b2n t.riv.critLatch), (3, 1, b2n t.err.fatalLatch)])
    retryStarts t)

/-- 16 R531 step 7: the DRAM stacks enter self-refresh. -/
def execDramSelfRefresh (s : State) : Host.Outcome State Fault Refusal :=
  .next (if s.mode.mode == .halt then s.updPwr fun p => { p with dramSelfRefresh := true } else s)

/-- 16 R533: the rails and islands are back; the start accepted in HALT begins its step 1. (Log entry 26.) -/
def execHaltRailsRestored (s : State) : Host.Outcome State Fault Refusal :=
  .next (
    match s.mode.mode, s.mode.restore with
    | .halt, some o =>
      let joined := s.mode.joined
      let t := s.updPwr fun p => { p with dramSelfRefresh := false }
      (beginStart t false (if o.b 0 then 5 else 3) (some o)).updMode fun m => { m with joined := joined }
    | _, _ => s)

/-! DORMANT (03 R93, R94, R97 to R100) -/

/-- A host port whose power is gone: no link, and the configuration registers a link reset clears as after one (02 R44, R47). -/
def coldPort (p : Port) : Port :=
  { p with linkUp := false, memEn := false, busMaster := false, rate := 0, width := 0, msixEn := false,
           funcMask := false, d3hot := false }

/-- What the loss of the data plane's and the timebase's rails leaves: the state that VAUX holds (03 R93, R96; 06 R217, R218;
09 R342; 10 R377; 17 R538, R552; 18 R572), elapsed time, and the counts of the model's own. -/
def railsOff (s : State) : State :=
  { s with
    mode := { s.mode with ready := false, haltEntry := false, ramp := false },
    host := { s.host with running := [], awaiting := [],
                          ports := { s.host.ports with
                            h0 := coldPort s.host.ports.h0,
                            h1 := coldPort s.host.ports.h1 },
                          rings := s.host.rings.filter (fun kv => kv.1 / 256 == 2),
                          vectors := s.host.vectors.filter (fun kv => kv.1 / 64 == 2),
                          held := s.host.held.filter fun h => h.order.master == .m0 },
    opt := { OptSt.reset with forceOff := s.opt.forceOff,
                              engines := s.opt.engines.map fun kv => (kv.1, coldEngine kv.2) },
    pcs := PcsSt.reset,
    tb := { TbSt.reset with now := s.tb.now },
    log := { LogSt.reset with slots := s.log.slots, retain := s.log.retain, closeMs := s.log.closeMs,
                              slotsInForce := s.log.slots, epoch := s.log.epoch },
    pwr := { PwrSt.reset with vinCv := s.pwr.vinCv },
    err := s.err, pin := { s.pin with elsEn := 0 }, ver := VerSt.reset, tbl := TblSt.reset,
    fp := FpSt.reset,
    lat := { LatSt.reset with isoRegs := s.lat.isoRegs,
                              lathes := s.lat.lathes.map fun kv => (kv.1, { Lathe.reset with iso := kv.2.iso }) },
    fwd := { FwdSt.reset with nextId := s.fwd.nextId },
    buf := { BufSt.reset with capMib := s.buf.capMib, capForce := (regionMib s.log.slots s.buf.capMib).1,
                              ovfForce := (regionMib s.log.slots s.buf.capMib).2 },
    egr := EgrSt.reset, grp := GrpSt.reset, coll := CollSt.reset, arb := ArbSt.reset, tel := TelSt.reset }

/-- HOT_WARNING (16 Table 16-15). -/
def postHot (s : State) : State :=
  postAll s 0x1003 0 (packN [(0, 1, b2n s.pwr.hotwarn), (8, 16, unsigned 16 s.pwr.tjMax), (24, 6, s.pwr.tjSensor)])

/-- The device to DORMANT (03 R97, R98): a running start is aborted, orders in progress end, HOTWARN_N is released, the rails
go off, and a START that was pending acceptance meets DORMANT (Table 3-1). A drain under way goes on to its cut.
(Log entry 30.) -/
def toDormant (s : State) : State :=
  let t := s.updMode fun m => { m with ramp := false, condSince := none }
  if s.mode.mode == .dormant then t else
  let t := abortStart t 4
  let cut := t.host.running.filter survivesStart
  let t := endOrders t fun r => !survivesStart r
  let hot := t.pwr.hotwarn
  let u := (railsOff t).updHost fun h => { h with running := cut.filter fun r => r.opcode.toNat != 0x0603 }
  let u := noteTray s (u.updMode fun m => { m with mode := .dormant })
  let u := retryStarts (u.updRiv fun r => { r with critCleanSince := none })
  if hot then postHot u else u

/-- The conditions of 03 R99 other than the two Rivel inputs of R100. (Log entry 30.) -/
def otherConditions (s : State) : Bool :=
  s.pin.vaux && s.mode.mode == .dormant && decide (4000 ≤ s.pwr.vinCv) && decide (s.pwr.vinCv ≤ 6000) &&
    s.riv.pwrgoodSeen && !s.riv.pwrgood.fault && !s.mode.holdDormant

/-- A Rivel fault latched, with the RIVEL_LATCH event when it was not (16 R524, R527, Table 16-15): 1 FLOWFAIL_N,
2 TRAYSTOP_N, 3 PWRGOOD, 4 critical trip. -/
def setLatch (s : State) (src : Nat) (chatter : Bool) : State :=
  let on := match src with
    | 1 => s.riv.flowLatch
    | 2 => s.riv.trayLatch
    | 3 => s.riv.pwrLostSeen
    | _ => s.riv.critLatch
  if on then s else
  let t := s.updRiv fun r =>
    match src with
    | 1 => { r with flowLatch := true }
    | 2 => { r with trayLatch := true }
    | 3 => { r with pwrLostSeen := true }
    | _ => { r with critLatch := true }
  postAll (noteTray s t) 0x1002 0 (packN [(0, 3, src), (3, 1, 1), (4, 1, b2n chatter)])

/-- After a change from `s` to `t` that R99's conditions depend on: the 10 ms are counted from the instant they all hold, the
ramp is cancelled by what R99 names, and a faulted input holds the device in DORMANT when the others are first met (R100).
(Log entry 30.) -/
def conditions (s t : State) : State :=
  let faulted := t.riv.flow.fault || t.riv.tray.fault
  let latched := t.riv.flowLatch || t.riv.trayLatch
  let first := otherConditions t && !otherConditions s
  let cancel := t.mode.ramp && (faulted || t.riv.pwrgood.fault || t.mode.holdDormant || decide (t.pwr.vinCv < 3800) ||
    decide (6200 < t.pwr.vinCv))
  let hold := (first || (cancel && t.mode.mode == .dormant)) && faulted
  let u := if hold && t.riv.flow.fault then setLatch t 1 t.riv.flow.chatter else t
  let u := if hold && t.riv.tray.fault then setLatch u 2 t.riv.tray.chatter else u
  let all := otherConditions t && !faulted && !latched
  u.updMode fun m =>
    { m with ramp := m.ramp && !cancel, condSince := if all && !cancel then some (m.condSince.getD t.tb.now) else none,
             dormantHeld := hold || (m.dormantHeld && (u.riv.flowLatch || u.riv.trayLatch)) }

/-- 03 R99: the conditions have held for 10 ms: conversion starts and the rails ramp. (Log entry 30.) -/
def execPowerConditionsHeld (s : State) : Host.Outcome State Fault Refusal :=
  .next (
    match s.mode.condSince with
    | some t =>
      if s.mode.mode == .dormant && !s.mode.ramp && decide (t + 10000000 ≤ s.tb.now) then
        s.updMode fun m => { m with ramp := true }
      else s
    | none => s)

/-- 03 R94, R97: the rails are in regulation: device time starts from zero in a new epoch (06 R217), and the cold start with
CAUSE 1 begins. -/
def execRailsInRegulation (s : State) : Host.Outcome State Fault Refusal :=
  .next (
    if !s.mode.ramp then s else
    let t := s.updMode fun m => { m with ramp := false, condSince := none, dormantHeld := false }
    let t := t.updLog fun l => { l with epoch := l.epoch + 1 }
    let t := t.updRiv fun r => { r with heartbeatAt := s.tb.now }
    beginStart t false 1 none)

end Sys2Proof.Machine
end

