-- ==== Sys2Proof/Machine/Power.lean ====
section
/-! DEFINITION. The power controller: the orders of subject 16, phases and operating points, the cap's sharing, the slope
limit and pre-ramp, rail limits, junction temperatures (16 R500 to R519, R534 to R536); fatal errors (17 R546, R549). -/

namespace Sys2Proof.Machine

/-! Fatal errors -/

/-- The group of an island by its number in the order of 01 Table 1-2 (17 Table 17-1). -/
def islandGroup (n : Nat) : Nat :=
  if n < 32 then n / 2 else if n < 64 then (n - 32) / 2 else if n < 80 then n - 64 else if n < 81 then 16
  else if n < 89 then 17 else if n < 121 then (n - 89) / 2 else if n < 122 then 18 else 19

/-- The group of a fatal class and unit (17 Table 17-3). (Log entry 88.) -/
def fatalGroup (cls unit : Nat) : Nat :=
  if cls = 0x0B then (if unit < 0x100 then unit / 2 else unit - 0x100) else if cls = 0x0E then islandGroup unit else 19

/-- The fatal record (17 R549): filled by the first fatal error since the latch was cleared, which sets the latch; a later one
counts in it. (Log entry 88.) -/
def fatalRecord (s : State) (cls unit detail : Nat) : State :=
  let g := fatalGroup cls unit
  if s.err.fatalLatch then
    let r := s.err.fatal
    let r' := { r with count := satAdd 16 r.count 1, lastDt := s.tb.dt, countMs := nowMs s }
    let t := s.updErr fun e => { e with fatal := r' }
    if r.countMs = nowMs s then t else postError t (fatalGroup r.cls r.unit) 15 true r'
  else
    let r : ErrRec :=
      { seq := s.err.seq + 1, cls := cls, level := 3, opened := true, valid := true, outcome := 5, unit := unit, count := 1,
        firstDt := s.tb.dt, lastDt := s.tb.dt, detail := detail, ownGen := s.own.gen, mode := modeNum s.mode.mode,
        countMs := nowMs s }
    postError (s.updErr fun e => { e with seq := e.seq + 1, fatal := r, fatalLatch := true, fatalRead := false }) g 15 true r

/-- A fatal error (17 R546, R549): recorded, and leading to HALT. (Log entry 88.) -/
def fatalError (s : State) (cls unit detail : Nat) : State :=
  enterHalt (noteTray s (recordError (fatalRecord s cls unit detail) (fatalGroup cls unit) cls unit 3 5 detail))

/-! Throttling -/

def getPhase (p : PwrSt) (n : Nat) : Phase := SMap.get (fun _ => Phase.reset) p.phases n

/-- The phase in force. (Log entry 85.) -/
def phaseNow (p : PwrSt) : Phase := getPhase p p.phase

/-- What THROTTLE reports. (Log entry 84.) -/
def throttleData (p : PwrSt) : Nat := packN [(0, 1, b2n (throttleOf p)), (1, 4, gating p), (5, 1, b2n p.capUnreach)]

/-- The controller's state changed by `f`: THROTTLE for the millisecond when what it reports has changed (16 R536), and
MODE_STATUS as the tray sees it. (Log entry 84.) -/
def setPower (s : State) (f : PwrSt → PwrSt) : State :=
  let t := s.updPwr f
  if throttleData s.pwr = throttleData t.pwr then t else winEvent t 0x1005 0 (throttleData t.pwr) 0 0 1

/-- Outside DORMANT. -/
def awake (s : State) : Bool := s.mode.mode != .dormant

/-! Phases and operating points (16 R511 to R515) -/

/-- PHASE_SET's payload of a phase (16 Table 16-12). -/
def phaseWord (p : Phase) : Nat := packN [(0, 3, p.opp), (3, 11, p.capW), (14, 7, p.slope), (21, 3, p.order)]

/-- PHASE_CHANGED (16 Table 16-15) with its T_p in DT units. (Log entry 85.) -/
def postPhase (s : State) (old tp : Nat) (scheduled : Bool) : State :=
  postAll s 0x1004 0 (packN [(0, 3, s.pwr.phase), (3, 3, old), (6, 1, b2n scheduled),
    (32, 32, nfld (dtWord tp).toNat 16 32)])

/-- The effective cap: CAP_W, the thermal reduction, 33.75 A at the sense voltage (16 R501, R505). (Log entry 84.) -/
def capOf (p : PwrSt) : Nat := min (min (phaseNow p).capW p.thermW) (3375 * p.vinCv / 10000)

/-- The effective cap taken again. -/
def recap (p : PwrSt) : PwrSt := { p with capEff := capOf p }

/-- The cap, slope and order of phase `n` in force, the operating point moving to its own; a thermal reduction keeps its watts
(16 R514, R518). (Log entry 85.) -/
def enforcePhase (s : State) (n : Nat) (ph : Phase) : State :=
  setPower s fun p =>
    let old := phaseNow p
    recap
      { p with phase := n, phases := SMap.put (fun _ => Phase.reset) p.phases n ph,
               thermW := ph.capW - (old.capW - p.thermW), oppTarget := ph.opp, oppMoving := ph.opp != p.opp,
               gateThermal := decide (p.thermW < old.capW) }

/-- 16 Table 16-12: READ_PHASE. -/
def execReadPhase (o : Order) (s : State) : Host.Outcome State Fault Refusal :=
  .next (runOrder (readForm 0x1002 [0x17] 7 [] 0 modesAll) o s {} fun t =>
    let pend := match t.pwr.pend with | some x => x.phase == o.inst | none => false
    (t, .done stSuccess (if awake t then
      packN [(0, 24, phaseWord (getPhase t.pwr o.inst)), (24, 1, b2n (t.pwr.phase == o.inst)), (25, 1, b2n pend)] else 0)))

/-- 16 R514: PHASE_SET; on the phase in force it applies at its completion. (Log entry 85.) -/
def execPhaseSet (o : Order) (s : State) : Host.Outcome State Fault Refusal :=
  let ph : Phase := { opp := o.f 0 3, capW := o.f 3 11, slope := o.f 14 7, order := o.f 21 3 }
  let c : Checks :=
    { malformed := decide (5 < ph.order),
      badArgument := decide (5 < ph.opp) || decide (ph.capW < 600) || decide (1350 < ph.capW) || decide (ph.slope < 5) ||
        decide (80 < ph.slope) }
  .next (runOrder (setForm 0x5001 [0x17] 7 [(0, 24)] modesSet true) o s c fun t =>
    let n := o.inst
    (if t.pwr.phase = n then postPhase (enforcePhase t n ph) n t.tb.dt false
     else t.updPwr fun p => { p with phases := SMap.put (fun _ => Phase.reset) p.phases n ph }, .done stSuccess 0))

/-- 16 R514: PHASE_SELECT makes a phase pending for T_p. (Log entry 85.) -/
def execPhaseSelect (o : Order) (s : State) : Host.Outcome State Fault Refusal :=
  let at_ := o.f 4 96
  let c : Checks := { badArgument := o.b 3 && (!dtOk at_ || decide (s.tb.dt + 3600 * dtSec < dtCount at_)) }
  .next (runOrder (setForm 0x5002 [0x16] 0 [(0, 100)] modesSet true) o s c fun t =>
    let early := t.tb.dt + 2 * dtUs
    let tp := if o.b 3 then max (dtCount at_) early else early
    let w := (dtWord tp).toNat
    (t.updPwr fun p => { p with pend := some ⟨o.f 0 3, tp⟩ },
      .done (if o.b 3 && tp != dtCount at_ then 0x1001 else stSuccess) (packN [(0, 32, nfld w 16 32), (32, 32, nfld w 48 32)])))

/-- 16 Table 16-12: PHASE_CANCEL. -/
def execPhaseCancel (o : Order) (s : State) : Host.Outcome State Fault Refusal :=
  let c : Checks := { chapter := if s.pwr.pend.isNone then some 0x9001 else none }
  .next (runOrder (setForm 0x5003 [0x16] 0 [] modesSet true) o s c fun t =>
    (t.updPwr fun p => { p with pend := none }, .done stSuccess 0))

/-- 16 Table 16-12: POWER_SET. -/
def execPowerSet (o : Order) (s : State) : Host.Outcome State Fault Refusal :=
  let c : Checks := { badArgument := decide (o.f 1 4 < 1) || decide (10 < o.f 1 4) }
  .next (runOrder (setForm 0x5004 [0x16] 0 [(0, 6)] modesSet true) o s c fun t =>
    (t.updPwr fun p => { p with prerampEn := o.b 0, thermStepPct := o.f 1 4, ibiEn := o.b 5 }, .done stSuccess 0))

/-- A pending phase whose T_p has come takes effect and the change of operating point begins (16 R514). -/
def phaseTakes (s : State) : State :=
  match s.pwr.pend with
  | some x =>
    if awake s && decide (x.tp ≤ s.tb.dt) then
      let t := s.updPwr fun p => { p with pend := none }
      postPhase (enforcePhase t x.phase (getPhase t.pwr x.phase)) s.pwr.phase x.tp true
    else s
  | none => s

/-- 16 R514: T_p of the pending phase. -/
def execPhaseTakesEffect (s : State) : Host.Outcome State Fault Refusal := .next (phaseTakes s)

/-- 16 R512: the change of operating point is complete. -/
def execOppChangeDone (s : State) : Host.Outcome State Fault Refusal :=
  .next (if s.pwr.oppMoving then s.updPwr fun p => { p with opp := p.oppTarget, oppMoving := false } else s)

/-! Readings (16 R534, Table 16-13) -/

/-- READ_POWER's result. -/
def powerWord (p : PwrSt) : Nat :=
  packN ([(0, 11, p.inputW), (11, 11, p.loadW), (22, 11, p.capEff), (33, 3, p.phase),
      (36, 3, if p.oppMoving then p.oppTarget else p.opp), (39, 3, (phaseNow p).order), (42, 4, gating p), (48, 16, p.vinCv),
      (384, 11, p.ballastDw / 10), (400, 48, p.throttleUs)] ++
    (List.range 3).map (fun k => (96 + 22 * k, 22, packN [(0, 11, p.demand.getD k 0), (11, 11, p.allot.getD k 0)])) ++
    (List.range 6).map fun j => (192 + 32 * j, 32, packN [(0, 16, p.railA.getD j 0), (16, 16, p.railEv.getD j 0)]))

/-- 16 Table 16-12: READ_POWER. -/
def execReadPower (o : Order) (s : State) : Host.Outcome State Fault Refusal :=
  .next (runOrder (readForm 0x1001 [0x16] 0 [] 128 modesAll) o s {} fun t =>
    (t, .result (bytesLE 128 (if awake t then powerWord t.pwr else 0)) 0))

/-- 16 Table 16-12: READ_THERMAL. -/
def execReadThermal (o : Order) (s : State) : Host.Outcome State Fault Refusal :=
  .next (runOrder (readForm 0x1003 [0x16] 0 [] 128 modesAll) o s {} fun t =>
    (t, .result (bytesLE 128 (if awake t then
      packN ((List.range 64).map fun i => (16 * i, 16, unsigned 16 (SMap.get (fun _ => 0) t.pwr.sensors i))) else 0)) 0))

/-! The cap (16 R501, R505, R506) -/

/-- The domains in the order in which an ORDER allots (16 Table 16-12): 0 links, 1 memory, 2 compute. -/
def orderOf : Nat → List Nat
  | 0 => [0, 1, 2]
  | 1 => [0, 2, 1]
  | 2 => [1, 0, 2]
  | 3 => [1, 2, 0]
  | 4 => [2, 0, 1]
  | _ => [2, 1, 0]

/-- The load budget: the load-side equivalent of the effective cap less the fixed part of 12 W. -/
def loadBudget (p : PwrSt) : Nat := (if p.inputW = 0 then p.capEff else p.capEff * p.loadW / p.inputW) - 12

/-- A domain's figure in a list of three. -/
def dom (l : List Nat) (k : Nat) : Nat := l.getD k 0

/-- The budget shared out: each domain in turn its demand or what remains, less the floors still to be served, and never less
than its floor. (Log entry 84.) -/
def allots (demand floor : List Nat) : List Nat → Nat → List (Nat × Nat)
  | [], _ => []
  | k :: ks, left =>
    let a := max (dom floor k) (min (dom demand k) (left - sumN (ks.map (dom floor))))
    (k, a) :: allots demand floor ks (left - a)

/-- The three allotments. (Log entry 84.) -/
def allotsOf (p : PwrSt) (demand floor : List Nat) (budget : Nat) : List Nat :=
  let l := allots demand floor (orderOf (phaseNow p).order) budget
  (List.range 3).map fun k => match l.find? fun x => x.1 == k with | some x => x.2 | none => 0

/-- The controller's microsecond with its readings taken. (Log entry 84.) -/
def controlTick (vin inputW loadW : Nat) (demand floor rails : List Nat) (p : PwrSt) : PwrSt :=
  let p := recap { p with vinCv := vin, inputW := inputW, loadW := loadW, railA := (List.range 6).map (rails.getD · 0) }
  let budget := loadBudget p
  let demand := (List.range 3).map (dom demand)
  let floor := (List.range 3).map (dom floor)
  let al := allotsOf p demand floor budget
  let q := { p with demand := demand, floor := floor, allot := al,
                    gateCap := decide (dom al 0 < dom demand 0) || decide (dom al 2 < dom demand 2),
                    capUnreach := decide (budget < sumN floor),
                    gateRail := p.gateRail && (List.range 5).any fun j => decide (railLimit j ≤ rails.getD j 0) }
  { q with throttleUs := if throttleOf q then (q.throttleUs + 1) % 2 ^ 48 else q.throttleUs }

/-- 16 R505, R506: the microsecond of the power controller, with its readings: the sense in 0.01 V, input and load power in W,
the domains' unthrottled demands and their floors, the rails' currents in 0.1 A. In DORMANT only the sense reads.
(Log entry 84.) -/
def execPowerControlTick (vin inputW loadW : Nat) (demand floors rails : List Nat) (s : State) :
    Host.Outcome State Fault Refusal :=
  .next (
    if !s.pin.vaux then s
    else if awake s then setPower s (controlTick vin inputW loadW demand floors rails)
    else
      let t := s.updPwr fun p => { p with vinCv := vin }
      if s.mode.ramp then t else conditions s t)

/-! Slope and pre-ramp (16 R508 to R510) -/

/-- The watts granted to the requests that stand. (Log entry 86.) -/
def grants (p : PwrSt) : Nat := sumN (p.requests.map fun r => if r.received then r.grantW else 0)

/-- 100 ns of the slope limit: the compute domain would draw `want` (0.1 W). The estimate rises by no more than SLOPE allows,
ballast falls as activity rises, and rises toward the grants while a ramp runs. (Log entry 86.) -/
def slopeTick (want : Nat) (p : PwrSt) : PwrSt :=
  let top := p.estimateDw + (phaseNow p).slope
  let act := p.estimateDw - p.ballastDw
  let act' := min want top
  let kept := min (p.ballastDw - (act' - act)) (top - act')
  let rising := p.prerampEn && p.requests.any fun r => r.received && !r.done
  let bal := if rising then max kept (min (10 * grants p) (top - act')) else kept
  { p with ballastDw := bal, estimateDw := act' + bal, gateSlope := decide (act' < want) }

/-- 16 R508: 100 ns have passed. -/
def execSlopeTick (want : Nat) (s : State) : Host.Outcome State Fault Refusal :=
  .next (if awake s then setPower s (slopeTick want) else s)

/-- The first request the controller has not received, received with its grant. (Log entry 86.) -/
def receive (grant : PreRamp → Nat) : List PreRamp → List PreRamp
  | [] => []
  | r :: rs => if r.received then r :: receive grant rs else { r with received := true, grantW := grant r } :: rs

/-- 16 R509: the oldest pre-ramp request reaches the controller, which grants what the headroom between load and budget
allows. -/
def execPrerampRequest (s : State) : Host.Outcome State Fault Refusal :=
  .next (
    match s.pwr.requests.find? fun r => !r.received with
    | none => s
    | some r =>
      let p := s.pwr
      let room := loadBudget p + p.ballastDw / 10 - p.loadW - grants p
      let g := if p.prerampEn then min r.askW room else 0
      let t := s.updPwr fun q => { q with requests := receive (fun _ => g) q.requests }
      if p.prerampEn && decide (g < r.askW) then
        postAll t 0x1007 0 (packN [(0, 4, r.unit), (4, 11, r.askW), (15, 11, g)])
      else t)

/-- 16 R509, 13 R452: ballast has reached its target: the ramp of a context's request is reported complete, and a release that
waits for it goes out. -/
def execRampComplete (n : Nat) (s : State) : Host.Outcome State Fault Refusal :=
  .next (
    let mine := fun (r : PreRamp) => r.ctx == n && r.received && !r.done
    if s.pwr.prerampEn && s.pwr.requests.any mine && decide (10 * grants s.pwr ≤ s.pwr.ballastDw) then
      let t := s.updPwr fun p => { p with requests := p.requests.map fun r => if mine r then { r with done := true } else r }
      if (getCtx t n).relWait && !rampHolds t n then ownRelease t n else t
    else s)

/-! Rails (16 R502, R503) -/

/-- 16 R503: rail `j` exceeds its limit with a 2 us average of `current` (0.1 A); `held` says that it has done so for 100 us
with its domains fully gated. -/
def execRailLimitExceeded (j current : Nat) (held : Bool) (s : State) : Host.Outcome State Fault Refusal :=
  .next (
    if 6 ≤ j || decide (current ≤ railLimit j) || (!awake s && j != 5) || !s.pin.vaux then s
    else
      let t := setPower s fun p =>
        { p with railA := p.railA.set j current, railEv := p.railEv.modify j fun k => (k + 1) % 65536,
                 gateRail := p.gateRail || j != 5 }
      let t := winEvent t 0x1006 j j 32 32 1
      if j = 5 || held || decide (railLimit j * 125 < current * 100) then fatalError t 0x0D j current else t)

/-! Temperature (16 R517 to R519) -/

/-- The hottest of the readings and its index. -/
def hottest : List (Nat × Int) → Nat × Int
  | [] => (0, 0)
  | [x] => x
  | x :: xs => let y := hottest xs; if y.2 ≤ x.2 then x else y

/-- 16 R518, R519: the sensors are read, in 1/16 degC. HOTWARN_N follows TJ_MAX, the clean time of the critical trip counts, and
THERMTRIP_N is released once its latch is clear and its 100 ms are over. -/
def execTempSample (temps : List Int) (s : State) : Host.Outcome State Fault Refusal :=
  .next (
    if !awake s then s else
    let l := (List.range 64).map fun i => (i, temps.getD i 0)
    let h := hottest l
    let hot := decide (1600 ≤ h.2) || (s.pwr.hotwarn && decide (1552 ≤ h.2))
    let t := s.updPwr fun p =>
      { p with sensors := l.filter fun x => x.2 != 0, tjMax := h.2, tjSensor := h.1, hotwarn := hot }
    let t := t.updRiv fun r =>
      { r with critCleanSince := if h.2 < 1552 then some (r.critCleanSince.getD s.tb.now) else none,
               thermtrip := r.thermtrip && (r.critLatch || decide (s.tb.now < r.thermtripUntil)) }
    let t := noteTray s t
    if hot = s.pwr.hotwarn then t else postHot t)

/-- The cap at which the load budget equals the floors' sum. -/
def floorCap (p : PwrSt) : Nat :=
  let l := sumN p.floor + 12
  if p.loadW = 0 then l else l * p.inputW / p.loadW

/-- 16 R518: a whole millisecond of DT: the thermal reduction steps down or up. -/
def execThermalCapStep (s : State) : Host.Outcome State Fault Refusal :=
  .next (
    if !awake s then s
    else setPower s fun p =>
      let cap := (phaseNow p).capW
      let step := cap * p.thermStepPct / 100
      let w :=
        if 1600 ≤ p.tjMax then min p.thermW (max (floorCap p) (p.thermW - step))
        else if p.tjMax < 1552 then min cap (p.thermW + step)
        else p.thermW
      recap { p with thermW := w, gateThermal := decide (w < cap) })

/-- 16 R519: a comparator reaches 118 degC: THERMTRIP_N low for at least 100 ms, CRITTEMP_LATCH, HALT entry.
(Log entry 87.) -/
def execCrittempTrip (s : State) : Host.Outcome State Fault Refusal :=
  .next (
    if !awake s then s else
    let t := s.updRiv fun r => { r with thermtrip := true, thermtripUntil := s.tb.now + 100000000, critCleanSince := none }
    enterHalt (setLatch t 4 false))

end Sys2Proof.Machine
end

