-- ==== Sys2Proof/Machine/RegRead.lean ====
section
/-! DEFINITION. What BAR0 reads as (20 Table 20-1), and the reads of it: their access sizes and side effects (00 R13; 01 R43;
02 R50; 06 R196; 20 R601, R602). -/

namespace Sys2Proof.Machine

/-- RING_CTRL's value (02 Table 2-5). -/
def ringCtrl (r : Ring) : Nat :=
  packN [(0, 1, b2n r.enable), (1, 3, r.type), (4, 4, r.size), (8, 8, r.cmpl), (16, 6, r.vector), (22, 1, b2n r.irqEn),
    (24, 2, r.slot)]

/-- RING_STATUS's value (02 Table 2-6). -/
def ringStatus (r : Ring) : Nat := packN [(0, 1, b2n r.fault), (1, 1, b2n r.overflow), (16, 16, r.lost)]

/-- A ring's registers by their word in its 32-byte record (02 Tables 2-5, 2-6). -/
def ringReg (r : Ring) (word : Nat) : Nat :=
  match word with
  | 0 => ringCtrl r
  | 1 => r.baseLo.toNat
  | 2 => r.baseHi.toNat
  | 3 => packN [(0, 16, r.dev.toNat), (16, 16, r.host.toNat)]
  | 4 => ringStatus r
  | _ => 0

/-- PORT_INFO (02 Table 2-3). -/
def portInfo (s : State) (m : Master) : Nat :=
  let p := s.host.ports.get m
  packN [(0, 2, mIdx m), (2, 3, p.rate), (5, 3, p.width), (8, 8, p.missed), (16, 16, p.refused)]

/-- ID (00 R2; 20 R605, Table 20-2): part 0x0204, the ordering code in bit 16, stepping 0xB0. -/
def idReg : Nat := packN [(0, 16, 0x0204), (16, 1, b2n Config.codeS), (24, 8, 0xB0)]

/-- ELS_CTRL (04 Table 4-12). -/
def elsCtrl (s : State) : Nat := packN [(0, 2, s.opt.forceOff.toNat), (2, 2, s.pin.elsEn.toNat)]

/-- LASER_ALARM (04 Table 4-13): the engines with a latch set. -/
def laserAlarm (s : State) : Nat :=
  packN ((List.range 32).map fun n =>
    let g := SMap.get (fun _ => Engine.reset) s.opt.engines n
    (n, 1, b2n (g.lowLatch || g.highLatch)))

/-- A master's snapshot in a list of three. -/
def snapOf {w : Nat} (l : List (BitVec w)) (m : Master) : BitVec w := l.getD (mIdx m) 0

/-- Word `k` of a fingerprint, of DT or of LATHE_ISOLATED. -/
def wordAt {w : Nat} (v : BitVec w) (k : Nat) : Nat := fld v (32 * k) 32

/-- A word of the MSI-X table or of the PBA (20 Table 20-1). -/
def msixReg (s : State) (m : Master) (off : Nat) : Nat :=
  if off < 0x0C00 then
    let x := getVec s m ((off - 0x0800) / 16)
    match (off - 0x0800) / 4 % 4 with
    | 0 => wordAt x.addr 0
    | 1 => wordAt x.addr 1
    | 2 => x.data.toNat
    | _ => b2n x.mask
  else if off < 0x0C08 then
    packN ((List.range 32).map fun i => (i, 1, b2n (getVec s m ((off - 0x0C00) * 8 + i)).pba))
  else 0

/-- The registers that read as zero in DORMANT (20 R604): CONTRACT_STATUS, the fingerprints, TB_STATUS, DT_SNAP, PWR_STATUS
and TEMP_STATUS. -/
def zeroInDormant (off : Nat) : Bool :=
  off == 0x0010 || (decide (0x0040 ≤ off) && decide (off < 0x0060)) || (decide (0x1080 ≤ off) && decide (off < 0x1090)) ||
    off == 0x1108 || off == 0x110C

/-- A global register, or OWN_RESULT, as a master reads it (20 Table 20-1); CLAIM and RENEW, write-only, and reserved offsets
read as zero (00 R12, R14). -/
def globalValue (s : State) (m : Master) (off : Nat) : Nat :=
  match off with
  | 0x0000 => idReg
  | 0x0004 => wordAt Config.serial 0
  | 0x0008 => wordAt Config.serial 1
  | 0x0010 => contractStatus s
  | 0x0020 => modeStatus s
  | 0x0024 => packN [(0, 1, b2n s.mode.holdDormant), (4, 6, s.mode.tempWindow)]
  | 0x0028 => lastStartWord s.mode.last
  | 0x0040 => wordAt s.fp.active 0
  | 0x0044 => wordAt (snapOf s.fp.snapActive m) 1
  | 0x0048 => wordAt (snapOf s.fp.snapActive m) 2
  | 0x004C => wordAt (snapOf s.fp.snapActive m) 3
  | 0x0050 => wordAt s.fp.committed 0
  | 0x0054 => wordAt (snapOf s.fp.snapCommit m) 1
  | 0x0058 => wordAt (snapOf s.fp.snapCommit m) 2
  | 0x005C => wordAt (snapOf s.fp.snapCommit m) 3
  | 0x0100 => ownState s
  | 0x0104 => s.own.gen.toNat
  | 0x0110 => s.own.result.get m
  | 0x0114 => s.own.leaseMs
  | 0x0118 => remainMs s
  | 0x1040 => elsCtrl s
  | 0x1044 => laserAlarm s
  | 0x1080 => tbStatus s.tb
  | 0x1084 => wordAt (dtWord s.tb.dt) 0
  | 0x1088 => wordAt (snapOf s.tb.snap m) 1
  | 0x108C => wordAt (snapOf s.tb.snap m) 2
  | 0x10C0 => wordAt s.lat.isoRegs 0
  | 0x10C4 => wordAt s.lat.isoRegs 1
  | 0x10C8 => wordAt s.lat.isoRegs 2
  | 0x10CC => wordAt s.lat.isoRegs 3
  | 0x10D0 => wordAt s.lat.isoRegs 4
  | 0x10D4 => wordAt s.lat.isoRegs 5
  | 0x1100 => rivelStatus s
  | 0x1104 => rivelLatch s.riv
  | 0x1108 => pwrStatus s.pwr
  | 0x110C => tempStatus s.pwr
  | 0x1140 => errSummary s.err
  | 0x1144 => s.err.overflow.toNat
  | 0x1148 => fatalStatus s.err
  | 0x114C => s.err.cuIsolated.toNat
  | 0x1180 => s.pin.straps.toNat
  | 0x1184 => packN [(0, 8, s.pin.gpioDir.toNat), (8, 8, s.pin.gpioOut.toNat)]
  | 0x1188 => s.pin.gpioIn.toNat
  | 0x118C => packN [(0, 8, s.pin.gpioRise.toNat), (8, 8, s.pin.gpioFall.toNat)]
  | _ => 0

/-- What the register at `off` reads as, for a master (02 R52; 20 R602, R604, Table 20-1). -/
def regValue (s : State) (m : Master) (off : Nat) : Nat :=
  if s.mode.mode == .dormant && zeroInDormant off then 0
  else if off = 0x0200 then portInfo s m
  else if 0x0400 ≤ off ∧ off < 0x0500 then
    let x := getVec s m ((off - 0x0400) / 4)
    packN [(0, 10, x.timeUs), (16, 8, x.count)]
  else if 0x0800 ≤ off ∧ off < 0x1000 then (if m = .m0 then 0 else msixReg s m off)
  else if 0x2000 ≤ off ∧ off < 0x4000 then
    (if (off - 0x2000) / 32 < ringCount m then ringReg (getRing s m ((off - 0x2000) / 32)) (off % 32 / 4) else 0)
  else if 0x8000 ≤ off ∧ off < 0x10000 then (if m = .m0 then leNat (m0Load s (off - 0x8000) 4) else 0)
  else globalValue s m off

/-- What a read of a register does beside returning its value: RC fields clear (00 R13), snapshots are taken (01 R43; 06 R196),
these not in DORMANT, where the registers read zero (20 R604). -/
def regSide (s : State) (m : Master) (off : Nat) : State :=
  if off = 0x0200 then updPort s m fun p => { p with missed := 0, refused := 0 }
  else if 0x2000 ≤ off ∧ off < 0x4000 ∧ off % 32 = 16 ∧ (off - 0x2000) / 32 < ringCount m then
    updRing s m ((off - 0x2000) / 32) fun r => { r with lost := 0 }
  else if s.mode.mode == .dormant then s
  else if off = 0x0040 then s.updFp fun p => { p with snapActive := p.snapActive.set (mIdx m) p.active }
  else if off = 0x0050 then s.updFp fun p => { p with snapCommit := p.snapCommit.set (mIdx m) p.committed }
  else if off = 0x1084 then s.updTb fun b => { b with snap := b.snap.set (mIdx m) (dtWord b.dt) }
  else s

/-- A read's data, returned to the reader. -/
def readOut (s : State) (m : Master) (off v : Nat) : State := s.emit (.read m off (BitVec.ofNat 32 v))

/-- One register read whole: its value returned, then its side effects (00 R12, R13). -/
def readWord (s : State) (m : Master) (off : Nat) : State := regSide (readOut s m off (regValue s m off)) m off

/-- The bytes a narrow read returns (20 R601). -/
def partValue (v byte len : Nat) : Nat := v / 2 ^ (8 * byte) % 2 ^ (8 * len)

/-- Words of BAR0 read in turn, the offset advancing by 4 bytes after each (02 R50; 20 R601). -/
def readWords (s : State) (m : Master) : Nat → Nat → State
  | _, 0 => s
  | off, n + 1 => readWords (readWord s m off) m (off + 4) n

/-- A read of the register at `off` by a master that reaches BAR0 (02 R46, R50; 20 R601). A host port reads 32 bits, fewer bytes
within one register (the whole register's side effects, the bytes addressed returned), or 64 naturally aligned bits, as two
registers, the lower first; a read that touches two registers otherwise returns zero and does nothing. M0 reads words from an
offset, which it leaves where the next read goes on. (Log entry 20.) -/
def busRead (s : State) (m : Master) (off : Nat) (a : RegAcc) : State :=
  if !barOk s m then s else
  match m, a with
  | .m0, .words n => (readWords s .m0 off n).updHost fun h => { h with m0Off := BitVec.ofNat 16 (off + 4 * n) }
  | .m0, _ => (readWord s .m0 off).updHost fun h => { h with m0Off := BitVec.ofNat 16 (off + 4) }
  | _, .part byte len =>
    if byte + len ≤ 4 then regSide (readOut s m (off + byte) (partValue (regValue s m off) byte len)) m off
    else readOut s m (off + byte) 0
  | _, .wide => readWords s m (off / 8 * 8) 2
  | _, _ => readWord s m off

end Sys2Proof.Machine
end

