-- ==== Sys2Proof/Machine/Rings.lean ====
section
/-! DEFINITION. Doorbells, ring registers, interrupts, register reads with a side effect, the host ports' link and reset,
and M0's common command codes (02 R46 to R75, 20 R604 to R608). -/

namespace Sys2Proof.Machine


/-- KIND suits the ring type (02 R72). -/
def kindSuits (kind : Nat) (r : Ring) : Bool := if r.type = 0 then kind == 0 else kind == 1

/-- A doorbell value is good for a ring (02 R72): reserved fields zero, KIND right, the ring enabled, and not made more
than full. `idx` is INDEX. -/
def doorbellOk (r : Ring) (v : Nat) (idx : BitVec 16) : Bool :=
  onlyFields v [(0, 8), (8, 1), (16, 16)] && kindSuits (nfld v 8 1) r && r.enable &&
    (if r.type = 0 then decide ((idx - r.dev).toNat ≤ ringSize r - 1) else decide ((r.dev - idx).toNat ≤ ringSize r - 1))

/-- What goes out once a ring of a type has space (02 R57): held completions, or EVENTS_LOST first of all events. -/
def spaceReturned (s : State) (m : Master) (n type : Nat) : State :=
  if type = 1 then releaseHeld s.host.held (s.updHost fun h => { h with held := [] }) m n
  else if type = 2 then eventsLost s m n
  else s

/-- A doorbell (02 R71, R72): the ring's HOST_INDEX, after which held completions and EVENTS_LOST go out; a bad one is
ignored with DOORBELL_INVALID. -/
def doorbell (s : State) (m : Master) (groupOk : Bool) (v : Nat) : State :=
  let n := nfld v 0 8
  let idx := BitVec.ofNat 16 (nfld v 16 16)
  let r := getRing s m n
  if groupOk && doorbellOk r v idx then
    spaceReturned (updRing s m n fun q => { q with host := idx }) m n r.type
  else postTo s 0x0206 0 v m

/-- 02 R71, R72: a write to page `page` of BAR2; one narrower than 64 bits is ignored with no event. -/
def execDoorbellWrite (m : Master) (page : Nat) (v : BitVec 64) (wide : Bool) (s : State) :
    Host.Outcome State Fault Refusal :=
  .next (
    if m = .m0 ∨ ¬ barOk s m ∨ ¬ wide then s
    else doorbell s m (decide (fld v 0 8 / 16 = page)) v.toNat)

/-- 20 R607: the M0 doorbell register. -/
def execM0Doorbell (v : Word) (s : State) : Host.Outcome State Fault Refusal :=
  .next (if barOk s .m0 then doorbell s .m0 (decide (fld v 0 8 < 4)) v.toNat else s)

/-- A ring with its RING_CTRL fields set may be enabled (02 R55): base aligned, no reserved encoding, and a command ring's
completion ring enabled on the same port. On M0, BASE_HI not zero refuses too (log entry 16). -/
def enableOk (s : State) (m : Master) (r : Ring) : Bool :=
  decide (r.baseLo.toNat % 4096 = 0) && (m != .m0 || r.baseHi == 0) && decide (r.type ≤ 4) && decide (r.size ≤ 10) &&
    !(decide (3 ≤ r.type) && r.slot == 3) &&
    (r.type != 0 || (let c := getRing s m r.cmpl; c.enable && c.type == 1))

/-- An enabled command ring of the master names completion ring `n` (02 R56). -/
def namedByCommand (s : State) (m : Master) (n : Nat) : Bool :=
  s.host.rings.any fun kv => kv.1 / 256 == mIdx m && kv.2.enable && kv.2.type == 0 && kv.2.cmpl == n

/-- A ring just enabled (02 R55): both indices 0, the first pass. An event ring keeps its count of lost events. -/
def ringEnabled (q : Ring) : Ring :=
  { q with enable := true, dev := 0, host := 0, stopped := false, phase := true, evLost := if q.type = 2 then q.evLost else 0,
           ownLast := false }

/-- A ring with RING_CTRL's fields written while it is disabled (02 R55); CMPL_RING is reserved but on a command ring
(Table 2-5; 00 R14). -/
def ringFields (r : Ring) (v : Word) : Ring :=
  { r with type := fld v 1 3, size := fld v 4 4, cmpl := if fld v 1 3 = 0 then fld v 8 8 else 0, vector := fld v 16 6,
           irqEn := bit v 22, slot := fld v 24 2 }

/-- A write to RING_CTRL (02 R55 to R57). -/
def ringCtrlWrite (s : State) (m : Master) (n : Nat) (v : Word) : State :=
  let r := getRing s m n
  if r.enable then
    if !bit v 0 && r.type == 1 && namedByCommand s m n then s
    else updRing s m n fun q => { q with enable := bit v 0, vector := fld v 16 6, irqEn := bit v 22 }
  else
    let q := ringFields r v
    if bit v 0 && enableOk s m q then spaceReturned (updRing s m n fun _ => ringEnabled q) m n q.type
    else updRing s m n fun _ => q

/-- 02 R55: a write to RING_CTRL of ring `n`. -/
def execRingCtrlWrite (m : Master) (n : Nat) (v : Word) (s : State) : Host.Outcome State Fault Refusal :=
  .next (if barOk s m ∧ n < ringCount m then ringCtrlWrite s m n v else s)

/-- 02 R58: a DMA error on an enabled ring sets FAULT and stops it; RING_FAULT, unless it is an event ring. -/
def execRingFault (m : Master) (n : Nat) (s : State) : Host.Outcome State Fault Refusal :=
  .next (
    if (getRing s m n).enable then
      let t := updRing s m n fun r => { r with fault := true, stopped := true }
      if (getRing s m n).type = 2 then t else postTo t 0x0207 0 n m
    else s)

/-- 02 R74: TIME_US after the first entry not yet signalled, the vector fires. (Log entry 15.) -/
def execMsixModerationTimer (m : Master) (v : Nat) (s : State) : Host.Outcome State Fault Refusal :=
  let x := getVec s m v
  .next (
    match x.since with
    | some t => if x.timeUs ≠ 0 ∧ t + x.timeUs * 1000 ≤ s.tb.now then fire s m v else s
    | none => s)

/-- 00 R13: a read of PORT_INFO clears its RC fields. (Log entry 20.) -/
def execPortInfoRead (m : Master) (a : RegAcc) (s : State) : Host.Outcome State Fault Refusal :=
  .next (busRead s m 0x0200 a)

/-- 00 R13: a read of RING_STATUS of ring `n` clears LOST. (Log entry 20.) -/
def execRingStatusRead (m : Master) (n : Nat) (a : RegAcc) (s : State) : Host.Outcome State Fault Refusal :=
  .next (if n < 256 then busRead s m (0x2010 + 32 * n) a else s)

/-- 01 R43: a read of FP_ACTIVE_0 takes the master's snapshot; the register reads zero in DORMANT (20 R604).
(Log entry 20.) -/
def execFpActive0Read (m : Master) (a : RegAcc) (s : State) : Host.Outcome State Fault Refusal :=
  .next (busRead s m 0x40 a)

/-- 01 R43: a read of FP_COMMIT_0. (Log entry 20.) -/
def execFpCommit0Read (m : Master) (a : RegAcc) (s : State) : Host.Outcome State Fault Refusal :=
  .next (busRead s m 0x50 a)

/-- 06 R196: a read of DT_SNAP_0 takes the master's snapshot of DT. (Log entry 20.) -/
def execDtSnap0Read (m : Master) (a : RegAcc) (s : State) : Host.Outcome State Fault Refusal :=
  .next (busRead s m 0x1084 a)

/-! Host ports -/

/-- A host port's PCIe logic reset (02 R48): link, Command register, ring table, MSI-X table and moderation; completions
held for it are discarded, and a shadow on it is lost (08 R308). -/
def portReset (s : State) (m : Master) (perst : Bool) : State :=
  let t := s.updHost fun h =>
    { h with ports := h.ports.upd m fun p =>
               { p with linkUp := false, memEn := false, busMaster := false, msixEn := false, funcMask := false,
                        d3hot := false, perst := perst, rate := 0, width := 0 },
             rings := h.rings.filter fun kv => kv.1 / 256 != mIdx m,
             vectors := h.vectors.filter fun kv => kv.1 / 64 != mIdx m,
             held := h.held.filter fun x => x.order.master != m }
  shadowPortLost t m

/-- 02 R48: PERST_N asserted on a host port. -/
def execPerstNAssert (m : Master) (s : State) : Host.Outcome State Fault Refusal :=
  .next (if m = .m0 then s else portReset s m true)

/-- 02 R48: a host port's link lost. -/
def execPcieLinkDown (m : Master) (s : State) : Host.Outcome State Fault Refusal :=
  .next (if m = .m0 ∨ (s.host.ports.get m).linkUp = false then s else portReset s m (s.host.ports.get m).perst)

/-- 03 R93, R101: a host port's link trained at a rate and a width; not before the rails are in regulation, and never on
an H1 that STRAP2 disables (18 R566). -/
def execPcieLinkUp (m : Master) (rate width : Nat) (s : State) : Host.Outcome State Fault Refusal :=
  .next (
    if m = .m0 ∨ s.mode.mode = .dormant ∨ (m = .h1 ∧ bit s.pin.straps 2 = true) then s
    else updPort s m fun p => { p with linkUp := true, perst := false, rate := rate % 8, width := width % 8 })

/-- Messages that were pending and are masked no longer go out, and their PBA bits clear (02 Table 2-1). (Log entry 22.) -/
def pendingMsix (s : State) (m : Master) : State :=
  if !msixOn s m || (s.host.ports.get m).funcMask then s else
  (List.range 64).foldl (fun t v =>
    let x := getVec t m v
    if x.pba && !x.mask then (updVec t m v fun y => { y with pba := false }).emit (.msix m v) else t) s

/-- A port's configuration space as the host leaves it (02 R46, Table 2-1), Bus Master Enable beside the rest. A port that it
detaches loses its shadow (08 R308). -/
def setCfg (s : State) (m : Master) (bme : Bool) (c : CfgSpace) : State :=
  shadowPortLost (pendingMsix (updPort s m fun p =>
    { p with busMaster := bme, memEn := c.mse, msixEn := c.msixEn, funcMask := c.funcMask, d3hot := c.d3hot }) m) m

/-- 02 R46: the host writes its configuration space with Bus Master Enable 1. (Log entries 13 and 22.) -/
def execBusMasterEnableSet (m : Master) (c : CfgSpace) (s : State) : Host.Outcome State Fault Refusal :=
  .next (if m = .m0 ∨ (s.host.ports.get m).linkUp = false then s else setCfg s m true c)

/-- 02 R46: the host writes its configuration space with Bus Master Enable 0. (Log entries 13 and 22.) -/
def execBusMasterEnableClear (m : Master) (c : CfgSpace) (s : State) : Host.Outcome State Fault Refusal :=
  .next (if m = .m0 ∨ (s.host.ports.get m).linkUp = false then s else setCfg s m false c)

/-! M0's common command codes (02 R46, R49) -/

/-- 02 R49: ENTDAA assigns a dynamic address to M0 when it has none. -/
def execEntdaa (a : BitVec 7) (s : State) : Host.Outcome State Fault Refusal :=
  .next (
    if s.pin.vaux && s.host.m0Addr.isNone then s.updHost fun h => { h with m0Addr := some a } else s)

/-- M0's static address (18 Table 18-4): 0x50 + STRAP[1:0]. -/
def m0Static (s : State) : BitVec 7 := BitVec.ofNat 7 (0x50 + fld s.pin.straps 0 2)

/-- 02 R46, R49: SETDASA to the static address `target` assigns a dynamic address. -/
def execSetdasa (target a : BitVec 7) (s : State) : Host.Outcome State Fault Refusal :=
  .next (
    if s.pin.vaux && s.host.m0Addr.isNone && target == m0Static s then
      s.updHost fun h => { h with m0Addr := some a }
    else s)

/-- 02 R49: RSTDAA takes the dynamic address away, so M0 detaches. -/
def execRstdaa (s : State) : Host.Outcome State Fault Refusal :=
  .next (if s.pin.vaux then s.updHost fun h => { h with m0Addr := none } else s)

/-- A value M0 returns at its dynamic address. -/
def m0Answer (s : State) (v : Nat) : State :=
  if s.pin.vaux && s.host.m0Addr.isSome then s.emit (.i3c false v) else s

/-- 02 R49: GETPID. (Log entry 25.) -/
def execGetpid (s : State) : Host.Outcome State Fault Refusal := .next (m0Answer s (Config.i3cPid false).toNat)

/-- 02 R49: GETBCR. (Log entry 25.) -/
def execGetbcr (s : State) : Host.Outcome State Fault Refusal := .next (m0Answer s Config.i3cBcr.toNat)

/-- 02 R49: GETDCR. (Log entry 25.) -/
def execGetdcr (s : State) : Host.Outcome State Fault Refusal := .next (m0Answer s Config.i3cDcr.toNat)

/-- 02 R49: GETSTATUS. (Log entry 25.) -/
def execGetstatus (s : State) : Host.Outcome State Fault Refusal := .next (m0Answer s (Config.i3cStatus false).toNat)

/-- 02 R49: ENEC enables M0's in-band interrupts. -/
def execEnec (s : State) : Host.Outcome State Fault Refusal :=
  .next (if s.pin.vaux then s.updHost fun h => { h with m0Ibi := true } else s)

/-- 02 R49: DISEC disables M0's in-band interrupts. -/
def execDisec (s : State) : Host.Outcome State Fault Refusal :=
  .next (if s.pin.vaux then s.updHost fun h => { h with m0Ibi := false } else s)

end Sys2Proof.Machine
end

