-- ==== Sys2Proof/Machine/Rivel.lean ====
section
/-! DEFINITION. The Rivel tray interface: the filtered inputs, the latches and their clearing, the 48 V sense, the tray bus
(16 R500, R521 to R530; 03 R97 to R100). -/

namespace Sys2Proof.Machine

/-! Inputs -/

/-- A filtered input by its number in CHATTER (16 Table 16-8): 0 FLOWFAIL_N, 1 TRAYSTOP_N, 2 PWRGOOD. -/
def getIn (r : RivSt) : Nat → RivelIn
  | 0 => r.flow
  | 1 => r.tray
  | _ => r.pwrgood

def updIn (s : State) (i : Nat) (f : RivelIn → RivelIn) : State :=
  s.updRiv fun r =>
    match i with
    | 0 => { r with flow := f r.flow }
    | 1 => { r with tray := f r.tray }
    | _ => { r with pwrgood := f r.pwrgood }

/-- An input accepted as faulted, by its filter or by chatter (16 R522, R523). (Log entry 90.) -/
def inFault (s : State) (i : Nat) (chatter : Bool) : State :=
  updIn s i fun x => { fault := true, chatter := x.chatter || chatter, cleanSince := none }

/-- An input accepted as unfaulted; PWRGOOD has then been accepted as good (16 R524). (Log entry 90.) -/
def inClean (s : State) (i : Nat) : State :=
  (updIn s i fun x => { fault := false, chatter := false, cleanSince := some (x.cleanSince.getD s.tb.now) }).updRiv fun r =>
    { r with pwrgoodSeen := r.pwrgoodSeen || i == 2 }

/-- A fault accepted on FLOWFAIL_N or TRAYSTOP_N: its latch, and HALT outside DORMANT (16 R525). (Log entry 90.) -/
def trayFault (s : State) (i : Nat) (chatter : Bool) : State :=
  if !s.pin.vaux then s else
  enterHalt (conditions s (setLatch (inFault s i chatter) (i + 1) chatter))

/-- 16 R525: FLOWFAIL_N is accepted as faulted, by its filter or by chatter. -/
def execFlowfailFault (chatter : Bool) (s : State) : Host.Outcome State Fault Refusal := .next (trayFault s 0 chatter)

/-- 16 R525: TRAYSTOP_N is accepted as faulted. -/
def execTraystopFault (chatter : Bool) (s : State) : Host.Outcome State Fault Refusal := .next (trayFault s 1 chatter)

/-- 16 R524, 03 R97: PWRGOOD is accepted as lost: PWRGOOD_LOST_SEEN if it had been accepted as good, and DORMANT. -/
def execPwrgoodLost (chatter : Bool) (s : State) : Host.Outcome State Fault Refusal :=
  .next (
    if !s.pin.vaux then s else
    let t := inFault s 2 chatter
    let t := if s.riv.pwrgoodSeen && !s.riv.pwrgood.fault then setLatch t 3 chatter else t
    toDormant (conditions s t))

/-- 16 R522: an input's filter gives unfaulted; a chattering input stays accepted as faulted (R523). -/
def execRivelInputUnfaulted (i : Nat) (s : State) : Host.Outcome State Fault Refusal :=
  .next (
    if !s.pin.vaux || decide (2 < i) || (getIn s.riv i).chatter then s else conditions s (inClean s i))

/-- 16 R523: 100 ms without a change on a chattering input, whose filter then gives `faulted`. -/
def execChatterEnd (i : Nat) (faulted : Bool) (s : State) : Host.Outcome State Fault Refusal :=
  .next (
    if !s.pin.vaux || decide (2 < i) || !(getIn s.riv i).chatter then s
    else if faulted then updIn s i fun x => { x with chatter := false }
    else conditions s (inClean s i))

/-! The 48 V sense (16 R500) -/

/-- 16 R500: the sense reads `cv` (0.01 V), below 38.0 V or above 62.0 V, for 20 us: DORMANT. -/
def execV48InputLost (cv : Nat) (s : State) : Host.Outcome State Fault Refusal :=
  .next (
    if 3800 ≤ cv && cv ≤ 6200 then s
    else toDormant (conditions s (s.updPwr fun p => { p with vinCv := cv })))

/-- 03 R99: the sense reads `cv` (0.01 V), within 40 V to 60 V. -/
def execV48InputInRange (cv : Nat) (s : State) : Host.Outcome State Fault Refusal :=
  .next (
    if !s.pin.vaux || decide (cv < 4000) || decide (6000 < cv) then s
    else conditions s (s.updPwr fun p => { p with vinCv := cv }))

/-! Clearing the latches (16 R519, R524, R530; 17 R553) -/

/-- An instant 100 ms or more ago. (Log entry 90.) -/
def longClean (s : State) (since : Option Nat) : Bool :=
  match since with | some t => decide (t + 100000000 ≤ s.tb.now) | none => false

/-- RIVEL_LATCH, the event, for a latch that clears. -/
def postCleared (s : State) (src : Nat) : State := postAll s 0x1002 0 (packN [(0, 3, src)])

/-- A latch cleared, with its event, the tray's view, and the power conditions looked at again. -/
def afterClear (s t : State) (src : Nat) : State := conditions s (postCleared (noteTray s t) src)

/-- FLOW_LATCH (0) or TRAYSTOP_LATCH (1) written with 1 (16 R524). -/
def clearTray (s : State) (i : Nat) : State :=
  let x := getIn s.riv i
  let on := if i = 0 then s.riv.flowLatch else s.riv.trayLatch
  if on && !x.fault && !x.chatter && longClean s x.cleanSince then
    afterClear s (s.updRiv fun r => if i = 0 then { r with flowLatch := false } else { r with trayLatch := false }) (i + 1)
  else s

/-- CRITTEMP_LATCH written with 1 (16 R519); THERMTRIP_N is released with it once its 100 ms are over. (Log entry 87.) -/
def clearCrit (s : State) : State :=
  if s.riv.critLatch && awake s && longClean s s.riv.critCleanSince then
    afterClear s (s.updRiv fun r =>
      { r with critLatch := false, thermtrip := r.thermtrip && decide (s.tb.now < r.thermtripUntil) }) 4
  else s

/-- PWRGOOD_LOST_SEEN written with 1. -/
def clearPwrLost (s : State) : State :=
  if s.riv.pwrLostSeen then afterClear s (s.updRiv fun r => { r with pwrLostSeen := false }) 3 else s

/-- TRAY_ADVISORY (16 Table 16-15). -/
def postAdvisory (s : State) (cause : Nat) (raised : Bool) : State :=
  postAll s 0x1008 0 (packN [(0, 3, cause), (3, 1, b2n raised)])

/-- TRAY_BUS_FAULT written with 1: its advisory clears (16 R530). -/
def clearBusFault (s : State) : State :=
  if s.riv.busFault then postAdvisory (noteTray s (s.updRiv fun r => { r with busFault := false })) 4 false else s

/-- FATAL_LATCH written with 1 (17 R553): cleared, with the record closed, only when the owner has read the record. -/
def clearFatal (s : State) : State :=
  if s.err.fatalLatch && s.err.fatalRead then
    noteTray s (s.updErr fun e => { e with fatalLatch := false, fatalRead := false, fatal := { e.fatal with opened := false } })
  else s

/-- A write to a global register by `m` (02 R53): the owner's takes effect, another's is counted as refused. -/
def ownerWrite (s : State) (m : Master) (f : State → State) : State :=
  if !barOk s m then s
  else if s.own.owner = some m then f s
  else updPort s m fun p => { p with refused := satAdd 16 p.refused 1 }

/-- 16 R524: a write of 1 to FLOW_LATCH. -/
def execFlowLatchClear (m : Master) (s : State) : Host.Outcome State Fault Refusal :=
  .next (ownerWrite s m fun t => clearTray t 0)

/-- 16 R524: a write of 1 to TRAYSTOP_LATCH. -/
def execTraystopLatchClear (m : Master) (s : State) : Host.Outcome State Fault Refusal :=
  .next (ownerWrite s m fun t => clearTray t 1)

/-- 16 R519: a write of 1 to CRITTEMP_LATCH. -/
def execCrittempLatchClear (m : Master) (s : State) : Host.Outcome State Fault Refusal := .next (ownerWrite s m clearCrit)

/-- 16 R530: a write of 1 to TRAY_BUS_FAULT. -/
def execTrayBusFaultClear (m : Master) (s : State) : Host.Outcome State Fault Refusal := .next (ownerWrite s m clearBusFault)

/-- 17 R553: a write of 1 to FATAL_LATCH. -/
def execFatalLatchClear (m : Master) (s : State) : Host.Outcome State Fault Refusal := .next (ownerWrite s m clearFatal)

/-! The tray bus (16 R528 to R530) -/

/-- The tray bus answers: VAUX is present and a dynamic address is held. (Log entry 87.) -/
def trayBusOn (s : State) : Bool := s.pin.vaux && s.riv.trayAddr.isSome

/-- 16 R528: SETDASA from the static address 0x2A. -/
def execTraySetdasa (target a : BitVec 7) (s : State) : Host.Outcome State Fault Refusal :=
  .next (
    if s.pin.vaux && s.riv.trayAddr.isNone && target == 0x2A then s.updRiv fun r => { r with trayAddr := some a } else s)

/-- 16 R528: ENTDAA. -/
def execTrayEntdaa (a : BitVec 7) (s : State) : Host.Outcome State Fault Refusal :=
  .next (if s.pin.vaux && s.riv.trayAddr.isNone then s.updRiv fun r => { r with trayAddr := some a } else s)

/-- 16 R528: RSTDAA. -/
def execTrayRstdaa (s : State) : Host.Outcome State Fault Refusal :=
  .next (if s.pin.vaux then s.updRiv fun r => { r with trayAddr := none } else s)

/-- A value returned on the tray bus. -/
def trayAnswer (s : State) (v : Nat) : State := if trayBusOn s then s.emit (.i3c true v) else s

/-- 16 R528: GETPID. -/
def execTrayGetpid (s : State) : Host.Outcome State Fault Refusal := .next (trayAnswer s (Config.i3cPid true).toNat)

/-- 16 R528: GETSTATUS. -/
def execTrayGetstatus (s : State) : Host.Outcome State Fault Refusal := .next (trayAnswer s (Config.i3cStatus true).toNat)

/-- 16 R528: ENEC enables in-band interrupts. -/
def execTrayEnec (s : State) : Host.Outcome State Fault Refusal :=
  .next (if s.pin.vaux then s.updRiv fun r => { r with trayIbi := true } else s)

/-- 16 R528: DISEC disables in-band interrupts. -/
def execTrayDisec (s : State) : Host.Outcome State Fault Refusal :=
  .next (if s.pin.vaux then s.updRiv fun r => { r with trayIbi := false } else s)

/-- A heartbeat (16 R530): it clears the heartbeat advisory. -/
def heartbeat (s : State) (v : Byte) : State :=
  let t := s.updRiv fun r => { r with heartbeat := v, heartbeatAt := s.tb.now, advHeart := false }
  if s.riv.advHeart then postAdvisory t 3 false else t

/-- A byte of a 16-bit field replaced. -/
def setByte (w : BitVec 16) (high : Bool) (b : Byte) : BitVec 16 :=
  if high then BitVec.ofNat 16 (w.toNat % 256 + 256 * b.toNat) else BitVec.ofNat 16 (w.toNat / 256 * 256 + b.toNat)

/-- One byte written by the tray at an index (16 Table 16-10); the module's own indices ignore it. -/
def trayByte (s : State) (i : Nat) (b : Byte) : State :=
  match i with
  | 0x10 => s.updRiv fun r => { r with inlet := setByte r.inlet false b }
  | 0x11 => s.updRiv fun r => { r with inlet := setByte r.inlet true b }
  | 0x12 => s.updRiv fun r => { r with flowRate := setByte r.flowRate false b }
  | 0x13 => s.updRiv fun r => { r with flowRate := setByte r.flowRate true b }
  | 0x14 => heartbeat s b
  | _ => s

/-- The bytes of a private write, the index advancing by one a byte. -/
def trayBytes : State → Nat → List Byte → State
  | s, i, [] => s.updRiv fun r => { r with trayIndex := i % 256 }
  | s, i, b :: bs => trayBytes (trayByte s (i % 256) b) (i + 1) bs

/-- The tray register at an index, least significant byte first (16 Table 16-10); an index of none reads as zero. -/
def trayReg (s : State) (i : Nat) : Nat :=
  let byte := fun (v k : Nat) => nfld v (8 * k) 8
  match i with
  | 0x00 => byte 0x0204 0
  | 0x01 => byte 0x0204 1
  | 0x02 => trayState s
  | 0x03 => trayAlert s
  | 0x04 => byte s.pwr.inputW 0
  | 0x05 => byte s.pwr.inputW 1
  | 0x06 => byte (unsigned 16 s.pwr.tjMax) 0
  | 0x07 => byte (unsigned 16 s.pwr.tjMax) 1
  | 0x08 => byte (flowReq s) 0
  | 0x09 => byte (flowReq s) 1
  | 0x10 => byte s.riv.inlet.toNat 0
  | 0x11 => byte s.riv.inlet.toNat 1
  | 0x12 => byte s.riv.flowRate.toNat 0
  | 0x13 => byte s.riv.flowRate.toNat 1
  | 0x14 => s.riv.heartbeat.toNat
  | _ => 0

/-- A private read of `n` bytes from the index last written, which advances by one a byte; all are read at one instant, so each
field is a snapshot (16 R528). -/
def trayRead (s : State) (n : Nat) : State :=
  if n = 0 then s else
  let i := s.riv.trayIndex
  (s.emit (.i3c true (packN ((List.range n).map fun k => (8 * k, 8, trayReg s ((i + k) % 256)))))).updRiv fun r =>
    { r with trayIndex := (i + n) % 256 }

/-- 16 R528, R529: a private write: an index, then data; and the private read of `reads` bytes that follows it, if any.
(Log entry 87.) -/
def execTrayRegisterWrite (index : Byte) (data : List Byte) (reads : Nat) (s : State) :
    Host.Outcome State Fault Refusal :=
  .next (if trayBusOn s then trayRead (advRefresh (trayBytes s index.toNat data)) reads else s)

/-- 16 R530: a write to HEARTBEAT. -/
def execHeartbeat (v : Byte) (s : State) : Host.Outcome State Fault Refusal :=
  .next (if trayBusOn s then trayBytes s 0x14 [v] else s)

/-- 16 R528, R530: SDA held low for 10 ms. (Log entry 87.) -/
def execTrayBusFault (s : State) : Host.Outcome State Fault Refusal :=
  .next (
    if !s.pin.vaux || s.riv.busFault then s
    else postAdvisory (noteTray s (s.updRiv fun r => { r with busFault := true })) 4 true)

/-- A condition has held against its advisory for 1 s. -/
def heldSecond (s : State) (since : Option Nat) : Bool :=
  match since with | some t => decide (t + 1000000000 ≤ s.tb.now) | none => false

/-- 16 R530: the flow (1) or inlet (2) condition has held for 1 s against its advisory, which is raised or cleared; or no
heartbeat (3) has come for 1 s outside DORMANT. -/
def execTrayAdvisory (cause : Nat) (s : State) : Host.Outcome State Fault Refusal :=
  .next (
    if !s.pin.vaux then s else
    match cause with
    | 1 => if heldSecond s s.riv.advFlowAt then
        postAdvisory (s.updRiv fun r => { r with advFlow := !r.advFlow, advFlowAt := none }) 1 (!s.riv.advFlow) else s
    | 2 => if heldSecond s s.riv.advInletAt then
        postAdvisory (s.updRiv fun r => { r with advInlet := !r.advInlet, advInletAt := none }) 2 (!s.riv.advInlet) else s
    | 3 => if awake s && !s.riv.advHeart && decide (s.riv.heartbeatAt + 1000000000 ≤ s.tb.now) then
        postAdvisory (s.updRiv fun r => { r with advHeart := true }) 3 true else s
    | _ => s)

end Sys2Proof.Machine
end

