-- ==== Sys2Proof/Machine/Errors.lean ====
section
/-! DEFINITION. The orders and commands of chapter 17: error records, fatal errors, the isolation and the return of a
collective unit (17 R537 to R555). -/

namespace Sys2Proof.Machine

/-- An error record of group `g` (17 Table 17-2); a slot never used is zero. (Log entry 88.) -/
def errWord (g : Nat) (r : ErrRec) : Nat :=
  if !r.valid then 0 else
  packN [(0, 32, r.seq), (32, 8, r.cls), (40, 2, r.level), (42, 1, b2n r.opened), (43, 1, 1), (44, 3, r.outcome), (48, 5, g),
    (64, 16, r.unit), (80, 16, r.count), (96, 96, (dtWord r.firstDt).toNat), (192, 96, (dtWord r.lastDt).toNat),
    (288, 64, r.detail), (352, 32, r.ownGen.toNat), (384, 3, r.mode)]

/-- 17 Table 17-11: READ_ERRORS. (Log entry 88.) -/
def execReadErrors (o : Order) (s : State) : Host.Outcome State Fault Refusal :=
  let g := o.inst
  .next (runOrder (readForm 0x1101 [0x18] 31 [(0, 1)] 1024 modesAll) o s { badObject := decide (20 ≤ g) } fun t =>
    let v := SMap.get (fun _ => Ovf.mk 0 0 0) t.err.ovf g
    (t, .result ((List.range 16).flatMap fun i =>
        let r := getErr t g i
        bytesLE 64 (if o.b 0 && !r.opened then 0 else errWord g r))
      (packN [(0, 32, v.count), (32, 8, v.last)])))

/-- 17 R553: READ_FATAL; the owner's sets FATAL_READ. (Log entry 88.) -/
def execReadFatal (o : Order) (s : State) : Host.Outcome State Fault Refusal :=
  .next (runOrder (readForm 0x1102 [0x19] 0 [] 64 modesAll) o s {} fun t =>
    let r := t.err.fatal
    (t.updErr fun e => { e with fatalRead := e.fatalRead || (r.valid && t.own.owner == some o.master) },
      .result (bytesLE 64 (errWord (fatalGroup r.cls r.unit) r)) (b2n t.err.fatalLatch)))

/-- 17 R554: ERR_CLOSE closes the open slots named. -/
def execErrClose (o : Order) (s : State) : Host.Outcome State Fault Refusal :=
  let g := o.inst
  .next (runOrder (setForm 0x5101 [0x18] 31 [(0, 16)] modesOn false) o s { badObject := decide (20 ≤ g) } fun t =>
    let hit := (List.range 16).filter fun i => o.b i && (getErr t g i).opened
    (hit.foldl (fun u i => putErr u g i { getErr u g i with opened := false }) t,
      .done stSuccess (packN (hit.map fun i => (i, 1, 1)))))

/-- 17 R544: CU_ISOLATE; it completes when the contexts have moved. -/
def execCuIsolate (o : Order) (s : State) : Host.Outcome State Fault Refusal :=
  let c : Checks := { chapter := if unitIsolated s o.inst then some 0x9101 else none }
  .next (runOrder (setForm 0x5102 [0xD2] 15 [] modesSet true) o s c fun t => (isolateUnit t o.inst, .later))

/-- 17 R545: CU_RESTORE begins the march test. -/
def execCuRestore (o : Order) (s : State) : Host.Outcome State Fault Refusal :=
  let c : Checks := { chapter := if unitIsolated s o.inst then none else some 0x9102 }
  .next (runOrder (setForm 0x5103 [0xD2] 15 [] modesSet true) o s c fun t =>
    (updUnit t o.inst fun y => { y with testing := true }, .later))

/-- A context's move off an isolated unit ends (13 R456, 17 R544). -/
def endIsolationMove (s : State) (n : Nat) : State :=
  let x := getCtx s n
  match x.move with
  | none => s
  | some m =>
    let t := updCtx (releaseMove s n) n fun y => { y with move := none }
    let t := postAll t 0x0D04 0 (packN [(0, 12, n), (12, 4, m.old), (16, 4, x.home), (20, 4, x.epoch)])
    match m.order with
    | some o => finishThis t 0x4D02 o stSuccess x.epoch
    | none => t

/-- 17 R544: the moves off isolated unit `u` have completed. -/
def execCuIsolationDone (u : Nat) (s : State) : Host.Outcome State Fault Refusal :=
  .next (
    let y := getUnit s u
    if !y.isolating then s else
    let l := (s.coll.ctxs.filter fun kv => match kv.2.move with | some m => m.isolation && m.old == u | none => false).map
      fun kv => kv.1
    let t := updUnit (l.foldl endIsolationMove s) u fun z => { z with isolating := false }
    match findRunning t 0x5102 fun o => o.inst == u with
    | some r => finishOrder t r stSuccess (packN [(0, 12, y.moved), (12, 12, y.movedFaults)])
    | none => t)

/-- 17 R545: the march test of isolated unit `u` ends. -/
def execCuRestoreDone (u : Nat) (ok : Bool) (s : State) : Host.Outcome State Fault Refusal :=
  .next (
    if !(getUnit s u).testing then s else
    let t := updUnit s u fun y => { y with testing := false, faultsAt := if ok then [] else y.faultsAt }
    let t := if ok then t.updErr fun e => { e with cuIsolated := e.cuIsolated &&& ~~~(BitVec.ofNat 16 (2 ^ u)) } else t
    (t.host.running.filter fun r => r.opcode.toNat == 0x5103 && r.order.inst == u).foldl
      (fun v r => finishOrder v r (if ok then stSuccess else 0x9103) 0) t)

/-- 17 R544: a parity error in a unit's context table or accumulator; `addr` is its address. -/
def execCuMemoryError (u addr : Nat) (s : State) : Host.Outcome State Fault Refusal :=
  .next (
    if 16 ≤ u || !awake s || s.mode.mode == .halt then s
    else isolateUnit (recordError s u 0x09 u 2 4 (addr % 2 ^ 24)) u)

/-- 17 R546: the duplicated machine-check logic of a lathe group, or of collective unit `unit - 0x100`, disagrees. -/
def execMcheckLogicMismatch (unit : Nat) (s : State) : Host.Outcome State Fault Refusal :=
  .next (if awake s && (decide (unit < 32) || (decide (0x100 ≤ unit) && decide (unit < 0x110))) then fatalError s 0x0B unit 0 else s)

/-- 17 R546: a parity error in the record store. -/
def execRecordStoreParity (group slot : Nat) (s : State) : Host.Outcome State Fault Refusal :=
  .next (if s.pin.vaux && decide (group < 20) && decide (slot < 16) then fatalError s 0x0C group slot else s)

/-- 17 R546: an island of 01 Table 1-2 loses PLL lock (`pll`) or a handshake token. -/
def execIslandClockLoss (island : Nat) (pll : Bool) (s : State) : Host.Outcome State Fault Refusal :=
  .next (if awake s && decide (island < 123) then fatalError s 0x0E island (b2n pll) else s)

end Sys2Proof.Machine
end

