-- ==== Sys2Proof/Machine/Groups.lean ====
section
/-! DEFINITION. The commands of chapter 12 on sequencer groups and fan-out groups: the orders of Table 12-5, presentation
(R413), changes (R418), and the release of fan-out copies (R425, R426). -/

namespace Sys2Proof.Machine

/-! Read orders -/

/-- The READ_SEQ result (12 Table 12-8). (Log entry 68.) -/
def seqWord (x : SeqGroup) : Nat :=
  packN [(0, 1, b2n (seqNow x).enable), (1, 1, b2n x.drain.isSome), (2, 18, x.held.length + x.queued),
    (32, 64, x.presented.toNat), (96, 48, x.late.toNat), (144, 48, x.drops.toNat), (192, 32, x.maxTransit),
    (224, 96, (dtWord x.lastDt).toNat)]

/-- 12 R432: READ_SEQ. -/
def execReadSeq (o : Order) (s : State) : Host.Outcome State Fault Refusal :=
  .next (runOrder (readForm 0x0C01 [0xC1] 0xF [] 64 modesOn) o s {} fun t =>
    (t, .result (bytesLE 64 (seqWord (getSeq t o.inst))) 0))

/-- The READ_FANOUT result (12 Table 12-9). -/
def fanWord (s : State) (x : FanGroup) : Nat :=
  let waiting := x.pkts.filter fun k => decide (s.tb.dt < k.sched)
  packN [(0, 1, b2n x.enable), (1, 13, waiting.length), (32, 64, x.releases.toNat), (96, 48, x.movedCnt.toNat),
    (144, 48, x.dropped.toNat), (192, 48, x.unprotected.toNat),
    (256, 96, match waiting with | k :: _ => (dtWord k.sched).toNat | [] => 0)]

/-- 12 R432: READ_FANOUT. -/
def execReadFanout (o : Order) (s : State) : Host.Outcome State Fault Refusal :=
  .next (runOrder (readForm 0x0C02 [0xC2] 0x3F [] 64 modesOn) o s {} fun t =>
    (t, .result (bytesLE 64 (fanWord t (getFan t o.inst))) 0))

/-- 12 R422: READ_GRID. -/
def execReadGrid (o : Order) (s : State) : Host.Outcome State Fault Refusal :=
  .next (runOrder (readForm 0x0C03 [0xC4] 0 [] 64 modesOn) o s {} fun t =>
    (t, .result (bytesLE 64 (dtWord (gridOrigin5 t / 5).toNat).toNat) 0))

/-- 12 R432: READ_GROUP_CONFIG, the set payload in force. -/
def execReadGroupConfig (o : Order) (s : State) : Host.Outcome State Fault Refusal :=
  let fan := decide (o.kind = 0xC2)
  .next (runOrder (readForm 0x0C05 [0xC1, 0xC2] (if fan then 0x3F else 0xF) [] (if fan then 128 else 1088) modesOn) o s {}
    fun t => (t, .result (if fan then padTo 128 (getFan t o.inst).payload
      else padTo 1088 (seqNow (getSeq t o.inst)).payload) 0))

/-! SEQ_GROUP_SET (12 R418, Table 12-6) -/

/-- Member `m` of a payload: its word. -/
def seqMember (bs : List Byte) (m : Nat) : Nat := leNat (slice bs (64 + 4 * m) 4)

/-- The settings that a payload gives. -/
def seqCfgOf (bs : List Byte) : SeqCfg :=
  let h := leNat (slice bs 0 64)
  { enable := decide (nfld h 0 1 = 1), lateMode := decide (nfld h 2 1 = 1), record := nfld h 3 2,
    members := (List.range (min 256 (nfld h 8 9))).map fun m => (nfld (seqMember bs m) 0 9, nfld (seqMember bs m) 16 8),
    gateway := nfld h 17 9, queue := nfld h 26 4, window := nfld h 32 17, hold := nfld h 64 18, payload := padTo 1088 bs }

/-- The settings that a group has once its waiting sets have taken effect. -/
def seqLast (x : SeqGroup) : SeqCfg :=
  match x.pend.reverse with | p :: _ => p.cfg | [] => seqNow x

/-- A group reserves queue `q`, or will (12 R410). -/
def seqClaims (q : Nat) (x : SeqGroup) : Bool :=
  x.pend.any (fun p => p.cfg.enable && 16 * p.cfg.gateway + p.cfg.queue == q) ||
    (seqEnabled x && (match x.cfgs.find? fun c => c.2.enable with
      | some c => 16 * c.2.gateway + c.2.queue == q
      | none => false))

/-- A set that disables the group is draining it, or waits to. (Log entry 68.) -/
def seqBusy (x : SeqGroup) : Bool := x.drain.isSome || (!x.pend.isEmpty && !(seqLast x).enable && (seqNow x).enable)

/-- The chapter's checks of a SEQ_GROUP_SET (12 Table 12-11). -/
def seqChapter (s : State) (g : Nat) (c : SeqCfg) : Option Nat :=
  let x := getSeq s g
  let last := seqLast x
  let others := s.grp.seqs.filter fun kv => kv.1 != g
  if seqBusy x || (c.enable && last.enable && !(c.gateway == last.gateway && c.queue == last.queue)) then some 0x8C02
  else if c.enable && others.any fun kv => seqClaims (16 * c.gateway + c.queue) kv.2 then some 0x8C03
  else if c.enable && decide (131072 < c.hold + sumN (others.map fun kv => if (seqLast kv.2).enable then (seqLast kv.2).hold
      else 0)) then some 0x8C04
  else none

/-- The checks of a SEQ_GROUP_SET's payload; ranges bind a set that enables. (Log entries 10 and 68.) -/
def seqChecks (s : State) (g acc : Nat) (bs : List Byte) : Checks :=
  let h := leNat (slice bs 0 64)
  let n := nfld h 8 9
  let c := seqCfgOf bs
  let at_ := nfld h 96 96
  { malformed := !onlyFields h [(0, 5), (8, 22), (32, 17), (64, 18), (96, 96)] || decide (nfld h 3 2 = 3) ||
      (List.range 256).any (fun m => !onlyFields (seqMember bs m) [(0, 9), (16, 8)] ||
        (decide (n ≤ m) && decide (seqMember bs m ≠ 0))),
    badArgument := decide (256 < n) ||
      (c.enable && (decide ((c.members.map fun m => m.1).eraseDups.length < c.members.length) ||
        decide ((c.members.map fun m => m.2).eraseDups.length < c.members.length) ||
        decide (c.window < 50) || decide (100000 < c.window) || decide (c.hold < 1) || decide (131072 < c.hold))) ||
      (decide (nfld h 1 1 = 1) && (!dtOk at_ || decide (acc + dtSec < dtCount at_))),
    chapter := seqChapter s g c }

/-- Waiting sets in the order of their T_s. -/
def pendInsert (p : SeqPend) : List SeqPend → List SeqPend
  | [] => [p]
  | x :: xs => if p.ts < x.ts then p :: x :: xs else x :: pendInsert p xs

/-- 12 R418: SEQ_GROUP_SET waits for T_s. (Log entry 68.) -/
def execSeqGroupSet (o : Order) (s : State) : Host.Outcome State Fault Refusal :=
  let acc := acceptDt s o
  .next (runPtr (ptrForm 0x4C01 [0xC1] 0xF modesSet true) o s { malformed := ptrLen o != 1088 }
    (seqChecks s o.inst acc) fun bs t =>
      let h := leNat (slice bs 0 64)
      let at_ := dtCount (nfld h 96 96)
      let valid := decide (nfld h 1 1 = 1)
      let ts := if valid then max at_ (acc + 2 * dtUs) else acc + 2 * dtUs
      (updSeq t o.inst fun x => { x with pend := pendInsert ⟨ts, valid && decide (at_ < ts), seqCfgOf bs, o⟩ x.pend },
        .later))

/-- A waiting set of a group takes effect at its T_s, with its record (12 R418). (Log entry 68.) -/
def seqTakes (s : State) (g : Nat) : State :=
  let x := getSeq s g
  match x.pend with
  | [] => s
  | p :: ps =>
    if s.tb.dt < p.ts then s else
    let was := (seqNow x).enable
    let t := updSeq s g fun y =>
      { y with pend := ps, cfgs := (p.ts, p.cfg) :: y.cfgs, presented := if p.cfg.enable && !was then 0 else y.presented,
               maxTransit := if p.cfg.enable && !was then 0 else y.maxTransit,
               drain := if was && !p.cfg.enable then some p.order else y.drain }
    let t := configRecord t false g p.ts p.ts p.cfg.enable p.cfg.payload
    if was && !p.cfg.enable then seqDrained t g
    else finishThis t 0x4C01 p.order (if p.moved then 0x0C01 else stSuccess) (fld (dtWord p.ts) 16 32)

/-- 12 R418: a waiting set of a group takes effect at its T_s. -/
def execSeqGroupChange (g : Nat) (s : State) : Host.Outcome State Fault Refusal := .next (seqTakes s g)

/-! Presentation -/

/-- Presentations of a group in the present fabric cycle (12 R413). -/
def inCycle (s : State) (x : SeqGroup) : Nat := if x.cyc = elapsedCycle s then x.inCyc else 0

/-- 12 R413, R414: the group's first packet in key order is presented, once it is due, unless the fabric cycle has had four.
(Log entries 5 and 69.) -/
def execSeqPresent (g : Nat) (s : State) : Host.Outcome State Fault Refusal :=
  .next (
    let x := getSeq s g
    match x.held, x.cfgs.find? fun c => c.2.enable with
    | h :: hs, some c =>
      if !modeOk s || decide (s.tb.dt < h.due) || decide (4 ≤ inCycle s x) then s else
      match getStored s h.pkt with
      | none => updSeq s g fun y => { y with held := hs }
      | some k =>
        let q := 16 * c.2.gateway + c.2.queue
        let t := updSeq s g fun y =>
          { y with held := hs, queued := y.queued + 1, presented := y.presented + 1, lastDt := s.tb.dt,
                   cyc := elapsedCycle s, inCyc := inCycle s y + 1 }
        let r := freshId t
        let t := enqueue r.2 q ⟨r.1, h.pkt, k.bytes, occOf (getQueue s q), some g⟩ k.pkt.frame.length
        let rec_ := (seqAt x h.inDt).record
        if rec_ = 2 ∨ (rec_ = 1 ∧ h.late = true) then
          logOffer t 0x10 g h.late false t.tb.dt (seqBody k.pkt h.rank (x.presented + 1).toNat)
        else t
    | _, _ => s)

/-! FANOUT_GROUP_SET (12 R423, Table 12-7) -/

/-- A slot phase lies in the window of a lane rate (12 Table 12-2); `f` is φ in fifths of a DT unit, 327,680 to a
nanosecond. -/
def phaseOk (rate f : Nat) : Bool :=
  let inside := fun c lo hi => decide (lo * 32768 ≤ f % (c * 32768)) && decide (f % (c * 32768) ≤ hi * 32768)
  if rate = 2 then inside 128 51 100 else if rate = 1 then inside 256 81 221 else inside 512 141 463

/-- The member ports of a payload. -/
def fanMembers (bs : List Byte) : BitVec 512 := BitVec.ofNat 512 (leNat (slice bs 64 64))

/-- The checks of a FANOUT_GROUP_SET's payload; ranges bind a set that enables. (Log entry 10.) -/
def fanChecks (s : State) (g : Nat) (bs : List Byte) : Checks :=
  let h := leNat (slice bs 0 64)
  let on := decide (nfld h 0 1 = 1)
  let base := nfld h 64 96
  let bad := (membersOf s (fanMembers bs)).any fun n =>
    match getPort s n with | some c => !phaseOk c.rate (gridPhase s (5 * (dtCount base : Int))) | none => false
  { malformed := !onlyFields h [(0, 3), (8, 16), (32, 32), (64, 109)] || decide (nfld h 1 2 = 3),
    badArgument := on && (decide (nfld h 8 16 = 0) || decide (nfld h 32 32 < 1000) || decide (10000000 < nfld h 32 32) ||
      decide (nfld h 160 13 < 1) || decide (4096 < nfld h 160 13) || !dtOk base),
    chapter := if (getFan s g).drain.isSome then some 0x8C02 else if on && bad then some 0x8C01 else none }

/-- 12, Work orders: FANOUT_GROUP_SET. (Log entry 73.) -/
def execFanoutGroupSet (o : Order) (s : State) : Host.Outcome State Fault Refusal :=
  .next (runPtr (ptrForm 0x4C02 [0xC2] 0x3F modesSet true) o s { malformed := ptrLen o != 128 } (fanChecks s o.inst)
    fun bs t =>
      let g := o.inst
      let h := leNat (slice bs 0 64)
      if nfld h 0 1 = 1 then
        let t := updFan t g fun y =>
          { y with enable := true, record := nfld h 1 2, period := nfld h 8 16, leadNs := nfld h 32 32,
                   base5 := 5 * (dtCount (nfld h 64 96) : Int), limit := nfld h 160 13, members := fanMembers bs,
                   payload := padTo 128 bs }
        (configRecord t true g t.tb.dt t.tb.dt true (padTo 128 bs), .done stSuccess 0)
      else
        let t := updFan t g fun y => { y with enable := false, payload := padTo 128 bs }
        if (getFan t g).pkts.isEmpty then
          (postAll (configRecord t true g t.tb.dt t.tb.dt false (padTo 128 bs)) 0x0C05 0 (packN [(0, 1, 1), (1, 6, g)]),
            .done stSuccess 0)
        else (updFan t g fun y => { y with drain := some o }, .later))

/-! Fan-out copies -/

/-- The oldest packet of a group whose copy on a port satisfies `p`. -/
def fanFind (x : FanGroup) (port : Nat) (p : FanPkt → FanCopy → Bool) : Option (FanPkt × FanCopy) :=
  x.pkts.findSome? fun k => (k.copies.find? fun c => c.port == port && p k c).map fun c => (k, c)

/-- A fan-out copy dropped with a cause, counted at its port, and its reference ended. (Log entry 70.) -/
def fanLose (s : State) (g : Nat) (k : FanPkt) (c : FanCopy) (outcome cause : Nat) (u : BilletUpset) : State :=
  let t := updStored s k.pkt fun x => { x with cause := cause }
  pfcTryAll (fanCopyDrop (endCopy t k.pkt c.id u) g k.pkt c.port outcome cause)

/-- 12 R426: a copy is fetched and passes the egress stages, from 1 us before its instant on. `crcOk` is the check of the
billet's CRC (09 R334). -/
def execFanoutCopyPrepare (g port : Nat) (crcOk : Bool) (u : BilletUpset) (s : State) : Host.Outcome State Fault Refusal :=
  .next (
    match fanFind (getFan s g) port fun k c => c.ready.isNone && !c.done && decide (k.sched ≤ s.tb.dt + dtUs) with
    | none => s
    | some (k, c) =>
      match getStored s k.pkt with
      | none => s
      | some x =>
        if !crcOk && x.ptr.isSome then fanLose (countDrop (crcFailed s k.pkt port) port 0x93) g k c 3 0x93 u else
        let f := freshId s
        let c' := { c with id := f.1 }
        let r := runEgress f.2 x.pkt port
        let t := egressCopies r.1 port ⟨f.1, k.pkt, 0, 0, none⟩ x r.2
        match r.2.drop with
        | some cause => fanLose (countEgressDrop t port cause) g k c' 3 cause u
        | none => updCopy t g k.pkt port fun y => { y with id := f.1, ready := some (refcs r.2.frame, s.tb.dt) })

/-- A lower-numbered group has a copy for the port whose span meets the one from `start` of `units` (12 R425).
(Log entry 71.) -/
def lowerClaims (s : State) (g port start units : Nat) : Bool :=
  (List.range g).any fun h =>
    (getFan s h).pkts.any fun k => k.copies.any fun c =>
      c.port == port && !c.done && (match c.ready with
        | some r =>
          let due := copyDue s k port
          decide (due < start + units) && decide (start < due + psUnits (wirePs s port r.1.length))
        | none => false)

/-- A member port's lane rate still has the phase of the group's slots in its window (12 R423). -/
def slotSafe (s : State) (g port : Nat) : Bool :=
  match getPort s port with | some c => phaseOk c.rate (gridPhase s (getFan s g).base5) | none => true

/-- A fan-out copy begins (12 R425, R426): on its instant, or as soon after it as it is ready and the port is free.
(Log entry 71.) -/
def fanBegin (s : State) (g port : Nat) (k : FanPkt) (c : FanCopy) (bytes : List Byte) (readyDt : Nat) : State :=
  let p := getSched s port
  let due := copyDue s k port
  let start := max due (max readyDt p.freeDt)
  let moved := c.blocked || decide (due < readyDt) || (p.lastFan && decide (due < p.freeDt))
  let safe := inProtected s port start (psUnits (wirePs s port bytes.length)) && slotSafe s g port
  let t := startTx s port (.fanout g k.pkt c.id) bytes start
  let t := finaliseStored t k.pkt (Finish.sent port start 0 moved)
  let t := updCopy t g k.pkt port fun y =>
    { y with done := true, outcome := if moved then 1 else 0, delay := if moved then start - due else 0 }
  let t := updFan t g fun y =>
    { y with movedCnt := if moved then y.movedCnt + 1 else y.movedCnt,
             unprotected := if safe then y.unprotected else y.unprotected + 1,
             pkts := y.pkts.map fun j =>
               if j.pkt = k.pkt then { j with moved := j.moved || moved, unprot := j.unprot || !safe } else j }
  let t := if moved then winEvent t 0x0C03 g g 32 32 1 else t
  fanDone t g k.pkt

/-- 12 R425, R426: a copy of a group on a port, whose instant has come and which is ready, begins; a port faulted at that
instant drops it; behind another release it waits and is recorded as moved. (Log entry 71.) -/
def execFanoutCopyRelease (g port : Nat) (u : BilletUpset) (s : State) : Host.Outcome State Fault Refusal :=
  .next (
    match fanFind (getFan s g) port fun k c => !c.done && decide (copyDue s k port ≤ s.tb.dt) with
    | none => s
    | some (k, c) =>
      let wait := fun (fan : Bool) => updCopy s g k.pkt port fun y => { y with tried := true, blocked := y.blocked || fan }
      if linkFault s port && !c.tried then fanLose (countDrop s port 0xC7) g k c 2 0xC7 u
      else match c.ready with
        | none => wait false
        | some r =>
          match (getSched s port).tx with
          | some x => wait (match x.kind with | .fanout _ _ _ => true | _ => false)
          | none =>
            let start := max (copyDue s k port) (max r.2 (getSched s port).freeDt)
            if !portFree s port then wait false
            else if lowerClaims s g port start (psUnits (wirePs s port r.1.length)) then wait true
            else fanBegin s g port k c r.1 r.2)

/-- 12 R426: a copy that has not begun 4 ms after its instant is dropped. -/
def execFanoutStale (g port : Nat) (u : BilletUpset) (s : State) : Host.Outcome State Fault Refusal :=
  .next (
    match fanFind (getFan s g) port fun k c => !c.done && decide (copyDue s k port + 4 * dtMs ≤ s.tb.dt) with
    | none => s
    | some (k, c) => fanLose (countDrop s port 0xC6) g k c 4 0xC6 u)

end Sys2Proof.Machine
end

