-- ==== Sys2Proof/Machine/Packets.lean ====
section
/-! DEFINITION. The commands of the packet path at steps 2 to 7 (05 R171, 07 R223 to R254, 09 R338) and the commands of
chapter 07 on the host map, spraying and multicast. -/

namespace Sys2Proof.Machine

/-! Steps 2 to 7 -/

/-- 05 R171: a frame received on port `n`. -/
def execFrameReceived (n : Nat) (f : List Byte) (k syms : Nat) (marked : Bool) (s : State) :
    Host.Outcome State Fault Refusal := .next (receiveFrame s n f k syms marked)

/-- 11 R396: a MAC Control frame received on port `n`. -/
def execPfcFrameReceived (n : Nat) (f : List Byte) (k syms : Nat) (marked : Bool) (s : State) :
    Host.Outcome State Fault Refusal := .next (if isControl f then receiveFrame s n f k syms marked else s)

/-- 07 R223: the oldest accepted frame of port `n` reaches step 3. A drain marker goes to its receiver (R254).
(Log entry 91.) -/
def execPacketIngress (n : Nat) (s : State) : Host.Outcome State Fault Refusal :=
  .next (
    match s.fwd.accepted.find? fun a => a.port == n with
    | none => s
    | some a =>
      let p := packetOf s a
      let t := s.updFwd fun w => { w with accepted := w.accepted.erase a, nextId := w.nextId + 1 }
      let t := countFlight t p.ver 1 0
      match p.rx with
      | some sh =>
        if sh.kind = 1 then t.updFwd fun w => { w with markersIn := w.markersIn ++ [p] } else ingress t p
      | none => ingress t p)

/-- 09 R329, R338: the claim of a requester whose turn it is: its packet is admitted, stored and handed to step 7, or goes to the next
pool. (Log entries 62 and 91.) -/
def execPacketStore (req : Nat) (upset : GrantUpset) (s : State) : Host.Outcome State Fault Refusal :=
  .next (
    let c := claimCycle s
    match nextClaim c req with
    | none => s
    | some w => if claimTurn c = some req then pfcTryAll (storePacket (grantUpset (countClaim c req) upset) w) else s)

/-! The host map (07 R235) -/

def getHostMap (s : State) (i : Nat) : HostMap := SMap.get (fun _ => HostMap.reset) s.fwd.hostMap i
def putHostMap (s : State) (i : Nat) (h : HostMap) : State :=
  s.updFwd fun w => { w with hostMap := SMap.put (fun _ => HostMap.reset) w.hostMap i h }

/-- 07 R260: READ_HOSTMAP. -/
def execReadHostmap (o : Order) (s : State) : Host.Outcome State Fault Refusal :=
  .next (runOrder (readForm 0x0704 [0x75] 0x3F [] 0 modesOn) o s {} fun t =>
    let h := getHostMap t o.inst
    (t, .done stSuccess (packN [(0, 2, h.master), (2, 8, h.ring), (10, 1, b2n h.enable), (32, 32, h.discards.toNat)])))

/-- 07 R235: HOSTMAP_SET. -/
def execHostmapSet (o : Order) (s : State) : Host.Outcome State Fault Refusal :=
  .next (runOrder (setForm 0x4707 [0x75] 0x3F [(0, 11)] modesSet true) o s { malformed := decide (o.f 0 2 = 3) } fun t =>
    (putHostMap t o.inst ⟨o.f 0 2, o.f 2 8, o.b 10, 0⟩, .done stSuccess 0))

/-- A packet-to-host slot (02 R60). -/
def slotBytes (p : Pkt) (frame : List Byte) (reason room : Nat) (phase : Bool) : List Byte :=
  bytesLE 64 (packN [(0, 16, frame.length), (16, 9, p.port), (25, 1, b2n phase), (26, 1, b2n (decide (room < frame.length))),
    (32, 16, reason), (48, 16, verNum p.ver), (64, 96, (dtWord p.inDt).toNat)]) ++ frame.take room

/-- The ring that an entry of the host map names, while copies can go to it (07 R235). (Log entries 14 and 47.) -/
def hostRing (s : State) (h : HostMap) : Option (Master × Nat) :=
  match mOf h.master with
  | some m =>
    let r := getRing s m h.ring
    if h.enable && attached s m && r.enable && r.type == 3 && !r.stopped && decide (h.ring < ringCount m) then some (m, h.ring)
    else none
  | none => none

/-- A record or slot lost to a full ring (02 R57). (Log entry 47.) -/
def ringLost (s : State) (m : Master) (n : Nat) : State :=
  updRing s m n fun r => { r with overflow := true, lost := satAdd 16 r.lost 1 }

/-- A host copy written, or discarded and counted; and whether it was written. (Log entry 47.) -/
def hostWrite (s : State) (c : HostCopy) (p : Pkt) : State × Bool :=
  let h := getHostMap s c.entry
  match hostRing s h with
  | none => (putHostMap s c.entry { h with discards := h.discards + 1 }, false)
  | some (m, n) =>
    if ringFull (getRing s m n) then (ringLost s m n, false)
    else (ringPut s m n false (slotBytes p c.frame c.reason (entryBytes (getRing s m n) - 64)), true)

/-- 07 R235: the oldest waiting host copy is written to its ring or discarded; its read of the billet is checked (09 R334).
(Log entry 47.) -/
def execHostSlotWrite (crcOk : Bool) (u : BilletUpset) (s : State) : Host.Outcome State Fault Refusal :=
  .next (
    match s.fwd.hostCopies with
    | [] => s
    | c :: cs =>
      let t := s.updFwd fun w => { w with hostCopies := cs }
      match getStored t c.pkt with
      | none => t
      | some x =>
        let dead := !crcOk && x.ptr.isSome
        let r := if dead then (countDrop (crcFailed t c.pkt x.pkt.port) x.pkt.port 0x93, false) else hostWrite t c x.pkt
        let t := if r.2 && c.whole then finaliseStored r.1 c.pkt Finish.eaten else r.1
        let t := if dead && c.whole then updStored t c.pkt fun y => { y with cause := 0x93 } else t
        pfcTryAll (match c.carrier with | some k => carriedDone t k u | none => endRef t c.pkt u))

/-! Spraying (07 R251 to R254) -/

/-- 07 R260: READ_SPRAY_RX. -/
def execReadSprayRx (o : Order) (s : State) : Host.Outcome State Fault Refusal :=
  .next (runOrder (readForm 0x0705 [0x77] 0 [] 0 modesOn) o s {} fun t =>
    (t, .done stSuccess (packN [(0, 17, t.fwd.ctxs.length), (32, 32, t.fwd.noContext.toNat)])))

/-- 07 R252: SPRAY_SET. -/
def execSpraySet (o : Order) (s : State) : Host.Outcome State Fault Refusal :=
  .next (runOrder (setForm 0x4709 [0x77] 0 [(0, 45)] modesSet true) o s
    { badArgument := decide (o.f 17 12 = 0) || decide (o.f 29 16 < 10) } fun t =>
    (t.updFwd fun w => { w with spraySet := ⟨o.f 0 16, o.b 16, o.f 17 12, o.f 29 16⟩ }, .done stSuccess 0))

/-- The members that a SPRAY_GROUP_SET names. -/
def sprayMembers (o : Order) : List Nat := (List.range (o.f 0 5)).map fun m => o.f (6 + 9 * m) 9

/-- A drain marker frame (07 R254): 64 bytes with the addresses of the path's last packet. -/
def markerFrame (s : State) (g paths epoch : Nat) (c : Carried) : List Byte :=
  withFcs (padTo 60 (c.mac ++ bytesBE 12 (packN [(80, 16, shimType s), (64, 16, s.fwd.spraySet.sender), (48, 16, 1024 * g),
    (12, 4, epoch), (8, 4, 1), (0, 8, paths)])))

/-- A drain marker queued behind the old epoch's data of one path. It holds no billet. -/
def queueMarker (g paths epoch : Nat) (s : State) (c : Carried) : State :=
  let r := freshId s
  let f := markerFrame s g paths epoch c
  let p : Pkt :=
    { id := r.1, port := c.port, frame := f, len0 := f.length, head := [], inDt := s.tb.dt, arrSeq := 0, hv := [],
      ver := activeSeq s, dec := Decision.reset, diverged := false, unlocked := false, rx := none, tx := none, escTag := 0,
      esc := 0, sat := false, lathe := 7, prog := 0, late := false, origin := none }
  let t := putStored r.2 r.1 (some ⟨.marker g, p, none, 0, 1, 1, none, true, 0, none, []⟩)
  let k := freshId t
  enqueue k.2 (16 * c.port + c.queue) ⟨k.1, r.1, 0, occOf (getQueue s (16 * c.port + c.queue)), none⟩ f.length

/-- 07 R254: SPRAY_GROUP_SET. (Log entry 49.) -/
def execSprayGroupSet (o : Order) (s : State) : Host.Outcome State Fault Refusal :=
  let ms := sprayMembers o
  let fields := (0, 6) :: (List.range (min 16 (o.f 0 5))).map fun m => (6 + 9 * m, 9)
  .next (runOrder (setForm 0x470A [0x78] 0x3F [(0, 150)] modesSet true) o s
    { malformed := decide (o.f 0 5 ≤ 16) && !onlyFields o.payload.toNat fields,
      badArgument := decide (16 < o.f 0 5) || decide (ms.eraseDups.length < ms.length) || ms.any (fun n => !portExists s n),
      chapter := if (getGroup s o.inst).waits then some 0x8707 else none } fun t =>
    let g := o.inst
    let x := getGroup t g
    if x.members = ms ∧ x.mode = o.b 5 then (t, .done stSuccess (x.epoch % 16))
    else
      let n := x.carried.length
      let t1 := updGroup t g fun y =>
        { y with mode := o.b 5, members := ms, epoch := (y.epoch + 1) % 16, last := 15, carried := [], markers := n,
                 waits := n != 0 }
      let t2 := x.carried.foldl (queueMarker g n x.epoch) t1
      (t2, if n = 0 then .done stSuccess ((x.epoch + 1) % 16) else .later))

/-- 07 R254: the last drain marker of a group has been transmitted. -/
def execSprayMarkersSent (g : Nat) (s : State) : Host.Outcome State Fault Refusal :=
  .next (
    let x := getGroup s g
    if x.waits ∧ x.markers = 0 then
      let t := updGroup s g fun y => { y with waits := false }
      match findRunning t 0x470A fun o => o.inst == g with
      | some r => finishOrder t r stSuccess (x.epoch % 16)
      | none => t
    else s)

/-- A context by its sender and flow. -/
def findCtx (s : State) (sender flow : Nat) : Option SprayCtx :=
  s.fwd.ctxs.find? fun c => c.sender == sender && c.flow == flow

/-- 07 R253: the oldest gap of a context has lasted RX_TIMEOUT_US and is skipped, unless R254 suspends that.
(Log entry 49.) -/
def execSprayRxTimeout (sender flow : Nat) (s : State) : Host.Outcome State Fault Refusal :=
  .next (
    match findCtx s sender flow with
    | none => s
    | some c =>
      let since := c.held.foldl (fun a h => min a h.at_) s.tb.now
      if !c.held.isEmpty && decide (since + s.fwd.spraySet.rxTimeoutUs * 1000 ≤ s.tb.now) && !skipSuspended s c then
        let r := skipGap s c
        updCtxOf r.1 r.2
      else s)

/-- Every gap of a context skipped in turn. -/
def skipAll : Nat → State → SprayCtx → State
  | 0, s, _ => s
  | n + 1, s, c => if c.held.isEmpty then s else let r := skipGap s c; skipAll n r.1 r.2

/-- 07 R253: a context without packets for 1 ms is freed; what it holds is released in order. -/
def execSprayContextFree (sender flow : Nat) (s : State) : Host.Outcome State Fault Refusal :=
  .next (
    match findCtx s sender flow with
    | none => s
    | some c =>
      if c.lastAt + 1000000 ≤ s.tb.now then
        (skipAll c.held.length s c).updFwd fun w =>
          { w with ctxs := w.ctxs.filter fun x => !(x.sender == sender && x.flow == flow) }
      else s)

/-- 07 R254: a drain marker reaches its receiver and is consumed, with its shaving (15 R475). -/
def execSprayDrainMarkerReceived (s : State) : Host.Outcome State Fault Refusal :=
  .next (
    match s.fwd.markersIn with
    | [] => s
    | p :: ps =>
      let t := s.updFwd fun w => { w with markersIn := ps }
      let t := countFlight (finalise t p none 0 Finish.eaten) p.ver 0 1
      match p.rx with
      | none => t
      | some sh =>
        let g := sh.flow / 1024
        (drainSeen t sh.sender g sh.epoch).updFwd fun w =>
          { w with drains := w.drains.map fun d =>
              if d.sender = sh.sender ∧ d.group = g ∧ d.epoch = sh.epoch then { d with got := d.got + 1, paths := sh.paths }
              else d })

/-- 07 R254: DRAIN_LIMIT_US has passed since the wait for an epoch's markers began; skips resume. (Log entry 49.) -/
def execSprayDrainLimit (sender group : Nat) (s : State) : Host.Outcome State Fault Refusal :=
  .next (s.updFwd fun w =>
    { w with drains := w.drains.filter fun d =>
        !(d.sender == sender && d.group == group &&
          decide (d.since + s.fwd.spraySet.drainLimitUs * 1000 ≤ s.tb.now)) })

/-! Multicast (07 R255 to R257) -/

/-- The MCAST_SET payload in force. -/
def mcastWord (x : Mcast) : Nat :=
  packN [(0, 1, b2n x.enable), (1, 1, b2n x.prune), (2, 1, b2n x.ovr), (3, 4, x.ovrQueue), (512, 512, x.members.toNat)]

/-- 07 R260: READ_MCAST. -/
def execReadMcast (o : Order) (s : State) : Host.Outcome State Fault Refusal :=
  .next (runOrder (readForm 0x0706 [0x79] 0xFFF [] 128 modesOn) o s {} fun t =>
    let x := SMap.get (fun _ => Mcast.reset) t.fwd.mcast o.inst
    (t, .result (bytesLE 128 (mcastWord x)) x.replicated.toNat))

/-- 07 R257: MCAST_SET. -/
def execMcastSet (o : Order) (s : State) : Host.Outcome State Fault Refusal :=
  .next (runPtr (ptrForm 0x470B [0x79] 0xFFF modesSet true) o s { malformed := ptrLen o != 128 }
    (fun bs => { malformed := !onlyFields (leNat (padTo 128 bs)) [(0, 7), (512, 512)] })
    fun bs t =>
      let w := leNat (padTo 128 bs)
      let f := fun i => decide (nfld w i 1 = 1)
      (t.updFwd fun x => { x with mcast := SMap.upd (fun _ => Mcast.reset) x.mcast o.inst fun y =>
        ⟨f 0, f 1, f 2, nfld w 3 4, BitVec.ofNat 512 (w / 2 ^ 512), y.replicated⟩ }, .done stSuccess 0))

end Sys2Proof.Machine
end

