-- ==== Sys2Proof/Machine/Pcs.lean ====
section
/-! DEFINITION. The commands of chapter 05: orders of Table 5-6, markers and link idle structures, fault signalling,
defects, performance monitoring; and the native link time transfer's samples (06 R205 to R207). -/

namespace Sys2Proof.Machine

/-! Orders -/

/-- The PCS record (05 Table 5-7). -/
def pcsRecord (s : State) (n : Nat) : Nat :=
  let p := getPcs s n
  packN ([(0, 7, p.defects.toNat), (8, 7, p.seen.toNat), (15, 1, b2n p.pm.unavailable), (64, 64, p.codewords.toNat),
    (128, 64, p.corrCw.toNat), (192, 64, p.ucw.toNat), (256, 64, p.corrSym.toNat), (320, 48, p.discUcw.toNat),
    (368, 48, p.discFcs.toNat), (416, 48, p.discRunt.toNat), (464, 48, p.discOver.toNat), (512, 48, p.discMode.toNat)] ++
    ((portPLs s n).zipIdx.map fun x => (16 + x.2, 1, b2n (getLane s x.1).marker)) ++
    (p.laneSym.zipIdx.map fun x => (576 + 32 * x.2, 32, x.1)))

/-- 05 R188: READ_PCS. -/
def execReadPcs (o : Order) (s : State) : Host.Outcome State Fault Refusal :=
  .next (runOrder (readForm 0x0501 [0x51] 0xFFFFFF [] 128 modesOn) o s { badObject := !portExists s o.inst } fun t =>
    (t, .result (bytesLE 128 (pcsRecord t o.inst)) 0))

/-- A bin record (05 Table 5-10). -/
def binRecord (b : Bin) : Nat :=
  packN [(0, 48, b.start), (48, 1, b2n b.final), (49, 1, b2n b.suspect), (50, 1, b2n b.part), (64, 32, b.elapsed),
    (96, 32, b.es), (128, 32, b.ses), (160, 32, b.uas), (192, 64, b.ucw)]

/-- The bins READ_PM returns: a bin that does not exist reads as zero (05 R189). -/
def pmBytes (bins : List Bin) (first count : Nat) : List Byte :=
  padTo (up64 (32 * count)) ((List.range count).flatMap fun i =>
    bytesLE 32 (match bins[first + i]? with | some b => binRecord b | none => 0))

/-- 05 R189: READ_PM. -/
def execReadPm (o : Order) (s : State) : Host.Outcome State Fault Refusal :=
  let first := o.f 8 8
  let count := o.f 16 8
  let c : Checks :=
    { badObject := !portExists s o.inst,
      badArgument := decide (count < 1) || decide (97 < count) || decide ((if o.b 0 then 2 else 97) < first + count) }
  .next (runOrder (readForm 0x0502 [0x51] 0xFFFFFF [(0, 1), (8, 16)] 64 modesOn) o s c fun t =>
    let m := (getPcs t o.inst).pm
    (t, .result (pmBytes (if o.b 0 then m.h24 else m.q15) first count)
      (packN [(0, 1, b2n m.unavailable), (4, 4, m.run.length)])))

/-- A neighbour record (05 Table 5-11). -/
def neighbourRecord (b : Neighbour) : Nat :=
  packN [(0, 128, b.fingerprint.toNat), (128, 16, b.version.toNat), (144, 1, b2n b.diverged),
    (145, 1, b2n b.committedValid), (146, 1, b2n b.stale), (147, 1, b2n b.never), (160, 96, (dtWord b.arrival).toNat)]

/-- 05 R190: READ_NEIGHBOUR; a standard port has NEVER set and nothing else. On the JG-204-S the function is absent (00 R3). -/
def execReadNeighbour (o : Order) (s : State) : Host.Outcome State Fault Refusal :=
  .next (runOrder (readForm 0x0503 [0x51] 0xFFFFFF [] 64 modesOn) o s { badObject := !portExists s o.inst } fun t =>
    (t, .result (bytesLE 64 (neighbourRecord (if isNative t o.inst then (getPcs t o.inst).nb else Neighbour.reset))) 0))

/-- The fields of PCS_SET, SET and CLEAR by defect bit (05 Table 5-8), over those in force: SES_EXP counts from the next second and
MAX_FRAME for frames that start after `now` (R187). -/
def pcsSetFields (o : Order) (old : PcsSet) (now : Nat) : PcsSet :=
  { set := [o.f 0 20, o.f 40 20, o.f 80 20, o.f 240 8, o.f 120 20, o.f 160 20, o.f 200 20],
    clear := [o.f 20 20, o.f 60 20, o.f 100 20, o.f 248 8, o.f 140 20, o.f 180 20, o.f 220 20],
    sesExp := o.f 256 4, sesNow := old.sesNow, hiserFault := o.b 260, maxFrame := o.f 262 14, maxOld := old.maxFrame,
    maxAt := now, losLevel := signed 10 (o.f 276 10) }

/-- PCS_SET's ranges (05 Tables 5-4, 5-8). -/
def pcsSetBad (p : PcsSet) : Bool :=
  let times := [0, 1, 2, 4, 5].flatMap fun b => [p.set.getD b 0, p.clear.getD b 0]
  let lsip := [p.set.getD 6 0, p.clear.getD 6 0]
  let win := [p.set.getD 3 0, p.clear.getD 3 0]
  times.any (fun x => decide (1000000 < x)) || lsip.any (fun x => decide (x < 1000) || decide (1000000 < x)) ||
    win.any (fun x => decide (x < 1)) || decide (p.sesExp < 3) || decide (9 < p.sesExp) || decide (p.maxFrame < 1518)

/-- 05 R187: PCS_SET writes every field at once. -/
def execPcsSet (o : Order) (s : State) : Host.Outcome State Fault Refusal :=
  let new := pcsSetFields o (getPcsSet s o.inst) s.tb.now
  let c : Checks := { badObject := !portExists s o.inst, badArgument := pcsSetBad new }
  .next (runOrder (setForm 0x4501 [0x51] 0xFFFFFF [(0, 261), (262, 24)] [.prepare, .service] true) o s c fun t =>
    let u := t.updPcs fun x => { x with sets := SMap.put (fun _ => PcsSet.reset) x.sets o.inst new }
    (refreshLoam u o.inst, .done stSuccess 0))

/-- 05 R175: DEFECT_ACK clears SEEN latches whose defect is not set. -/
def execDefectAck (o : Order) (s : State) : Host.Outcome State Fault Refusal :=
  .next (runOrder (setForm 0x4502 [0x51] 0xFFFFFF [(0, 7)] [.prepare, .service, .coast] true) o s
    { badObject := !portExists s o.inst } fun t =>
    let u := updPcsPort t o.inst fun p => { p with seen := p.seen &&& (~~~(BitVec.ofNat 7 (o.f 0 7)) ||| p.defects) }
    (u, .done stSuccess (getPcs u o.inst).seen.toNat))

/-! Link idle structures (05 R165, R166) and the time slot (06 R205) -/

/-- The time slot that follows a marker (06 Table 6-6): `tx` and `rx` are the marker departed before it and the last
far-end marker received before it. -/
def timeSlot (s : State) (n : Nat) (tx rx : Option Mark) : Nat :=
  let l := getLtt s n
  let tv := tx.getD ⟨0, 0, 0⟩
  let rv := rx.getD ⟨0, 0, 0⟩
  packN [(240, 16, tv.count.toNat), (144, 96, (dtWord tv.dt).toNat), (128, 16, rv.count.toNat), (32, 96, (dtWord rv.dt).toNat),
    (31, 1, b2n (tx.isSome && l.enable)), (30, 1, b2n (rx.isSome && l.enable)), (29, 1, b2n (tbLocked s.tb)),
    (28, 1, b2n l.pathToSend), (16, 8, hops s)]

/-- The DT captured at a lane, its fixed delay subtracted (06 R208). -/
def capture (s : State) (p : Nat) (tx : Bool) : Nat := s.tb.dt - Config.laneDelay p tx

/-- The SWITCH flag of the next marker of a lane (05 Table 5-2, 04 R142). -/
def switchNow (s : State) (p : Nat) : Bool :=
  match (getEng s (p / 17)).hs with | some h => h.sw == 1 && oldLane (p / 17) h == p | none => false

/-- The marker block that a lane of a native port sends next (05 R164). -/
def nextMarker (s : State) (n p : Nat) : BitVec 257 :=
  markerBlock (posOf s n p) (match getPort s n with | some c => c.width | none => 0) (switchNow s p)
    ((getLane s p).mcount + 1)

/-- A lane of a native port sends its marker, on the lanes that carry its position. Position 0 keeps its departure, works the chain for
every lane, and the structure after it carries the time slot (05 R164, R165; 06 R205). -/
def sendMarker (s : State) (n p : Nat) : State :=
  let b := nextMarker s n p
  let t := (txLanes s p).foldl (fun u q => u.emit (.marker q b)) s
  if posOf s n p ≠ 0 then t else
  let t := lineWork t n fun w l => lineMarkers w l ((portPLs s n).map (nextMarker s n))
  let q := getLtt t n
  let t := sendIdle t n (timeSlot t n q.tx.head? q.rx.head?) false true
  updLtt t n fun x =>
    { x with tx := (⟨(getLane s p).mcount + 1, capture s p true, s.tb.now⟩ :: x.tx).take 4, pathToSend := false }

/-- 05 R164, R165; 06 R208: a lane of a port sends a marker, its departure captured. SWITCH goes out in it when a sparing asks for
it (04 Table 4-10). -/
def execMarkerTransmit (p : Nat) (s : State) : Host.Outcome State Fault Refusal :=
  .next (
    match portOfPL s p with
    | none => s
    | some n =>
      let sw := switchNow s p
      let t := if isNative s n then sendMarker s n p else s.emit (.alignMarker p)
      let t := updLane t p fun l => { l with mcount := l.mcount + 1, txMark := some (l.mcount + 1, capture s p true) }
      if sw then
        advanceSpare (updEng t (p / 17) fun g => { g with hs := g.hs.map fun h => { h with sw := 2 } }) (p / 17)
      else t)

/-- 01 R41, 05 R165: each native port sends the millisecond advertisement, once for each multiple of 1,000,000 that the DT
nanoseconds reach. -/
def execFpAdvertise (s : State) : Host.Outcome State Fault Refusal :=
  .next (
    if s.mode.mode == .dormant || s.mode.mode == .halt || s.tb.dt / dtMs == s.pcs.advMs then s else
    ((portList s).filter (isNative s)).foldl (fun t n => sendIdle t n 0 true false)
      (s.updPcs fun p => { p with advMs := s.tb.dt / dtMs }))

/-- 01 R41: 3 ms without an advertisement mark a port's stored values stale. -/
def execNeighbourStale (n : Nat) (s : State) : Host.Outcome State Fault Refusal :=
  .next (
    let b := (getPcs s n).nb
    if isNative s n && !b.never && !b.stale && decide (b.arrivedAt + 3000000 ≤ s.tb.now) then
      updPcsPort s n fun p => { p with nb := { p.nb with stale := true } }
    else s)

/-! Markers received (05 R167, R168) -/

/-- The port whose markers a lane's receiver takes: its own, or, for a lane that a sparing brings into service, the spare port. -/
def markerPort (s : State) (p : Nat) : Option Nat :=
  match portOfPL s p with
  | some n => some n
  | none =>
    match (getEng s (p / 17)).hs with
    | some h => if newLane (p / 17) h == p then (getEng s (p / 17)).sparePort else none
    | none => none

/-- The search of PCS lane `k` on a lane. -/
def getSearch (s : State) (p k : Nat) : Search := (getLane s p).search.getD k Search.reset

/-- A lane's search of PCS lane `k` changed: it holds marker lock while every PCS lane it carries does (05 R168), and loses
it with LOCK_HELD, its scans and LOAM following (R170). -/
def setSearch (s : State) (p k : Nat) (w : Search) : State :=
  let ws := (getLane s p).search.set k w
  let on := !ws.isEmpty && ws.all fun x => x.lock
  let was := (getLane s p).marker
  let t := updLane s p fun l => { l with search := ws, marker := on, lost := l.lost || (was && !on) }
  if on = was then t else refreshLane (if on then t else spoilScans t p) p

/-- A native lane loses marker lock at once, beyond the skew its port tolerates (05 R169). -/
def dropLock (s : State) (p : Nat) : State :=
  let ws := (getLane s p).search.map fun w => { Search.reset with resume := w.pos + 1 }
  refreshLane (updLane (spoilScans s p) p fun l => { l with search := ws, marker := false, lost := true }) p

/-- The lanes of a port that hold lock and whose last marker is the same as lane `p`'s: by MCOUNT on a native port, else by
its nearness. -/
def sameMarker (s : State) (c : PortCfg) (p : Nat) (qs : List Nat) : List Nat :=
  qs.filter fun q =>
    let a := getLane s p
    let b := getLane s q
    q != p && b.marker && a.rxMark.isSome &&
      (if c.rate = 2 then b.rxMark.map Prod.fst == a.rxMark.map Prod.fst
       else decide ((a.markAt - b.markAt) * 2 < Config.amPeriod c.rate c.width * (pcsKind c).perLane / 100))

/-- The lanes of the port all in lock, a lane whose marker comes later than another's by more than the skew tolerated is treated
as having lost lock (05 R169). (Log entry 94.) -/
def deskew (s : State) (n p : Nat) : State :=
  match getPort s n with
  | some c =>
    let ls := rxPLs s n
    if ls.all (fun q => (getLane s q).marker) &&
        (sameMarker s c p ls).any (fun q => decide ((getLane s q).markAt + skewNs c < (getLane s p).markAt)) then dropLock s p
    else s
  | none => s

/-- The lane that a sparing brings into service is deskewed at a marker (04 Table 4-10 steps 3 and 4): it holds lock, and its marker came within
the skew of the same one on a lane of the port; where no other lane holds lock there is nothing to deskew against (DEDUCED, log
entry 95). -/
def spareDeskewed (s : State) (e : Nat) (h : Handshake) : Bool :=
  let new := newLane e h
  match (getEng s e).sparePort with
  | some n =>
    match getPort s n with
    | some c =>
      let ls := (portPLs s n).filter fun q => q != new && (getLane s q).marker
      (getLane s new).marker && (getLane s new).rxMark.isSome && (ls.isEmpty || ls.any fun q =>
        (getLane s q).rxMark.map Prod.fst == (getLane s new).rxMark.map Prod.fst &&
          decide ((getLane s q).markAt ≤ (getLane s new).markAt + skewNs c) &&
          decide ((getLane s new).markAt ≤ (getLane s q).markAt + skewNs c))
    | none => false
  | none => false

/-- What a marker means to a sparing (04 Table 4-10): deskewing, and the far end's SWITCH, at which the receiver changes over. -/
def spareMarker (s : State) (e pos : Nat) (sw : Bool) : State :=
  match (getEng s e).hs with
  | none => s
  | some h =>
    let desk := h.deskewed || spareDeskewed s e h
    let took := sw && pos == h.pos && desk && (h.sentAck || h.sw != 0)
    let t := updEng s e fun g => { g with hs := some { h with deskewed := desk, taken := h.taken || took } }
    let t := if took && !h.taken then (match (getEng s e).sparePort with | some n => refreshLoam t n | none => t) else t
    advanceSpare t e

/-- A marker taken as such on a lane (06 R205, R208): its arrival captured, the markers of the port compared, the wait for
the structure after it (LSIP), and a sparing that waits for a marker. -/
def markerTaken (s : State) (n p : Nat) (m : MarkerSeen) : State :=
  let count := BitVec.ofNat 16 (fld m.block 96 16)
  let at_ := capture s p false
  let t := updLane s p fun l => { l with rxMark := some (count, at_), markAt := s.tb.now }
  let t := deskew t n p
  if !isNative s n then t else
  let late := match (getPcs t n).lsipFor with | some c => c != count | none => false
  let t := if late && (getPcs t n).lockSince.isSome then setRaw t n 6 true else t
  let t := if (getPcs t n).lockSince.isSome && (getPcs t n).lsipFor != some count then
      updPcsPort t n fun q => { q with lsipFor := some count } else t
  let t := if (getLane s p).ll = some n ∨ rxLane s (plOf s n) = p then
      updLtt t n fun x => { x with rx := (⟨count, at_, s.tb.now⟩ :: x.rx).take 4 } else t
  spareMarker t (p / 17) (fld m.block 117 3) (bit m.block 114)

/-- The marker pattern is there: in native mode MW and its complement with at most 4 bits in error, else as the clause
permits (05 R167). -/
def patternSeen (s : State) (n : Nat) (m : MarkerSeen) : Bool := if isNative s n then isMarker m.block else m.clause

/-- 05 R167, R168; 06 R208: a marker pattern arrives at a bit position. In lock, at its expected place, it is a marker; out of lock it is
a candidate, and its second confirmation gains lock. -/
def execMarkerReceived (p : Nat) (m : MarkerSeen) (s : State) : Host.Outcome State Fault Refusal :=
  .next (
    match markerPort s p with
    | some n =>
      match getPort s n with
      | some c =>
        if !(getLane s p).cdr || !patternSeen s n m || decide ((getLane s p).search.length ≤ m.pcsLane) then s
        else
          let r := (getSearch s p m.pcsLane).seen (markerPeriod c) m.pos
          let t := setSearch s p m.pcsLane r.1
          if r.2 && (getLane t p).marker && m.pcsLane == 0 then markerTaken t n p m else t
      | none => s
    | none => s)

/-- 05 R167, R168: an expected marker position passes without a match: out of lock the candidate there is dropped; in lock
the third miss in a row loses it. -/
def execMarkerPositionMiss (p k pos : Nat) (s : State) : Host.Outcome State Fault Refusal :=
  .next (
    match (markerPort s p).bind (getPort s) with
    | some c =>
      if (getLane s p).search.length ≤ k then s
      else setSearch s p k ((getSearch s p k).missed (markerPeriod c) pos)
    | none => s)

/-! Structures received -/

/-- Half of an integer, rounded to the nearest, ties to even (06 R206). -/
def halfEven (x : Int) : Int := if x % 2 = 0 then x / 2 else if (x / 2) % 2 = 0 then x / 2 else x / 2 + 1

/-- The marker with a count among those held. -/
def heldMarker (ms : List Mark) (c : BitVec 16) : Option Mark := ms.find? fun m => m.count == c

/-- A sample formed from an accepted slot (06 R206, R207): DELAY and OFFSET, none when invalid. -/
def lttSample (l : Ltt) (slot : Nat) : Option (Int × Int) :=
  let t1 := heldMarker l.tx (BitVec.ofNat 16 (nfld slot 128 16))
  let t4 := heldMarker l.rx (BitVec.ofNat 16 (nfld slot 240 16))
  match t1, t4 with
  | some a, some d =>
    let b : Int := dtCount (nfld slot 32 96)
    let c : Int := dtCount (nfld slot 144 96)
    let clean := match l.pathAt with | some x => decide (x < a.at_) | none => true
    if nfld slot 31 1 = 1 ∧ nfld slot 30 1 = 1 ∧ nfld slot 28 1 = 0 ∧ clean = true ∧ l.enable = true then
      some (halfEven (((d.dt : Int) - a.dt) - (c - b)), halfEven ((b - (a.dt : Int)) - ((d.dt : Int) - c) - l.asym))
    else none
  | _, _ => none

/-- A slot accepted on a port (06 R207, Table 6-15). -/
def takeSlot (s : State) (n slot : Nat) : State :=
  updLtt s n fun l =>
    match lttSample l slot with
    | some x =>
      { l with samples := (x :: l.samples).take 16, farLocked := nfld slot 29 1 == 1, farHops := nfld slot 16 8,
               sampleDt := s.tb.dt }
    | none => { l with samples := [], farLocked := nfld slot 29 1 == 1, farHops := nfld slot 16 8 }

/-- A request served (04 Table 4-10 step 2): the lane mirrored. The responder does not know the trigger: the cause it reports is 3, or 4
for a reversion (DESIGN CHOICE, log entry 95). -/
def serveSpare (s : State) (e pl pos seq : Nat) (revert : Bool) : State :=
  let h : Handshake :=
    { requester := false, peer := some seq, revert := revert, pos := pos, pl := pl, seq := 0, cause := if revert then 4 else 3,
      order := false, merged := false, deskewed := false, acked := false, sentAck := false, sw := 0, taken := false,
      began := s.tb.now }
  updEng s e fun g => { g with spareState := 3, hs := some h }

/-- A REQ or REVERT_REQ from the far end (04 R142 to R144, Table 4-9 for the causes of NAK). Two requests for one position
cross: each end serves the other's and keeps its own. -/
def spareRequest (s : State) (e n pos seq : Nat) (revert : Bool) : State :=
  let g := getEng s e
  let nak := fun c => setSpareMsg s e (spareMsg 3 pos seq c)
  if g.sparePort != some n || !spareConfigured s e then nak 3 else
  match g.hs with
  | some h =>
    if h.peer = some seq ∧ h.pos = pos ∧ h.revert = revert then s
    else if h.requester && h.peer.isNone && h.revert == revert && h.pos == pos then
      advanceSpare (updEng s e fun g => { g with hs := some { h with peer := some seq, merged := h.order } }) e
    else if h.requester && !h.acked && h.peer.isNone && !revert && !h.revert then
      if pos < h.pos then serveSpare (abandonSpare s e 3) e (plOf s (n + pos)) pos seq false else s
    else if !h.requester && !h.sentAck then serveSpare s e (if revert then g.spared.getD 0 else plOf s (n + pos)) pos seq revert
    else nak 2
  | none =>
    if revert then (match g.spared with | some p => serveSpare s e p pos seq true | none => nak 1)
    else if g.spareState = 2 then serveSpare s e (plOf s (n + pos)) pos seq false else nak 1

/-- A sparing message (04 Table 4-9) acted on. An end that serves a request and hears the far end send none, before it has
answered, ends its handshake (DESIGN CHOICE, log entry 95). -/
def takeSpareMsg (s : State) (n msg : Nat) : State :=
  let e := n / 16
  let g := getEng s e
  let pos := nfld msg 25 3
  let seq := nfld msg 8 8
  match nfld msg 28 4, g.hs with
  | 1, _ => spareRequest s e n pos seq false
  | 4, _ => spareRequest s e n pos seq true
  | 2, some h =>
    if h.requester && !h.acked && h.seq == seq then
      let t := updEng s e fun g => { g with hs := some { h with acked := true } }
      advanceSpare (if h.peer.isNone then setSpareMsg t e 0 else t) e
    else s
  | 3, some h => if h.requester && !h.acked && h.seq == seq then abandonSpare s e 2 else s
  | 5, some h => if h.peer.isSome && h.taken && h.sw == 2 then setSpareMsg (completeSpare s e h) e 0 else s
  | 5, none => setSpareMsg s e 0
  | 0, some h => if !h.requester && !h.sentAck then dropSpare s e else s
  | 0, none => setSpareMsg s e 0
  | _, _ => s

/-- A structure is accepted: native port, TYPE and CHECK right, on a member lane in marker lock (05 R166). -/
def structOk (s : State) (n k : Nat) (v : BitVec 1024) : Bool :=
  isNative s n && fld v 1016 8 == 0x53 && crc32c (bytesBE 124 (v.toNat / 2 ^ 32)) == BitVec.ofNat 32 v.toNat &&
    (match (rxPLs s n)[k]? with | some p => (getLane s p).marker | none => false)

/-- A structure is a copy of one already taken from another lane (05 R166): its SEQ is not after the one last accepted. -/
def structCopy (s : State) (n k : Nat) (v : BitVec 1024) : Bool :=
  match (getPcs s n).taken with
  | some (q, j) => j != k && decide ((q - BitVec.ofNat 8 (fld v 1008 8)).toNat < 128)
  | none => false

/-- 05 R166: a link idle structure received on lane position `k` of a native port. -/
def execLinkIdleStructReceived (n k : Nat) (v : BitVec 1024) (s : State) : Host.Outcome State Fault Refusal :=
  .next (
    if !structOk s n k v || structCopy s n k v then s else
    let t := setRaw s n 6 false
    let t := updPcsPort t n fun p =>
      { p with lsipFor := none, taken := some (BitVec.ofNat 8 (fld v 1008 8), k),
               nb := if bit v 575 then
                 { fingerprint := BitVec.ofNat 128 (fld v 592 128), version := BitVec.ofNat 16 (fld v 576 16),
                   diverged := bit v 573, committedValid := bit v 574, stale := false, never := false,
                   arrival := s.tb.dt, arrivedAt := s.tb.now }
                 else p.nb }
    let t := if fld v 720 256 = 0 then t else requalify (takeSlot t n (fld v 720 256))
    takeSpareMsg t n (fld v 976 32))

/-! Fault signalling -/

/-- A member lane's receiver as a source of a local fault begins on it: 0 its power falls to `power`, 1 its CDR unlocks (05 Table
5-4). (Log entry 36.) -/
def laneFault (s : State) (p src : Nat) (power : Int) : State :=
  if src = 0 then updLane s p fun l => { l with power := some power }
  else if src = 1 then loseCdr s p
  else s

/-- 05 R176, R177: a receive-side local-fault source begins on lane position `k` of a port (0 LOS, with the lane's power; 1 LOL); 2
LOAM and 3 HISER are what the markers and windows make them. The port sends remote fault while any is present. -/
def execLocalFaultOnset (n src k : Nat) (power : Int) (s : State) : Host.Outcome State Fault Refusal :=
  .next (
    if !portExists s n then s else
    match (rxPLs s n)[k]? with
    | some p => refreshLoam (laneFault s p src power) n
    | none => refreshLoam s n)

/-- The receivers of a port as sources end: 0 every lane's power is at least `power`, 1 every CDR is in lock. -/
def lanesBack (s : State) (n : Nat) (gone : BitVec 4) (power : Int) : State :=
  (rxPLs s n).foldl (fun u p => updLane u p fun l =>
    let l := if bit gone 0 then { l with power := some (match l.power with | some x => max x power | none => power) } else l
    if bit gone 1 && !l.cdr then { l with cdr := true, cdrAt := s.tb.now } else l) s

/-- Raw conditions LOS, LOL and HISER that ended some time ago, so recorded (05 R177). -/
def endedAgo (s t : State) (n ago : Nat) : State :=
  [0, 1, 3].foldl (fun u b =>
    if rawOn (getPcs s n) b && !rawOn (getPcs t n) b then
      updPcsPort u n fun p => { p with raw := p.raw.modify b fun r => { r with ended := s.tb.now - ago } }
    else u) t

/-- 05 R177: the sources in `gone` have been absent for `ago` ns; once no receive-side source has been present for 10 us the port returns to
frames and idles. -/
def execLocalFaultEnd (n : Nat) (gone : BitVec 4) (power : Int) (ago : Nat) (s : State) : Host.Outcome State Fault Refusal :=
  .next (
    if !portExists s n then s else
    let last := ((getPcs s n).hiser.headD false)
    let t := lanesBack s n gone power
    let t := if bit gone 3 && !last then setRaw t n 3 false else t
    let t := endedAgo s (refreshLoam t n) n ago
    let p := getPcs t n
    if p.sendRf && !rxFault t n && ((List.range 4).all fun b =>
        let r := p.raw.getD b Raw.reset
        (b == 3 && !(getPcsSet t n).hiserFault) || r.ended == 0 || decide (r.ended + 10000 ≤ s.tb.now)) then
      pfcResume ((updPcsPort t n fun p => { p with sendRf := false }).emit (.remoteFault n false)) n
    else t)

/-- 05 R178: remote fault ordered sets arrive: the port starts no further frame, the one under way is cut (R179), and it sends
idles. -/
def execRemoteFaultReceived (n : Nat) (s : State) : Host.Outcome State Fault Refusal :=
  .next (
    if !portExists s n then s
    else if (getPcs s n).recvRf then setRaw s n 5 true
    else (updPcsPort (setRaw (cutTx s n) n 5 true) n fun p => { p with recvRf := true }).emit (.idlesOnly n true))

/-- 05 R178: the Reconciliation Sublayer clears its remote fault indication. -/
def execRemoteFaultEnd (n : Nat) (s : State) : Host.Outcome State Fault Refusal :=
  .next (
    if !portExists s n then s
    else if !(getPcs s n).recvRf then setRaw s n 5 false
    else pfcResume ((updPcsPort (setRaw s n 5 false) n fun p => { p with recvRf := false }).emit (.idlesOnly n false)) n)

/-! Defects (05 R174, R175) -/

/-- How long a raw condition has been present since instant `from_`. -/
def presentSince (r : Raw) (from_ now : Nat) : Nat :=
  (match r.since with | some t => now - max t from_ | none => 0) +
    (r.spans.map fun x => x.2 - max x.1 from_).foldl (· + ·) 0

/-- The integration sets defect `b` (05 R174). (Log entry 36.) -/
def defectSets (s : State) (n b : Nat) : Bool :=
  let p := getPcs s n
  let k := (getPcsSet s n).set.getD b 0
  if b = 3 then decide (k ≤ ((p.hiser.take (2 * k)).filter id).length)
  else
    let r := p.raw.getD b Raw.reset
    let k := k * 1000
    if k = 0 then r.since.isSome else decide (k ≤ presentSince r (s.tb.now - 2 * k) s.tb.now)

/-- The integration clears defect `b` (05 R174). (Log entry 36.) -/
def defectClears (s : State) (n b : Nat) : Bool :=
  let p := getPcs s n
  let k := (getPcsSet s n).clear.getD b 0
  if b = 3 then decide (k ≤ p.hiser.length) && (p.hiser.take k).all fun x => !x
  else
    let r := p.raw.getD b Raw.reset
    r.since.isNone && decide (r.ended + k * 1000 ≤ s.tb.now)

/-- LOL has set and R140 spares none of the lanes that caused it: LANE_FAILED with cause 32 for each (04 Table 4-19). (Log entry 95.) -/
def lolUnspared (s : State) (n : Nat) : State :=
  ((portPLs s n).filter fun p => !(getLane s p).cdr && !(triggerHolds s p 2 && spareReady s (p / 17) p && !Config.codeS)).foldl
    (fun t p => postAll t 0x0401 0 (packN [(0, 10, p), (10, 6, 32)])) s

/-- 05 R174, R175: a defect sets or clears by integration; SEEN, the event, and the second's errored state follow. -/
def execDefect (n b : Nat) (on : Bool) (s : State) : Host.Outcome State Fault Refusal :=
  .next (
    let p := getPcs s n
    if !portExists s n || decide (6 < b) || (b == 6 && !isNative s n) || bit p.defects b == on then s
    else if !(if on then defectSets s n b else defectClears s n b) then s
    else
      let m := BitVec.ofNat 7 (2 ^ b)
      let t := updPcsPort s n fun p =>
        { p with defects := if on then p.defects ||| m else p.defects &&& ~~~m,
                 seen := if on then p.seen ||| m else p.seen,
                 pm := { p.pm with sesDefect := p.pm.sesDefect || decide (b ≤ 4) } }
      let t := postAll t 0x0501 0 (packN [(0, 9, n), (9, 3, b), (12, 1, b2n on)])
      if on && b == 1 then lolUnspared t n else t)

/-- 05 R174: a window of 8,192 codewords ends with `errs` symbol errors. -/
def execHiserWindowEnd (n errs : Nat) (s : State) : Host.Outcome State Fault Refusal :=
  .next (
    if !portExists s n then s else
    let bad := decide (417 < errs)
    let t := updPcsPort s n fun p => { p with hiser := (bad :: p.hiser).take 510 }
    refreshLf (setRaw t n 3 bad) n)

/-- OE_SET's SPARE_SER_EXP and SPARE_HOLD_MS in force from this millisecond on; a changed threshold starts the lanes' times
afresh (04 Table 4-20). -/
def settleSpare (dt : Nat) (g : Engine) : Engine :=
  match g.setMs with
  | some k =>
    if k = dt / dtMs then g
    else { g with setMs := none, serOld := g.serExp, holdOld := g.holdMs, above := if g.serOld = g.serExp then g.above else [] }
  | none => g

/-- One lane's ratio of the last millisecond (05 R173) and whether it lies above SPARE_SER_EXP's threshold (04 R140).
(Log entry 35.) -/
def serLane (s : State) (p : Nat) (c : Nat × Nat × Nat) : State :=
  let corr := c.1 + 16 * c.2.1
  let t := updLane s p fun l => { l with serCorr := corr, serRecv := c.2.2 }
  updEng t (p / 17) fun g =>
    let g := settleSpare s.tb.dt g
    let hot := decide (c.2.2 < corr * 10 ^ serExpAt g s.tb.dt)
    if hot then (if g.above.any fun a => a.1 == p then g else { g with above := g.above ++ [(p, s.tb.now)] })
    else { g with above := g.above.filter fun a => a.1 != p }

/-- 05 R172, R173: at the end of a millisecond of DT the port's codeword counters and its lanes' ratios are brought up to
date. (Log entry 35.) -/
def execSerMsTick (n : Nat) (c : MsCounts) (s : State) : Host.Outcome State Fault Refusal :=
  .next (
    if !portExists s n then s else
    let syms := c.lanes.map fun x => x.1
    let t := updPcsPort s n fun p =>
      { p with codewords := p.codewords + BitVec.ofNat 64 c.codewords, corrCw := p.corrCw + BitVec.ofNat 64 c.corrected,
               ucw := p.ucw + BitVec.ofNat 64 c.uncorrectable,
               corrSym := p.corrSym + BitVec.ofNat 64 (syms.foldl (· + ·) 0),
               laneSym := (List.range 8).map fun k => syms.getD k 0,
               pm := { p.pm with cws := p.pm.cws + c.codewords, ucws := p.pm.ucws + c.uncorrectable } }
    ((portPLs t n).zip c.lanes).foldl (fun u x => serLane u x.1 x.2) t)

/-! Performance monitoring (05 R181 to R185) -/

/-- The bins with one for second `n` at the head: `len` is the bin's length in seconds, `keep` how many are kept; it is PARTIAL from
the start where no second is evaluated (05 R183, R185). (Log entry 35.) -/
def openBin (bins : List Bin) (n len keep : Nat) (part : Bool) : List Bin :=
  if bins.any (fun b => b.start == n / len * len) then bins else (newBin (n / len * len) part false :: bins).take keep

/-- One bin changed where it holds second `n`, unless it is final. -/
def inBin (bins : List Bin) (n len : Nat) (f : Bin → Bin) : List Bin :=
  bins.map fun b => if b.start = n / len * len ∧ b.final = false then f b else b

/-- Both kinds of bin of a second changed. -/
def inBins (m : Pm) (n : Nat) (f : Bin → Bin) : Pm :=
  { m with q15 := inBin m.q15 n 900 f, h24 := inBin m.h24 n 86400 f }

/-- A second moved from available to unavailable counts, or back (05 R182). -/
def reclass (toUas : Bool) (m : Pm) (x : Second) : Pm :=
  inBins m x.number fun b =>
    if toUas then { b with es := b.es - 1, ses := b.ses - 1, uas := b.uas + 1 }
    else { b with uas := b.uas - 1, es := b.es + b2n x.es }

/-- One second counted for a port (05 R181, R182): the new monitoring state, and the first second reclassified when the
availability changes. -/
def countSecond (m : Pm) (n : Nat) (sesExp : Nat) (stillSet : Bool) : Pm × Option Nat :=
  let ses := m.sesDefect || decide (m.cws ≤ m.ucws * 10 ^ sesExp)
  let es := ses || decide (0 < m.ucws) || decide (0 < m.fcs)
  let x : Second := ⟨n, es, ses⟩
  let m2 := inBins m n fun b =>
    if m.unavailable then { b with elapsed := b.elapsed + 1, uas := b.uas + 1, ucw := b.ucw + m.ucws }
    else { b with elapsed := b.elapsed + 1, es := b.es + b2n es, ses := b.ses + b2n ses, ucw := b.ucw + m.ucws }
  let run := if ses != m.unavailable then x :: m.run else []
  let m3 := { m2 with run := run, cws := 0, ucws := 0, fcs := 0, sesDefect := stillSet }
  if run.length < 10 then (m3, none)
  else
    let m4 := run.foldl (reclass (!m.unavailable)) m3
    ({ m4 with unavailable := !m.unavailable, run := [] }, run.getLast?.map fun y => y.number)

/-- The bins that begin with second `n`, at the end of the second before it (05 R183, R184). -/
def turnBins (part : Bool) (m : Pm) (n : Nat) : Pm :=
  { m with q15 := openBin m.q15 n 900 97 part, h24 := openBin m.h24 n 86400 2 part }

/-- The end of a second for one port; in PROBE and HALT none is evaluated and the bins are PARTIAL (05 R185). The next second is
judged by the SES_EXP set by then (R187). (Log entry 35.) -/
def secondPort (n : Nat) (s : State) (p : Nat) : State :=
  let q := getPcs s p
  if unevaluated s then
    updPcsPort s p fun q => { q with pm := turnBins true (inBins q.pm n fun b => { b with part := true }) (n + 1) }
  else
    let r := countSecond q.pm n (getPcsSet s p).sesNow (decide (q.defects.toNat % 32 ≠ 0))
    let t := updPcsPort s p fun q => { q with pm := turnBins false r.1 (n + 1) }
    match r.2 with
    | some k => postAll t 0x0502 0 (packN [(0, 9, p), (9, 1, b2n r.1.unavailable), (16, 48, k)])
    | none => t

/-- Every port's SES_EXP in force from the next second on (05 R187). -/
def settleSes (s : State) : State :=
  s.updPcs fun x =>
    { x with sets := x.sets.filterMap fun kv =>
        let y := { kv.2 with sesNow := kv.2.sesExp }
        if y = PcsSet.reset then none else some (kv.1, y) }

/-- 05 R181: the DT second being monitored has ended: every port's second is classified and counted. Seconds that a step
skipped are not evaluated (R185). -/
def execPmSecondEnd (s : State) : Host.Outcome State Fault Refusal :=
  .next (
    let cur := s.tb.dt / dtSec
    if cur ≤ s.pcs.lastSec then s else
    settleSes ((portList s).foldl (secondPort (cur - 1)) (s.updPcs fun x => { x with lastSec := cur })))

/-- 05 R184: a bin is final 10 s after its end. -/
def finalBins (sec len : Nat) (bins : List Bin) : List Bin :=
  bins.map fun b => if b.start + len + 10 ≤ sec then { b with final := true } else b

/-- 05 R184: bins 10 s past their end become final. -/
def execBinFinal (s : State) : Host.Outcome State Fault Refusal :=
  .next (
    let sec := s.tb.dt / dtSec
    (portList s).foldl (fun t p => updPcsPort t p fun q =>
      { q with pm := { q.pm with q15 := finalBins sec 900 q.pm.q15, h24 := finalBins sec 86400 q.pm.h24 } }) s)

end Sys2Proof.Machine
end

