-- ==== Sys2Proof/Machine/Pins.lean ====
section
/-! DEFINITION. Contacts, auxiliary power, SYSRESET_N, the TAP and the GPIOs (03 R118; 16 R522; 18 R564 to R572). -/

namespace Sys2Proof.Machine

/-! Auxiliary power -/

/-- Without VAUX nothing is held (18 R564) but the log's epoch (06 R217); elapsed time, the free values drawn, what was done and
what waits are the model's own. (Log entry 23.) -/
def vauxOff (s : State) : State :=
  { State.reset with
    tb := { TbSt.reset with now := s.tb.now }, log := { LogSt.reset with epoch := s.log.epoch },
    pin := { PinSt.reset with vaux := false }, freeCtr := s.freeCtr, out := s.out, pending := s.pending }

/-- 18 R564: VAUX is lost. (Log entry 23.) -/
def execVauxLost (s : State) : Host.Outcome State Fault Refusal := .next (vauxOff s)

/-- An input's filter as VAUX comes up, at the level present (16 R522). -/
def inAtPower (s : State) (i : Nat) (bad : Bool) : State := if bad then inFault s i false else inClean s i

/-- 16 R522, 18 R568: VAUX rises: the straps are sampled, each input's filter takes the level present, and a low FLOWFAIL_N or
TRAYSTOP_N latches. (Log entry 23.) -/
def execVauxPowerUp (straps : BitVec 4) (flowBad trayBad pwrBad : Bool) (s : State) : Host.Outcome State Fault Refusal :=
  .next (
    let b := (vauxOff s).updPin fun p => { p with vaux := true, straps := straps }
    let t := inAtPower (inAtPower (inAtPower b 0 flowBad) 1 trayBad) 2 pwrBad
    let t := if flowBad then setLatch t 1 false else t
    let t := if trayBad then setLatch t 2 false else t
    conditions b t)

/-! SYSRESET_N -/

/-- BAR0's registers at reset, but those kept or live (03 R118, 20 Table 20-1); rings, vectors and ports reset before anything
is written to them. (Log entry 24.) -/
def busReset (s : State) : State :=
  (portReset (portReset s .h0 s.host.ports.h0.perst) .h1 s.host.ports.h1.perst).updHost fun h =>
    { h with rings := [], vectors := [], held := [], running := [], awaiting := [], wins := [],
             ports := ⟨{ h.ports.h0 with missed := 0, refused := 0 }, { h.ports.h1 with missed := 0, refused := 0 },
               { h.ports.m0 with missed := 0, refused := 0 }⟩ }

/-- The other registers that SYSRESET_N resets, with the settings held like them (02 R90; 03 R96; 04 Table 4-13; 06 R218;
09 R342; 18 R572). (Log entry 24.) -/
def registerReset (s : State) : State :=
  let t := s.updOwn fun _ => OwnSt.reset
  let t := t.updMode fun m => { m with holdDormant := false, tempWindow := 10, waiting := [] }
  let t := t.updOpt fun o =>
    { o with forceOff := 0, engines := o.engines.map fun kv => (kv.1, { kv.2 with lowLatch := false, highLatch := false }) }
  let t := t.updFp fun p =>
    { p with divergeSeen := false, unlockSeen := false, snapActive := [0, 0, 0], snapCommit := [0, 0, 0] }
  let t := t.updTb fun b => { b with snap := TbSt.reset.snap, stepSeen := false }
  let t := t.updLog fun l =>
    { l with slots := LogSt.reset.slots, retain := LogSt.reset.retain, closeMs := LogSt.reset.closeMs }
  let t := t.updBuf fun b => { b with capMib := BufSt.reset.capMib }
  let t := t.updPin fun p =>
    { p with sysreset := true, gpioDir := 0, gpioOut := 0, gpioIn := 0, gpioRise := 0, gpioFall := 0 }
  (portList t).foldl refreshLf t

/-- 03 R118: a recognised SYSRESET_N pulse. (Log entry 24.) -/
def execSysresetN (s : State) : Host.Outcome State Fault Refusal :=
  .next (
    if !s.pin.vaux || s.pin.sysreset then s else
    let t := refreshEls (registerReset (abortStart (busReset s) 3))
    let t := if awake t && t.mode.mode != .halt && !t.mode.haltEntry then beginStart t false 2 none else t
    conditions s t)

/-- H1 under the straps as sampled: disabled by STRAP2, it holds its link down (18 R566). -/
def strapPorts (s : State) : State := if bit s.pin.straps 2 then portReset s .h1 s.host.ports.h1.perst else s

/-- 18 R566, R568: the deassertion that ends a recognised pulse samples the straps. (Log entry 24.) -/
def execSysresetDeassert (straps : BitVec 4) (s : State) : Host.Outcome State Fault Refusal :=
  .next (if s.pin.sysreset then strapPorts (s.updPin fun p => { p with straps := straps, sysreset := false }) else s)

/-! The TAP (18 R567) -/

/-- EXTEST, CLAMP and HIGHZ act: STRAP3 is 1 and the mode is DORMANT. (Log entry 89.) -/
def scanActs (s : State) : Bool := bit s.pin.straps 3 && s.mode.mode == .dormant

/-- The instruction that the TAP decodes: EXTEST, CLAMP and HIGHZ as BYPASS unless they may act (18 R567). -/
def tapDecoded (s : State) : TapInstr :=
  match s.pin.tap with
  | .extest | .clamp | .highz => if scanActs s then s.pin.tap else .bypass
  | i => i

/-- The TAP's instruction register changed, while VAUX is present. -/
def setTap (s : State) (i : TapInstr) : State := if s.pin.vaux then s.updPin fun p => { p with tap := i } else s

/-- 18 R567: TRST_N or a TAP reset selects IDCODE. -/
def execTapReset (s : State) : Host.Outcome State Fault Refusal := .next (setTap s .idcode)

/-- 18 R567: IDCODE shifts out 0x1020_4A4B. -/
def execIdcode (s : State) : Host.Outcome State Fault Refusal :=
  .next (if s.pin.vaux then (setTap s .idcode).emit (.tdo 0x10204A4B) else s)

/-- 18 R567: BYPASS. -/
def execBypass (s : State) : Host.Outcome State Fault Refusal := .next (setTap s .bypass)

/-- Bits as a number, the first one lowest. (Log entry 89.) -/
def bitsNat : List Bool → Nat
  | [] => 0
  | b :: bs => b2n b + 2 * bitsNat bs

/-- 18 R567: SAMPLE/PRELOAD: the contacts' levels `sample` shift out as `load` shifts into the boundary register.
(Log entry 89.) -/
def execSamplePreload (sample load : List Bool) (s : State) : Host.Outcome State Fault Refusal :=
  .next (
    if s.pin.vaux then
      ((setTap s .samplePreload).updPin fun p => { p with boundary := load }).emit (.tdo (bitsNat sample))
    else s)

/-- 18 R567: EXTEST. -/
def execExtest (s : State) : Host.Outcome State Fault Refusal :=
  .next (setTap s .extest)

/-- 18 R567: CLAMP. -/
def execClamp (s : State) : Host.Outcome State Fault Refusal :=
  .next (setTap s .clamp)

/-- 18 R567: HIGHZ. -/
def execHighz (s : State) : Host.Outcome State Fault Refusal :=
  .next (setTap s .highz)

/-! GPIO (18 R572) -/

/-- Bit `i` of a byte set to `b`. -/
def putBit (w : BitVec 8) (i : Nat) (b : Bool) : BitVec 8 :=
  if b then w ||| BitVec.ofNat 8 (2 ^ i) else w &&& ~~~(BitVec.ofNat 8 (2 ^ i))

/-- The level of a GPIO's contact: OUT's while DIR is 1, else what the board drives (18 Table 18-6). -/
def gpioLevel (s : State) (i : Nat) (driven : Bool) : Bool := if bit s.pin.gpioDir i then bit s.pin.gpioOut i else driven

/-- 18 R572: a GPIO's filtered level changes; `driven` is the level at an input. (Log entry 90.) -/
def execGpioEdgeDetect (i : Nat) (driven : Bool) (s : State) : Host.Outcome State Fault Refusal :=
  .next (
    let level := gpioLevel s i driven
    if !s.pin.vaux || decide (8 ≤ i) || bit s.pin.gpioIn i == level then s
    else s.updPin fun p =>
      { p with gpioIn := putBit p.gpioIn i level, gpioRise := if level then putBit p.gpioRise i true else p.gpioRise,
               gpioFall := if level then p.gpioFall else putBit p.gpioFall i true })

end Sys2Proof.Machine
end

