-- ==== Sys2Proof/Machine/Registers.lean ====
section
/-! DEFINITION. Writes to the registers of BAR0 (02 R52, R53; 20 R601 to R607). -/

namespace Sys2Proof.Machine

/-- A global register of 20 Table 20-1, but CLAIM, RENEW and OWN_RESULT. (Log entry 21.) -/
def globalReg (off : Nat) : Bool :=
  [0x0000, 0x0004, 0x0008, 0x0010, 0x0020, 0x0024, 0x0028, 0x0100, 0x0104, 0x0114, 0x0118, 0x1040, 0x1044].contains off ||
  (decide (0x0040 ≤ off) && decide (off < 0x0060)) || (decide (0x1080 ≤ off) && decide (off < 0x1090)) ||
  (decide (0x10C0 ≤ off) && decide (off < 0x10D8)) || (decide (0x1100 ≤ off) && decide (off < 0x1110)) ||
  (decide (0x1140 ≤ off) && decide (off < 0x1150)) || (decide (0x1180 ≤ off) && decide (off < 0x1190))

/-- LASER_ALARM written: the latches of the engines whose bit is 1 (04 R146). -/
def laserWrite (s : State) (v : Word) : State :=
  ((List.range 32).filter fun e => bit v e).foldl clearLaser s

/-- BOOT_CTRL written (03 Table 3-3, R99). -/
def bootWrite (s : State) (v : Word) : State :=
  let w := fld v 4 6
  conditions s (s.updMode fun m =>
    { m with holdDormant := bit v 0, tempWindow := if 2 ≤ w ∧ w ≤ 30 then w else m.tempWindow })

/-- RIVEL_LATCH written (16 Table 16-9): each bit by its own rule. -/
def rivelWrite (s : State) (v : Word) : State :=
  let t := if bit v 0 then clearTray s 0 else s
  let t := if bit v 1 then clearTray t 1 else t
  let t := if bit v 2 then clearCrit t else t
  let t := if bit v 3 then clearPwrLost t else t
  if bit v 4 then clearBusFault t else t

/-- The owner's write to a global register. A register that is read-only, or reads zero in DORMANT, ignores it.
(Log entry 21.) -/
def globalWrite (s : State) (off : Nat) (v : Word) : State :=
  match off with
  | 0x0010 =>
    if !awake s then s else
    s.updFp fun p => { p with divergeSeen := p.divergeSeen && !bit v 8, unlockSeen := p.unlockSeen && !bit v 9 }
  | 0x0024 => bootWrite s v
  | 0x0114 =>
    if 250 ≤ fld v 0 16 ∧ fld v 0 16 ≤ 10000 then s.updOwn fun w => { w with leaseMs := fld v 0 16 } else s
  | 0x1040 => refreshEls (s.updOpt fun o => { o with forceOff := BitVec.ofNat 2 (fld v 0 2) })
  | 0x1044 => laserWrite s v
  | 0x1080 => if !awake s then s else s.updTb fun b => { b with stepSeen := b.stepSeen && !bit v 8 }
  | 0x1104 => rivelWrite s v
  | 0x1144 => s.updErr fun e => { e with overflow := e.overflow &&& ~~~(BitVec.ofNat 20 v.toNat) }
  | 0x1148 => if bit v 0 then clearFatal s else s
  | 0x1184 =>
    s.updPin fun p => { p with gpioDir := BitVec.ofNat 8 (fld v 0 8), gpioOut := BitVec.ofNat 8 (fld v 8 8) }
  | 0x118C =>
    s.updPin fun p =>
      { p with gpioRise := p.gpioRise &&& ~~~(BitVec.ofNat 8 (fld v 0 8)),
               gpioFall := p.gpioFall &&& ~~~(BitVec.ofNat 8 (fld v 8 8)) }
  | _ => s

/-- A 32-bit word with one of its words of 32 bits at place `k` replaced. -/
def setWord64 (a : BitVec 64) (k : Nat) (v : Word) : BitVec 64 :=
  if k = 0 then BitVec.ofNat 64 (a.toNat / 2 ^ 32 * 2 ^ 32 + v.toNat) else BitVec.ofNat 64 (a.toNat % 2 ^ 32 + v.toNat * 2 ^ 32)

/-- A word of an MSI-X table entry written (PCIe 6.0; 02 R47): unmasked while pending, the vector sends its message,
unless the function is masked or MSI-X disabled. (Log entry 22.) -/
def msixWrite (s : State) (m : Master) (off : Nat) (v : Word) : State :=
  let n := (off - 0x0800) / 16
  match (off - 0x0800) / 4 % 4 with
  | 0 => updVec s m n fun x => { x with addr := setWord64 x.addr 0 v }
  | 1 => updVec s m n fun x => { x with addr := setWord64 x.addr 1 v }
  | 2 => updVec s m n fun x => { x with data := v }
  | _ =>
    pendingMsix (updVec s m n fun x => { x with mask := bit v 0 }) m

/-- A ring's registers other than RING_CTRL (02 R55, Table 2-6). -/
def ringWrite (s : State) (m : Master) (n word : Nat) (v : Word) : State :=
  match word with
  | 0 => ringCtrlWrite s m n v
  | 1 => updRing s m n fun r => if r.enable then r else { r with baseLo := v }
  | 2 => updRing s m n fun r => if r.enable then r else { r with baseHi := v }
  | 4 => updRing s m n fun r => { r with fault := r.fault && !bit v 0, overflow := r.overflow && !bit v 1 }
  | _ => s

/-- A write to a port-local register. -/
def localWrite (s : State) (m : Master) (off : Nat) (v : Word) : State :=
  if off = 0x0300 then (if m = .m0 then doorbell s .m0 (decide (fld v 0 8 < 4)) v.toNat else s)
  else if 0x0400 ≤ off ∧ off < 0x0500 then
    updVec s m ((off - 0x0400) / 4) fun x => { x with timeUs := fld v 0 10, count := fld v 16 8 }
  else if 0x0800 ≤ off ∧ off < 0x0C00 then (if m = .m0 then s else msixWrite s m off v)
  else if 0x2000 ≤ off ∧ off < 0x4000 then
    (if (off - 0x2000) / 32 < ringCount m then ringWrite s m ((off - 0x2000) / 32) (off % 32 / 4) v else s)
  else if 0x8000 ≤ off ∧ off < 0x10000 then
    (if m = .m0 then memWrite s .m0 (off - 0x8000) (bytesLE 4 v.toNat) else s)
  else s

/-- One 32-bit register write by a master that reaches BAR0 (02 R53). (Log entry 21.) -/
def wordWrite (s : State) (m : Master) (off : Nat) (v : Word) : State :=
  if off = 0x0108 then claimWrite s m v
  else if off = 0x010C then renewWrite s m v
  else if globalReg off then ownerWrite s m fun t => globalWrite t off v
  else localWrite s m off v

/-- Words written in turn, the offset advancing by 4 bytes after each (02 R50; 20 R601). -/
def wordWrites (s : State) (m : Master) : Nat → List Word → State
  | _, [] => s
  | off, v :: vs => wordWrites (wordWrite s m off v) m (off + 4) vs

/-- How many words one access may write: on a host port one, or two that are naturally aligned together (20 R601); on M0 any
number, and none, the offset alone, for the read that follows (02 R50). -/
def writeShape (m : Master) (off n : Nat) : Bool :=
  m == .m0 || n == 1 || (n == 2 && decide (off % 8 = 0))

/-- A register write (02 R50, R53; 20 R601): `whole` says that it is made of 32-bit words; one that is narrower or not
aligned is ignored. (Log entry 21.) -/
def registerWrite (s : State) (m : Master) (off : Nat) (ws : List Word) (whole : Bool) : State :=
  if !barOk s m || !whole || off % 4 != 0 || !writeShape m off ws.length then s
  else
    let t := wordWrites s m off ws
    if m = .m0 then t.updHost fun h => { h with m0Off := BitVec.ofNat 16 (off + 4 * ws.length) } else t

/-- 02 R50, R53, 20 R601: a write to BAR0 registers. (Log entry 21.) -/
def execRegisterWrite (m : Master) (off : Nat) (ws : List Word) (whole : Bool) (s : State) :
    Host.Outcome State Fault Refusal :=
  .next (registerWrite s m off ws whole)

/-- 04 R146: a write to LASER_ALARM. -/
def execLaserAlarmClear (m : Master) (v : Word) (s : State) : Host.Outcome State Fault Refusal :=
  .next (ownerWrite s m fun t => laserWrite t v)

end Sys2Proof.Machine
end

