-- ==== Sys2Proof/Machine/Telemetry.lean ====
section
/-! DEFINITION. The commands of chapter 15: counters, reducers, bandwidth, export and capture. -/

namespace Sys2Proof.Machine

/-! Counters -/

/-- 15 R496: READ_PORT_COUNTERS. (Log entry 66.) -/
def execReadPortCounters (o : Order) (s : State) : Host.Outcome State Fault Refusal :=
  .next (runOrder (readForm 0x0F01 [0xF1] 0x1FF [] 512 modesOn) o s {} fun t =>
    (t, .result ((List.range 64).flatMap fun e =>
      bytesLE 8 (SMap.get (fun _ => (0 : BitVec 64)) t.tel.cnt (64 * o.inst + e)).toNat) 0))

/-- Events that count cycles of a slice's islands, which the model does not run: their counts are free values.
(Log entry 80.) -/
def cycleEvent (e : Nat) : Bool := [0x105, 0x106, 0x107, 0x400, 0x401].contains e

/-- A counter that counts cycles, or the wraps of one that does (15 R486). (Log entry 80.) -/
def selFree (s : State) (slice i : Nat) : Bool :=
  let c := getSel s slice i
  if c.chain then decide (0 < i) && cycleEvent (getSel s slice (i - 1)).event else cycleEvent c.event

/-- A counter's count as it stands: free, from the next draws on, where it runs and counts cycles (log entry 80). -/
def selCount (s : State) (slice i : Nat) : Nat :=
  let c := getSel s slice i
  if c.running && selFree s slice i then Config.freeValue (s.freeCtr + i) % 2 ^ 48 else c.count

/-- A counter's 16 bytes (15 Table 15-9): its count, that of the counter chained to it, CHAIN, RUNNING. (Log entry 79.) -/
def selRecord (s : State) (slice i : Nat) : Nat :=
  let c := getSel s slice i
  packN [(0, 48, selCount s slice i),
    (48, 48, if decide (i < 255) && (getSel s slice (i + 1)).chain then selCount s slice (i + 1) else 0), (96, 1, b2n c.chain),
    (97, 1, b2n c.running)]

/-- 15 R487: READ_SEL. -/
def execReadSel (o : Order) (s : State) : Host.Outcome State Fault Refusal :=
  let first := o.f 0 8
  let n := o.f 8 8 + 1
  .next (runOrder (readForm 0x0F02 [0xF2] 0x1F [(0, 16)] 64 modesOn) o s { badArgument := decide (256 < first + n) } fun t =>
    ((List.range 256).foldl (fun u _ => u.drawn) t,
      .result ((List.range n).flatMap fun i => bytesLE 16 (selRecord t o.inst (first + i))) 0))

/-- The events of 15 Table 15-5. -/
def selEvents (e : Nat) : Bool :=
  decide (e ≤ 0x3F) || (decide (0x100 ≤ e) && decide (e ≤ 0x107)) || (decide (0x200 ≤ e) && decide (e ≤ 0x217)) ||
    (decide (0x220 ≤ e) && decide (e ≤ 0x237)) || (decide (0x300 ≤ e) && decide (e ≤ 0x303)) ||
    (decide (0x400 ≤ e) && decide (e ≤ 0x403)) || (decide (0x500 ≤ e) && decide (e ≤ 0x5FF))

def updSel (s : State) (slice i : Nat) (f : SelCtr → SelCtr) : State :=
  s.updTel fun t => { t with sel := SMap.upd (fun _ => SelCtr.reset) t.sel (256 * slice + i) f }

/-- The counter chained to one that is cleared is cleared with it (15 R487). -/
def clearChained (s : State) (slice i : Nat) : State :=
  if i < 255 ∧ (getSel s slice (i + 1)).chain = true then updSel s slice (i + 1) fun c => { c with count := 0 } else s

/-- 15 R486, R487: SEL_SET stops, selects and clears a counter. (Log entry 79.) -/
def execSelSet (o : Order) (s : State) : Host.Outcome State Fault Refusal :=
  let i := o.f 0 8
  let chain := o.b 36
  let c : Checks :=
    { badArgument := !chain && !selEvents (o.f 8 12),
      chapter := if chain && (i == 0 || (getSel s o.inst (i - 1)).chain) then some 0x8F01 else none }
  .next (runOrder (setForm 0x4F01 [0xF2] 0x1F [(0, 37)] modesSet true) o s c fun t =>
    (clearChained (updSel t o.inst i fun _ =>
        { event := o.f 8 12, qual := o.f 20 16, chain := chain, running := false, count := 0 }) o.inst i,
      .done stSuccess 0))

/-- 15 R487: SEL_CTRL waits for its instant. (Log entry 79.) -/
def execSelCtrl (o : Order) (s : State) : Host.Outcome State Fault Refusal :=
  let at_ := o.f 3 96
  let first := o.f 99 8
  let n := o.f 107 8 + 1
  .next (runOrder (setForm 0x4F02 [0xF2] 0x1F [(0, 115)] modesSet true) o s
    { malformed := decide (o.f 0 2 = 3), badArgument := (o.b 2 && !dtOk at_) || decide (256 < first + n) } fun t =>
    let due := if o.b 2 then max (dtCount at_) (t.tb.dt + 2 * dtUs) else t.tb.dt + 2 * dtUs
    (t.updTel fun q => { q with selWaits := q.selWaits ++ [⟨o.inst, o.f 0 2, due, first, n⟩] },
      .done stSuccess (fld (dtWord due) 16 32)))

/-- What a SEL_CTRL does to one counter, `n` its count as it stands. -/
def selAct (act n : Nat) (c : SelCtr) : SelCtr :=
  if act = 0 then { c with running := true } else if act = 1 then { c with running := false, count := n }
  else { c with count := 0 }

/-- A SEL_CTRL carried out, with the counts from before it; clearing a counter clears one chained to it. (Log entry 80.) -/
def selApply (s : State) (w : SelWait) : State :=
  let t := (List.range w.count).foldl (fun t i =>
    updSel t w.slice (w.first + i) (selAct w.act (selCount s w.slice (w.first + i)))) s
  let t := if w.act = 1 then (List.range 256).foldl (fun u _ => u.drawn) t else t
  if w.act = 2 then clearChained t w.slice (w.first + w.count - 1) else t

/-- The SEL_CTRL that is due first: the one of the least instant, the oldest of those of one instant (06 R210, R211). -/
def selNext (s : State) : Option SelWait :=
  s.tel.selWaits.foldl (fun best w =>
    if s.tb.dt < w.due then best
    else match best with | some b => if w.due < b.due then some w else some b | none => some w) none

/-- The SEL_CTRL that is due first carried out (15 R487). -/
def selTakes (s : State) : State :=
  match selNext s with
  | some w => selApply (s.updTel fun q => { q with selWaits := q.selWaits.erase w }) w
  | none => s

/-- 15 R487: the instant of a SEL_CTRL. -/
def execSelCtrlInstant (s : State) : Host.Outcome State Fault Refusal := .next (selTakes s)

/-! Reducers -/

def getHist (s : State) (i : Nat) : Hist := SMap.get (fun _ => Hist.reset) s.tel.hists i
def getSketch (s : State) (i : Nat) : Sketch := SMap.get (fun _ => Sketch.reset) s.tel.sketches i
def putHist (s : State) (i : Nat) (h : Hist) : State :=
  s.updTel fun q => { q with hists := SMap.put (fun _ => Hist.reset) q.hists i h }
def putSketch (s : State) (i : Nat) (k : Sketch) : State :=
  s.updTel fun q => { q with sketches := SMap.put (fun _ => Sketch.reset) q.sketches i k }

/-- The bytes of READ_HIST and READ_SKETCH. -/
def histBytes (h : Hist) : List Byte := h.bins.flatMap fun b => bytesLE 8 b
def sketchBytes (k : Sketch) : List Byte :=
  ((List.range 16384).flatMap fun i => bytesLE 4 (SMap.get (fun _ => 0) k.ctrs i)) ++
    padTo 512 (k.heavy.flatMap fun e => bytesLE 16 (packN [(0, 64, e.1), (64, 32, e.2)]))

/-- A reducer cleared. -/
def Hist.clear (h : Hist) : Hist := { h with bins := List.replicate 64 0 }
def Sketch.clear (k : Sketch) : Sketch := { k with ctrs := [], heavy := [] }

/-- 15 R483: READ_HIST waits for its snapshot. -/
def execReadHist (o : Order) (s : State) : Host.Outcome State Fault Refusal :=
  .next (runOrder (readForm 0x0F03 [0xF4] 0x3F [] 512 modesOn) o s {} fun t => (t, .later))

/-- 15 R483: READ_SKETCH waits for its snapshot. -/
def execReadSketch (o : Order) (s : State) : Host.Outcome State Fault Refusal :=
  .next (runOrder (readForm 0x0F04 [0xF5] 0x7 [] 66048 modesOn) o s {} fun t => (t, .later))

/-- 15 R483: READ_CLEAR waits for its snapshot. (Log entry 79.) -/
def execReadClear (o : Order) (s : State) : Host.Outcome State Fault Refusal :=
  .next (runOrder { setForm 0x4F03 [0xF4, 0xF5] (if o.kind = 0xF4 then 0x3F else 0x7) [] [.prepare, .service, .coast] true with
    result := if o.kind = 0xF4 then 512 else 66048 } o s {} fun t => (t, .later))

/-- 15 R483: the snapshot of the oldest reducer read whose acceptance lies 2 us back; READ_CLEAR clears in the same cycle. -/
def execReducerSnapshot (s : State) : Host.Outcome State Fault Refusal :=
  .next (
    match s.host.running.find? fun r =>
        (r.opcode == 0x0F03 || r.opcode == 0x0F04 || r.opcode == 0x4F03) && decide (r.dt + 2 * dtUs ≤ s.tb.dt) with
    | none => s
    | some r =>
      let i := r.order.inst
      let clear := r.opcode == 0x4F03
      if r.order.kind = 0xF4 then
        finishResult (if clear then putHist s i (getHist s i).clear else s) r (histBytes (getHist s i)) 0
      else finishResult (if clear then putSketch s i (getSketch s i).clear else s) r (sketchBytes (getSketch s i)) 0)

/-- A filter's reserved bits and encodings (15 Table 15-3). -/
def filterReserved (w : Nat) : Bool := !onlyFields (w % 2 ^ 64) [(0, 39)] || nfld w 24 2 == 3

/-- 15 Table 15-10: HIST_SET; its ranges bind a set that enables. -/
def execHistSet (o : Order) (s : State) : Host.Outcome State Fault Refusal :=
  let log := o.b 67
  let c : Checks :=
    { malformed := filterReserved (o.f 0 64) || decide (o.f 65 2 = 3),
      badArgument := o.b 64 && (if log then decide (o.f 68 32 = 0) else decide (o.f 100 32 = 0)) }
  .next (runOrder (setForm 0x4F04 [0xF4] 0x3F [(0, 132)] modesSet true) o s c fun t =>
    (putHist t o.inst { filter := BitVec.ofNat 64 (o.f 0 64), enable := o.b 64, metric := o.f 65 2, log := log,
                        start := o.f 68 32, width := o.f 100 32, bins := List.replicate 64 0 }, .done stSuccess 0))

/-- 15 Table 15-10: SKETCH_SET; its range binds a set that enables. -/
def execSketchSet (o : Order) (s : State) : Host.Outcome State Fault Refusal :=
  let c : Checks := { malformed := filterReserved (o.f 0 64), badArgument := o.b 64 && decide (o.f 66 32 = 0) }
  .next (runOrder (setForm 0x4F05 [0xF5] 0x7 [(0, 98)] modesSet true) o s c fun t =>
    (putSketch t o.inst { filter := BitVec.ofNat 64 (o.f 0 64), enable := o.b 64, weight := o.b 65, thr := o.f 66 32,
                          ctrs := [], heavy := [] }, .done stSuccess 0))

/-- 15 R482: EV_SET. -/
def execEvSet (o : Order) (s : State) : Host.Outcome State Fault Refusal :=
  .next (runPtr (ptrForm 0x4F07 [0xF6] 0x3 modesSet true) o s { malformed := ptrLen o != 128 }
    (fun bs =>
      let h := leNat (slice bs 0 64)
      { malformed := !onlyFields h [(0, 39), (64, 1)] || nfld h 24 2 == 3 })
    fun bs t =>
      let h := leNat (slice bs 0 64)
      let e : EvRed :=
        { filter := BitVec.ofNat 64 h, enable := decide (nfld h 64 1 = 1), ports := BitVec.ofNat 512 (leNat (slice bs 64 64)) }
      (t.updTel fun q => { q with evs := SMap.put (fun _ => EvRed.reset) q.evs o.inst e }, .done stSuccess 0))

/-! Bandwidth (15 R488) -/

def getBw (s : State) (n : Nat) : Bw := SMap.get (fun _ => Bw.reset) s.tel.bws n
def updBw (s : State) (n : Nat) (f : Bw → Bw) : State :=
  s.updTel fun q => { q with bws := SMap.upd (fun _ => Bw.reset) q.bws n f }

/-- The windows of a port that have ended closed. -/
def bwNow (s : State) (n : Nat) : State := updBw s n fun b => bwRoll (s.tb.dt / (b.windowNs * dtNs)) b

/-- A direction's 32 bytes (15 Table 15-9). -/
def bwRecord (d : BwDir) : List Byte :=
  bytesLE 32 (packN [(0, 48, d.last), (48, 48, d.min), (96, 48, d.max), (144, 96, (dtWord d.maxDt).toNat), (240, 16, d.windows)])

/-- 15 R488: READ_BW. -/
def execReadBw (o : Order) (s : State) : Host.Outcome State Fault Refusal :=
  .next (runOrder (readForm 0x0F05 [0xF1] 0x1FF [] 64 modesOn) o s {} fun t =>
    let t := bwNow t o.inst
    let b := getBw t o.inst
    (t, .result (bwRecord b.rx ++ bwRecord b.tx) 0))

/-- 15 R488: BW_SET resets the figures; counting begins with the next whole window. (Log entry 66.) -/
def execBwSet (o : Order) (s : State) : Host.Outcome State Fault Refusal :=
  let w := o.f 0 34
  .next (runOrder (setForm 0x4F08 [0xF1] 0x1FF [(0, 34)] modesSet true) o s
    { badArgument := decide (w < 1000) || decide (10000000000 < w) } fun t =>
    (updBw t o.inst fun _ =>
      { windowNs := w, index := t.tb.dt / (w * dtNs), whole := false, rx := BwDir.reset, tx := BwDir.reset },
      .done stSuccess 0))

/-- 15 R488: a bandwidth window of a port ends. -/
def execBwWindowEnd (n : Nat) (s : State) : Host.Outcome State Fault Refusal := .next (bwNow s n)

/-! Export (15 R489 to R491, R497) -/

def getExport (s : State) (i : Nat) : Export := SMap.get (fun _ => Export.reset) s.tel.exps i
def updExport (s : State) (i : Nat) (f : Export → Export) : State :=
  s.updTel fun q => { q with exps := SMap.upd (fun _ => Export.reset) q.exps i f }

/-- The capture ring (TYPE 4) that settings name, while records can go to it. (Log entry 14.) -/
def captureRing (s : State) (master ring : Nat) : Option (Master × Nat) :=
  match mOf master with
  | some m =>
    let r := getRing s m ring
    if attached s m && r.enable && r.type == 4 && !r.stopped && decide (ring < ringCount m) then some (m, ring) else none
  | none => none

/-- Bytes of one record of a selector. -/
def recordSize (x : Export) : Nat := if x.fmt32 then 32 else 64

/-- The records that a batch can hold. -/
def batchSize (s : State) (x : Export) : Nat :=
  if x.collector then max 1 (min 510 ((x.mtu - x.tmplLen - 16) / recordSize x))
  else match mOf x.master with
    | some m => min 510 ((entryBytes (getRing s m x.ring) - 64) / recordSize x)
    | none => 510

/-- A capture slot's header and its bytes (15 Table 15-8). -/
def captureSlot (body : List Byte) (room : Nat) (batch fmt32 : Bool) (source no lost count : Nat) (phase : Bool) : List Byte :=
  let b := body.take room
  bytesLE 64 (packN [(0, 16, b.length), (24, 1, b2n batch), (25, 1, b2n phase), (26, 1, b2n (decide (room < body.length))),
    (27, 1, b2n fmt32), (28, 4, source), (32, 64, no), (96, 64, lost), (160, 16, count)]) ++ b

/-- Records of a selector lost, with EXPORT_LOST. (Log entry 82.) -/
def exportLost (s : State) (i n : Nat) : State :=
  winEvent (updExport s i fun x => { x with lost := x.lost + BitVec.ofNat 32 n, lostNow := x.lostNow + n }) 0x0F01 i i 32 32 n

/-- A batch written to a selector's capture ring: lost to a ring that is full (02 R57) or cannot be written.
(Log entry 82.) -/
def batchToRing (s : State) (i : Nat) (x : Export) (recs : List (List Byte)) : State :=
  match captureRing s x.master x.ring with
  | none => exportLost s i recs.length
  | some (m, n) =>
    if ringFull (getRing s m n) then ringLost (updExport s i fun y => { y with lostNow := y.lostNow + recs.length }) m n
    else
      let t := updExport s i fun y =>
        { y with records := y.records + 1, sent := y.sent + BitVec.ofNat 32 recs.length, lostNow := 0 }
      ringPut t m n false (captureSlot recs.flatten (entryBytes (getRing s m n) - 64) true x.fmt32 i (x.records + 1) x.lostNow
        recs.length)

/-- A datagram of a batch (15 R491, Table 15-7). (Log entry 82.) -/
def datagram (x : Export) (i : Nat) (recs : List (List Byte)) : List Byte :=
  let f := x.tmpl.take x.tmplLen
  let f := match udpFrame f with | some c => patch f (c.udp + 2) (bytesBE 2 x.udpPort) | none => f
  closeFrame (fillUdp (f ++ bytesBE 16 (packN [(124, 4, 1), (120, 4, b2n x.fmt32), (104, 16, recs.length), (100, 4, i),
    (64, 32, (x.dgrams + 1).toNat), (0, 64, Config.serial.toNat)]) ++ recs.flatten))

/-- A batch sent to a selector's collector: dropped on a port with LF, at a reserved queue (12 R410), by the test of 09 R338, or for
want of a billet. -/
def batchToPort (s : State) (i : Nat) (x : Export) (recs : List (List Byte)) : State :=
  let f := datagram x i recs
  let q := 16 * x.outPort + x.outQueue
  let b := billetBytes (fitPool f.length)
  if !portExists s x.outPort || bit (getPcs s x.outPort).defects 4 || 16384 < f.length then exportLost s i recs.length
  else if (reservedBy s q).isSome then exportLost (reservedDrop s q) i recs.length
  else if !admits s q b then exportLost (admissionDrop s q) i recs.length
  else match claim s f.length with
    | (t, none) => exportLost (t.updBuf fun x => { x with dropPool := x.dropPool + 1 }) i recs.length
    | (t, some ptr) =>
      let r := freshId t
      let bytes := billetBytes (ptrPool ptr)
      let p : Pkt :=
        { id := r.1, port := x.outPort, frame := f, len0 := f.length, head := [], inDt := s.tb.dt, arrSeq := 0, hv := [],
          ver := activeSeq s, dec := Decision.reset, diverged := false, unlocked := false, rx := none, tx := none, escTag := 0,
          esc := 0, sat := false, lathe := 7, prog := 0, late := false, origin := none }
      let t := writeBillet r.2 ptr 1 f 0
      let t := putStored t r.1 (some ⟨.datagram i, p, some ptr, bytes, 1, 1, none, true, 0, some (ptrPool ptr), []⟩)
      let k := freshId t
      let t := enqueue k.2 q ⟨k.1, r.1, bytes, occOf (getQueue s q), none⟩ f.length
      updExport t i fun y => { y with sent := y.sent + BitVec.ofNat 32 recs.length, dgrams := y.dgrams + 1 }

/-- One batch of a selector sent: as many records as it can hold. (Log entry 82.) -/
def sendBatch (s : State) (i : Nat) : State :=
  let x := getExport s i
  let n := batchSize s x
  let recs := x.batch.take n
  if recs.isEmpty then s else
  let t := updExport s i fun y => { y with batch := y.batch.drop n, since := s.tb.now }
  if x.collector then batchToPort t i x recs else batchToRing t i x recs

/-- Every record gathered by a selector sent. -/
def closeBatch : Nat → State → Nat → State
  | 0, s, _ => s
  | n + 1, s, i => if (getExport s i).batch.isEmpty then s else closeBatch n (sendBatch s i) i

/-- 15 R490: a batch of a selector is full, or FLUSH_US have passed since its first shaving. (Log entry 82.) -/
def execExportBatchFlush (i : Nat) (upset : GrantUpset) (s : State) : Host.Outcome State Fault Refusal :=
  .next (
    let s := grantUpset s upset
    let x := getExport s i
    if batchSize s x ≤ x.batch.length ∨ (x.batch.isEmpty = false ∧ x.since + x.flushUs * 1000 ≤ s.tb.now) then sendBatch s i
    else s)

/-- 15 R496: READ_EXPORT. -/
def execReadExport (o : Order) (s : State) : Host.Outcome State Fault Refusal :=
  .next (runOrder (readForm 0x0F06 [0xF3] 0xF [] 0 modesOn) o s {} fun t =>
    let x := getExport t o.inst
    (t, .done stSuccess (packN [(0, 32, x.sent.toNat), (32, 32, x.lost.toNat)])))

/-- The ring that an EXPORT_SET names is an enabled capture ring. -/
def exportRingOk (s : State) (o : Order) : Bool :=
  match mOf (o.f 120 2) with
  | some m => let r := getRing s m (o.f 122 8); decide (o.f 122 8 < ringCount m) && r.enable && r.type == 4
  | none => false

/-- 15 R497: EXPORT_SET; its ranges bind a set that enables. -/
def execExportSet (o : Order) (s : State) : Host.Outcome State Fault Refusal :=
  let x := getExport s o.inst
  let coll := o.b 65
  let len := o.f 173 7
  let bad :=
    decide (o.f 68 16 = 0) || decide (o.f 84 20 = 0) || decide (400000 < o.f 84 20) || decide (o.f 104 16 = 0) ||
      (if coll then decide (o.f 143 14 < 256) || decide (9000 < o.f 143 14) || decide (len < 42) || decide (66 < len) ||
        !x.tmplOk || len != x.tmplLen
       else !exportRingOk s o)
  .next (runOrder (setForm 0x4F06 [0xF3] 0xF [(0, 180)] modesSet true) o s
    { malformed := filterReserved (o.f 0 64) || decide (o.f 120 2 = 3), badArgument := o.b 64 && bad } fun t =>
    let t := closeBatch (getExport t o.inst).batch.length t o.inst
    (updExport t o.inst fun y =>
      { y with filter := BitVec.ofNat 64 (o.f 0 64), enable := o.b 64, collector := coll, fmt32 := o.b 66, trigger := o.b 67,
               sampleN := o.f 68 16, rateKps := o.f 84 20, flushUs := o.f 104 16, master := o.f 120 2, ring := o.f 122 8,
               outPort := o.f 130 9, outQueue := o.f 139 4, mtu := o.f 143 14, udpPort := o.f 157 16, tmplLen := len,
               tmplOk := y.tmplOk && len == y.tmplLen }, .done stSuccess 0))

/-- 15 R497: EXPORT_TEMPLATE. -/
def execExportTemplate (o : Order) (s : State) : Host.Outcome State Fault Refusal :=
  .next (runPtr (ptrForm 0x4F0D [0xF3] 0xF modesSet true) o s { malformed := ptrLen o != 128 }
    (fun bs => { badArgument := (bs.drop (getExport s o.inst).tmplLen).any fun b => b != 0 })
    fun bs t =>
      let t := closeBatch (getExport t o.inst).batch.length t o.inst
      (updExport t o.inst fun y => { y with tmpl := padTo 128 bs, tmplOk := true }, .done stSuccess 0))

/-! Capture (15 R492 to R494) -/

def updCap (s : State) (f : Capture → Capture) : State := s.updTel fun q => { q with cap := f q.cap }

/-- 15 R496: CLASS_SET. -/
def execClassSet (o : Order) (s : State) : Host.Outcome State Fault Refusal :=
  let n := o.f 1 15
  .next (runOrder (setForm 0x4F09 [0xF7] 0xF [(0, 16)] [.prepare, .service, .coast] true) o s
    { badObject := decide (o.inst = 0), badArgument := decide (n < 64) || decide (16384 < n) || decide (n % 64 ≠ 0) } fun t =>
    (t.updTel fun q => { q with classes := SMap.put (fun _ => CapClass.reset) q.classes o.inst ⟨o.b 0, n⟩ },
      .done stSuccess 0))

/-- 15 R496: READ_CAPTURE. -/
def execReadCapture (o : Order) (s : State) : Host.Outcome State Fault Refusal :=
  .next (runOrder (readForm 0x0F07 [0xF7] 0 [] 0 modesOn) o s {} fun t =>
    let c := t.tel.cap
    (t, .done stSuccess (packN [(0, 2, c.state), (2, 30, min c.recs.length (2 ^ 30 - 1)), (32, 32, c.lost.toNat)])))

/-- A record of the capture ring delivered to its slot, lost to a ring that is full; none while it cannot be written. -/
def deliverRec (s : State) (r : CapRec) : Option (State × Bool) :=
  let c := s.tel.cap
  (captureRing s c.master c.ring).map fun k =>
    if ringFull (getRing s k.1 k.2) then
      (ringLost (updCap s fun c => { c with lostNow := c.lostNow.modify r.cls fun n => n + 1 }) k.1 k.2, false)
    else
      let t := updCap s fun c => { c with lostNow := c.lostNow.set r.cls 0 }
      (ringPut t k.1 k.2 false (captureSlot r.bytes (entryBytes (getRing s k.1 k.2) - 64) false false r.cls r.no
        (c.lostNow.getD r.cls 0) 1), true)

/-- The records held delivered in ring order, while the ring can be written. (Log entry 83.) -/
def deliverAll : Nat → State → State
  | 0, s => s
  | n + 1, s =>
    match s.tel.cap.recs with
    | [] => s
    | r :: rs =>
      match deliverRec s r with
      | none => s
      | some (t, ok) =>
        deliverAll n (updCap t fun c => { c with recs := rs, delivered := c.delivered + b2n ok })

/-- Bytes that the capture ring holds. -/
def capHeld (l : List CapRec) : Nat := sumN (l.map fun r => r.bytes.length)

/-- The newest records that fit beside one of `n` bytes: a wrapping ring overwrites the oldest. -/
def capFit (cap n : Nat) : List CapRec → List CapRec
  | [] => []
  | r :: rs => if capHeld (r :: rs) + n ≤ cap then r :: rs else capFit cap n rs

/-- A record put into the DRAM region (15 R493): lost in stream mode when it is full, or while the ring is frozen.
(Log entry 83.) -/
def capWrite (s : State) (cls : Nat) (bytes : List Byte) : State :=
  let c := s.tel.cap
  let cap := s.buf.capForce * 2 ^ 20
  if c.state ≠ 0 then capLost s cls
  else if !c.wrap && decide (cap < capHeld c.recs + bytes.length) then capLost s cls
  else
    let no := c.numbers.getD cls 0 + 1
    let t := updCap s fun c =>
      { c with recs := (if c.wrap then capFit cap bytes.length c.recs else c.recs) ++ [⟨cls, no, bytes⟩], number := c.number + 1,
               numbers := c.numbers.set cls no, post := c.post.map fun n => n - 1 }
    freezeDone t

/-- 15 R492: the oldest waiting capture copy whose packet's shaving is final, or whose reference is the packet's last, is written
with that shaving. `crcOk` is the check of its read of the billet (09 R334); `fault` the channel group and address of a transfer
that failed twice as the capture reader delivered the record (17 R542), `m` the record's transfer (14 Table 14-1). -/
def execCaptureRecordWrite (crcOk : Bool) (fault : Option (Nat × Nat)) (u : BilletUpset) (m : DramUse) (s : State) :
    Host.Outcome State Fault Refusal :=
  .next (
    let ready := fun (c : CapCopy) => match getStored s c.pkt with | some x => x.final || decide (x.refs ≤ 1) | none => true
    match s.tel.cap.waiting.find? ready with
    | none => s
    | some c =>
      let t := updCap s fun q => { q with waiting := q.waiting.erase c }
      match getStored t c.pkt with
      | none => t
      | some x =>
        let t := finaliseStored t c.pkt (Finish.dropped x.cause)
        let dead := !crcOk && x.ptr.isSome
        let t :=
          if dead then countDrop (crcFailed t c.pkt x.pkt.port) x.pkt.port 0x93
          else
            let shav := match getStored t c.pkt with | some y => y.shav | none => []
            let n := (64 + c.bytes.length + 63) / 64 * 64
            capWrite (dramUse t 4 m) c.cls (padTo n (padTo 64 shav ++ c.bytes))
        let t := match c.carrier with | some k => carriedDone t k u | none => endRef t c.pkt u
        let t :=
          if t.tel.cap.wrap then t
          else match fault, t.tel.cap.recs with
            | some f, r :: rs =>
              let v := recordError t 17 0x0A (f.1 % 8) 1 3 (packN [(0, 3, 5), (8, 56, f.2)])
              capLost (updCap v fun q => { q with recs := rs }) r.cls
            | _, _ => deliverAll t.tel.cap.recs.length t
        pfcTryAll t)

/-- 15 R493: CAPTURE_SET. (Log entry 83.) -/
def execCaptureSet (o : Order) (s : State) : Host.Outcome State Fault Refusal :=
  .next (runOrder (setForm 0x4F0A [0xF7] 0 [(0, 31)] [.prepare, .service, .coast] true) o s
    { malformed := decide (o.f 1 2 = 3), chapter := if s.tel.cap.state = 2 then some 0x8F02 else none } fun t =>
    let t := updCap t fun c =>
      { c with wrap := o.b 0, master := o.f 1 2, ring := o.f 3 8, postRecords := o.f 11 20,
               state := if o.b 0 then c.state else 0, post := if o.b 0 then c.post else none }
    (if o.b 0 then t else deliverAll t.tel.cap.recs.length t, .done stSuccess 0))

/-- 15 R493: CAPTURE_FREEZE; a ring in stream mode does not freeze. (Log entry 83.) -/
def execCaptureFreeze (o : Order) (s : State) : Host.Outcome State Fault Refusal :=
  .next (runOrder (setForm 0x4F0B [0xF7] 0 [] [.prepare, .service, .coast] true) o s
    { chapter := if s.tel.cap.state ≠ 0 ∨ s.tel.cap.post.isSome = true then some 0x8F03 else none } fun t =>
    (if t.tel.cap.wrap then freezeCapture t none else t, .done stSuccess t.tel.cap.number))

/-- 15 R493: CAPTURE_DRAIN. -/
def execCaptureDrain (o : Order) (s : State) : Host.Outcome State Fault Refusal :=
  .next (runOrder (setForm 0x4F0C [0xF7] 0 [] [.prepare, .service, .coast] true) o s
    { chapter := if s.tel.cap.state ≠ 1 then some 0x8F02 else none } fun t =>
    (updCap t fun c => { c with state := 2, delivered := 0 }, .later))

/-- 15 R493: a frozen ring has been delivered, and restarts; what its host ring cannot take is lost. In HALT it cannot be read
(R494). -/
def execCaptureDrainDone (m : DramUse) (s : State) : Host.Outcome State Fault Refusal :=
  .next (
    if s.tel.cap.state ≠ 2 ∨ s.mode.mode = .halt then s else
    let t := deliverAll s.tel.cap.recs.length (dramUse s 5 m)
    let t := t.tel.cap.recs.foldl (fun v r => capLost v r.cls) t
    let n := t.tel.cap.delivered
    let t := updCap t fun c => { c with recs := [], state := 0, delivered := 0 }
    match findRunning t 0x4F0C fun _ => true with
    | some r => finishOrder t r stSuccess n
    | none => t)

end Sys2Proof.Machine
end

