-- ==== Sys2Proof/Machine/Steps.lean ====
section
/-! DEFINITION. Steps of DT with what they make due, the servo's evaluations, PPS_IN, and the orders and events that step DT
(06 R197 to R201, R211, R220). -/

namespace Sys2Proof.Machine

/-! What is due at a DT (06 R210, R211) -/

/-- The actions that wait for a DT: a gate list's takeover, a workload phase, a SEL_CTRL, a commit, an arbiter commit, a
sequencer group's set. -/
inductive Due where
  | gcl (n : Nat)
  | phase
  | sel
  | commit
  | arb
  | seq (g : Nat)
deriving DecidableEq, Repr

/-- The actions pending, each with its DT. -/
def pendingActs (s : State) : List (Nat × Due) :=
  (s.egr.pend.filterMap fun kv => kv.2.map fun g => (g.takeover, .gcl kv.1)) ++
  (if awake s then s.pwr.pend.toList.map fun x => (x.tp, .phase) else []) ++
  ((selNext s).toList.map fun w => (w.due, .sel)) ++
  (if (stagedSeq s).isSome then s.ver.pend.toList.map fun p => (p.tc, .commit) else []) ++
  s.arb.pend.toList.map (fun t => (t, .arb)) ++
  s.grp.seqs.flatMap fun kv => kv.2.pend.map fun p => (p.ts, .seq kv.1)

/-- The one that is due first, if any is due. -/
def nextDue (s : State) : Option Due :=
  ((pendingActs s).foldl (fun best x =>
    if s.tb.dt < x.1 then best
    else match best with | some b => if x.1 < b.1 then some x else some b | none => some x) (none : Option (Nat × Due))).map Prod.snd

/-- An action that is due takes effect. -/
def takeDue (s : State) : Due → State
  | .gcl n => takeover s n
  | .phase => phaseTakes s
  | .sel => selTakes s
  | .commit => commitTakes s
  | .arb => arbTakes s
  | .seq g => seqTakes s g

/-- Up to `n` actions that are due take effect in the order of their DT. -/
def runDueN : Nat → State → State
  | 0, s => s
  | n + 1, s => match nextDue s with | some d => runDueN n (takeDue s d) | none => s

/-- Everything that is due takes effect. -/
def runDue (s : State) : State := runDueN ((pendingActs s).length + s.tel.selWaits.length) s

/-! Steps and evaluations -/

/-- A step of DT (06 R201): its record carries both values and stands at the DT before it. -/
def stepDt (s : State) (new : Nat) : State :=
  let old := s.tb.dt
  let t := logOffer s 0x02 0 false false old (packN [(224, 96, (dtWord old).toNat), (128, 96, (dtWord new).toNat)])
  let t := updTime t fun b => { b with dt := new, stepSeen := true, unlockUntil := b.now + 1000 }
  let t := postAll t 0x0602 0 (unsigned 64 ((new : Int) - old))
  stepGroups (suspectBins (t.updPcs fun x => { x with lastSec := new / dtSec }) old new) old new

/-- A step of DT with what it steps over, which takes effect (06 R211). -/
def stepDtDue (s : State) (new : Nat) : State := runDue (stepDt s new)

/-- One evaluation against the source (06 R197, R198, Table 6-4): `off` is the measured offset in 1/65,536 ns, `freq` the
servo's estimate of the rate offset, which the spec gives no rule for (log entry 38). -/
def evaluate (s : State) (off freq : Int) : State :=
  if servoHeld s then s else
  let freq := max (-50000000) (min 50000000 freq)
  let s := s.updTb fun b => { b with offset := off }
  match s.tb.servo with
  | .freerun => s
  | .acquiring =>
    let n := if withinLock s.tb off then s.tb.goodRun + 1 else 0
    let t :=
      if beyondStep s.tb off then
        let new : Int := (s.tb.dt : Int) + off
        let u := stepDtDue s new.toNat
        u.updTb fun b => { b with slew := if new < 0 then new else 0 }
      else s.updTb fun b => { b with slew := off }
    let t := t.updTb fun b => { b with goodRun := n }
    if 16 ≤ n then setServo (t.updTb fun b => { b with learned := [] }) .locked else t
  | .locked =>
    let n := if beyondStep s.tb off then s.tb.badRun + 1 else 0
    let t := s.updTb fun b =>
      { b with slew := off, badRun := n, freqPpt := freq,
               learned := (b.now, freq) :: b.learned.filter fun x => decide (b.now ≤ x.1 + 1000000000000) }
    if 3 ≤ n then setServo t .acquiring else t
  | .holdover =>
    if !qualified s then s
    else if withinLock s.tb off then setServo (s.updTb fun b => { b with learned := [] }) .locked
    else setServo s .acquiring

/-! TB_ADJUST -/

/-- DT after a step by OFFSET stays within its field (06 R220). -/
def stepFits (s : State) (off : Int) : Bool :=
  decide (0 ≤ (s.tb.dt : Int) + off) && decide ((s.tb.dt : Int) + off < (2 ^ 48 * dtSec : Nat))

/-- 06 R220: TB_ADJUST. -/
def execTbAdjust (o : Order) (s : State) : Host.Outcome State Fault Refusal :=
  let k := o.f 0 2
  let freq := signed 32 (o.f 32 32)
  let off := signed 64 (o.f 64 64)
  let c : Checks :=
    { badArgument := (k == 0 && decide (50000000 < freq.natAbs)) || (k == 2 && !stepFits s off),
      chapter := if s.tb.set.source ≠ 0 ∧ ¬ (k = 3 ∧ s.tb.set.source = 1) then some 0x8601 else none }
  .next (runOrder (setForm 0x4602 [0x61] 0 [(0, 2), (32, 32), (64, 64), (128, 48)] modesOn false) o s c fun t =>
    let u := t.updTb fun b => { b with slew := 0, ownerSlew := false, setSec := none }
    (match k with
      | 0 => u.updTb fun b => { b with freqPpt := freq }
      | 1 => u.updTb fun b => { b with slew := off, ownerSlew := true }
      | 2 => stepDtDue u ((u.tb.dt : Int) + off).toNat
      | _ => u.updTb fun b => { b with setSec := some (o.f 128 48, b.dt / dtSec) },
      .done stSuccess 0))

/-- 06 R220: the second boundary after a TB_ADJUST of kind 3. -/
def execTbAdjustSecondBoundary (s : State) : Host.Outcome State Fault Refusal :=
  .next (
    match s.tb.setSec with
    | some (v, sec) =>
      if sec < s.tb.dt / dtSec then
        stepDtDue (s.updTb fun b => { b with setSec := none }) (v * dtSec + s.tb.dt % dtSec)
      else s
    | none => s)

/-! PPS_IN and native-port sources -/

/-- PPS_FAULT (06 Table 6-18). -/
def postPps (s : State) (on : Bool) : State := postAll s 0x0603 0 (b2n on)

/-- The second of an event on PPS_IN: one before it that turned out good ends a row of bad ones (06 R199). (Log entry 38.) -/
def ppsTouch (b : TbSt) : TbSt :=
  let sec := b.now / 1000000000
  if b.ppsSec = sec then b
  else { b with ppsSec := sec, ppsSecEdges := 0, ppsSecBad := false, ppsBad := if b.ppsSecBad then b.ppsBad else 0 }

/-- The second is bad, counted once (06 R199): three in a row latch the fault. -/
def badSecond (s : State) : State :=
  let s := s.updTb fun b => { b with ppsGood := 0 }
  if s.tb.ppsSecBad then s else
  let n := s.tb.ppsBad + 1
  let t := s.updTb fun b => { b with ppsBad := n, ppsSecBad := true }
  if 3 ≤ n ∧ s.tb.ppsFault = false then
    requalify (postPps (t.updTb fun b => { b with ppsFault := true, ppsOk := false }) true)
  else t

/-- A rising edge of PPS_IN is accepted (06 R199). -/
def ppsAccepts (b : TbSt) (highNs : Nat) : Bool :=
  decide (100 ≤ highNs) && (match b.ppsRise with | some t => decide (t + 500000000 < b.now) | none => true) &&
    (!b.ppsOk || (match b.ppsAccepted with
      | some t => decide (t + 999990000 ≤ b.now) && decide (b.now ≤ t + 1000010000)
      | none => true))

/-- The offset of an accepted edge: it marks a whole second of the reference. (Log entry 38.) -/
def ppsOffset (dt : Nat) : Int := if 2 * (dt % dtSec) ≤ dtSec then -((dt % dtSec : Nat) : Int) else dtSec - (dt % dtSec : Nat)

/-- An accepted edge qualifies the source, or counts toward releasing the latch (06 R199). -/
def ppsAccepted (s : State) : State :=
  let n := s.tb.ppsGood + 1
  let t := s.updTb fun b => { b with ppsAccepted := some b.now, ppsFrom := b.now, ppsGood := n }
  if s.tb.ppsFault then
    if 10 ≤ n then requalify (postPps (t.updTb fun b => { b with ppsFault := false, ppsOk := true, ppsBad := 0 }) false) else t
  else requalify (t.updTb fun b => { b with ppsOk := true })

/-- 06 R199: a rising edge of PPS_IN, with how long the pulse stays high; an accepted edge is an evaluation under source 1.
(Log entry 38.) -/
def execPpsInEdge (highNs : Nat) (freq : Int) (s : State) : Host.Outcome State Fault Refusal :=
  .next (
    if s.mode.mode == .dormant then s else
    let ok := ppsAccepts s.tb highNs
    let t := s.updTb fun b =>
      let c := ppsTouch b
      { c with ppsRise := some b.now, ppsSecEdges := c.ppsSecEdges + 1 }
    let u := if ok then ppsAccepted t else t
    let u := if !ok || decide (2 ≤ t.tb.ppsSecEdges) then badSecond u else u
    if ok && u.tb.set.source == 1 && qualified u then evaluate u (ppsOffset u.tb.dt) freq else u)

/-- 06 R199: 1.5 s without an accepted edge are a bad second. (Log entry 38.) -/
def execPpsBadSecond (s : State) : Host.Outcome State Fault Refusal :=
  .next (
    if s.mode.mode ≠ .dormant ∧ s.tb.ppsFrom + 1500000000 ≤ s.tb.now then
      badSecond (s.updTb fun b => { ppsTouch b with ppsFrom := b.now })
    else s)

/-- 06 R197, R198: an evaluation against a native-port source, one each millisecond of elapsed time: the offset is the mean that the
port reports (R207). The evaluations of the other sources are made by their edge and their message. (Log entry 38.) -/
def execServoEvaluation (freq : Int) (s : State) : Host.Outcome State Fault Refusal :=
  .next (
    if s.tb.set.source = 3 ∧ qualified s = true ∧ s.tb.evalMs ≠ some (s.tb.now / 1000000) then
      evaluate (s.updTb fun b => { b with evalMs := some (b.now / 1000000) })
        (meanOf ((getLtt s s.tb.set.sourcePort).samples.map Prod.snd)) freq
    else s)

end Sys2Proof.Machine
end

