-- ==== Sys2Proof/Machine/Fetch.lean ====
section
/-! DEFINITION. The fetch of a work order from a command ring and its dispatch by opcode, and the end of a payload's read (02 R58,
R61 to R69, R73; 20 Table 20-6). -/

namespace Sys2Proof.Machine

/-- An order's effect: what becomes of the state when it is accepted. -/
abbrev Meaning := Order → State → Host.Outcome State Fault Refusal

/-- The orders of subject 2, ownership (20 Table 20-6). -/
def orders2 : List (Nat × Meaning) :=
  [(0x0201, execNop), (0x0202, execReadOwnership), (0x8201, execHandoverOffer), (0x8202, execHandoverAccept),
   (0x8203, execHandoverWithdraw), (0x8204, execRelease)]

/-- The orders of subject 3, modes (20 Table 20-6). -/
def orders3 : List (Nat × Meaning) :=
  [(0x0301, execReadStart), (0x4301, execStart), (0x4302, execEnterService), (0x4303, execEnterProbe)]

/-- The orders of subject 4, lanes (20 Table 20-6). -/
def orders4 : List (Nat × Meaning) :=
  [(0x0401, execReadLane), (0x0402, execReadOe), (0x0403, execEyeScan), (0x0404, execRawCapture),
   (0x4401, execPortSet), (0x4402, execLaneSet), (0x4403, execRecalibrate), (0x4404, execSpare),
   (0x4405, execUnspare), (0x4406, execOeSet), (0x4407, execXpSet), (0x4408, execElsXfer)]

/-- The orders of subject 5, link monitoring (20 Table 20-6). -/
def orders5 : List (Nat × Meaning) :=
  [(0x0501, execReadPcs), (0x0502, execReadPm), (0x0503, execReadNeighbour), (0x4501, execPcsSet),
   (0x4502, execDefectAck)]

/-- The orders of subject 6, time and evidence (20 Table 20-6). -/
def orders6 : List (Nat × Meaning) :=
  [(0x0601, execReadTb), (0x0602, execReadLtt), (0x0603, execReadLogBlock), (0x0604, execReadCert),
   (0x4601, execTbSet), (0x4602, execTbAdjust), (0x4603, execPtpPortSet), (0x4604, execLttSet),
   (0x4605, execLogSet), (0x4606, execLogClose), (0x4607, execLogRelease)]

/-- The orders of subject 7, versions and packets (20 Table 20-6). -/
def orders7 : List (Nat × Meaning) :=
  [(0x0701, execReadVersions), (0x0702, execReadParser), (0x0703, execReadStage), (0x0704, execReadHostmap),
   (0x0705, execReadSprayRx), (0x0706, execReadMcast), (0x4701, execParserSet), (0x4702, execPortParseSet),
   (0x4703, execStageSet), (0x4704, execStageOpen), (0x4705, execCommit), (0x4706, execStageDiscard),
   (0x4707, execHostmapSet), (0x4708, execDealSet), (0x4709, execSpraySet), (0x470A, execSprayGroupSet),
   (0x470B, execMcastSet)]

/-- The orders of subject 8, tables (20 Table 20-6). -/
def orders8 : List (Nat × Meaning) :=
  [(0x0801, execReadTables), (0x0802, execEmLookup), (0x0803, execLpmLookup), (0x0804, execTableDump),
   (0x4801, execTableDef), (0x4802, execEmWrite), (0x4803, execLpmWrite), (0x4804, execAclWrite),
   (0x4805, execActionWrite), (0x4806, execTableBulk), (0x4807, execLearnSet), (0x4808, execAgeSet),
   (0x4809, execShadowSet), (0x480A, execFlushLearned)]

/-- The orders of subject 9, the buffer (20 Table 20-6). -/
def orders9 : List (Nat × Meaning) :=
  [(0x0901, execReadBuffer), (0x0902, execReadQueue), (0x0903, execReadPg), (0x4901, execPoolSet),
   (0x4902, execQueueAdmitSet), (0x4903, execPgSet), (0x4904, execDramSet)]

/-- The orders of subject 10, lathes (20 Table 20-6). -/
def orders10 (test : Nat) : List (Nat × Meaning) :=
  [(0x0A01, execReadLathe), (0x0A02, execReadBank), (0x0A03, execShmRead), (0x0A04, execReadControlStore),
   (0x4A01, execImageLoad), (0x4A02, execBankClear), (0x4A03, execShmWrite), (0x4A04, execLatheIsolate),
   (0x4A05, execLatheRestore), (0x4A06, execMicrocodeReload),
   (0x4A07, fun o s => execMandrelTest o test s), (0x4A08, execCsInject)]

/-- The orders of subject 11, egress (20 Table 20-6). -/
def orders11 : List (Nat × Meaning) :=
  [(0x0B01, execReadSched), (0x0B02, execReadGcl), (0x0B03, execReadShaper), (0x4B01, execQueueSchedSet),
   (0x4B02, execShaperSet), (0x4B03, execGclSet), (0x4B04, execGclCancel), (0x4B05, execPfcSet),
   (0x4B06, execEscSet), (0x4B07, execStormRestore)]

/-- The orders of subject 12, sequencing and fan-out (20 Table 20-6). -/
def orders12 : List (Nat × Meaning) :=
  [(0x0C01, execReadSeq), (0x0C02, execReadFanout), (0x0C03, execReadGrid), (0x0C04, execReadTrim),
   (0x0C05, execReadGroupConfig), (0x4C01, execSeqGroupSet), (0x4C02, execFanoutGroupSet), (0x4C03, execTrimSet),
   (0x4C04, execTrimMeasure)]

/-- The orders of subject 13, collective reduction (20 Table 20-6). -/
def orders13 : List (Nat × Meaning) :=
  [(0x0D01, execReadContext), (0x0D02, execReadCu), (0x4D01, execContextSet), (0x4D02, execContextMove),
   (0x4D03, execContextReset), (0x4D04, execCollSet)]

/-- The orders of subject 14, arbitration (20 Table 20-6). -/
def orders14 : List (Nat × Meaning) :=
  [(0x0E01, execReadArb), (0x4E01, execArbSet), (0x4E02, execArbCommit)]

/-- The orders of subject 15, telemetry (20 Table 20-6). -/
def orders15 : List (Nat × Meaning) :=
  [(0x0F01, execReadPortCounters), (0x0F02, execReadSel), (0x0F03, execReadHist), (0x0F04, execReadSketch),
   (0x0F05, execReadBw), (0x0F06, execReadExport), (0x0F07, execReadCapture), (0x4F01, execSelSet),
   (0x4F02, execSelCtrl), (0x4F03, execReadClear), (0x4F04, execHistSet), (0x4F05, execSketchSet),
   (0x4F06, execExportSet), (0x4F07, execEvSet), (0x4F08, execBwSet), (0x4F09, execClassSet),
   (0x4F0A, execCaptureSet), (0x4F0B, execCaptureFreeze), (0x4F0C, execCaptureDrain), (0x4F0D, execExportTemplate)]

/-- The orders of subject 16, power (20 Table 20-6). -/
def orders16 : List (Nat × Meaning) :=
  [(0x1001, execReadPower), (0x1002, execReadPhase), (0x1003, execReadThermal), (0x5001, execPhaseSet),
   (0x5002, execPhaseSelect), (0x5003, execPhaseCancel), (0x5004, execPowerSet)]

/-- The orders of subject 17, errors (20 Table 20-6). -/
def orders17 : List (Nat × Meaning) :=
  [(0x1101, execReadErrors), (0x1102, execReadFatal), (0x5101, execErrClose), (0x5102, execCuIsolate),
   (0x5103, execCuRestore)]

/-- Every opcode defined (20 R609). `test` is what a MANDREL_TEST meets. -/
def orderTable (test : Nat) : List (Nat × Meaning) :=
  orders2 ++ orders3 ++ orders4 ++ orders5 ++ orders6 ++ orders7 ++ orders8 ++ orders9 ++
    orders10 test ++ orders11 ++ orders12 ++ orders13 ++ orders14 ++ orders15 ++ orders16 ++ orders17

/-- The order of opcode `op` run; a reserved opcode is malformed (00 R15). -/
def runOpcode (op : BitVec 16) (o : Order) (test : Nat) (s : State) :
    Host.Outcome State Fault Refusal :=
  match (orderTable test).find? fun e => e.1 == op.toNat with
  | some e => e.2 o s
  | none => execReservedOpcodeOrder o op s

/-! The fetch -/

/-- A work order from the 512 bits read (02 Table 2-8). -/
def orderOfBits (m : Master) (n : Nat) (index : BitVec 16) (w : BitVec 512) (data : PtrData) (resultOk : Bool) : Order :=
  { master := m, ring := n, index := index, flags := w.extractLsb' 16 16, tag := w.extractLsb' 32 16,
    rsvd := w.extractLsb' 48 16, object := w.extractLsb' 64 32, ownGen := w.extractLsb' 96 32,
    resultAddr := w.extractLsb' 128 64, payload := w.extractLsb' 192 320, data := data, resultOk := resultOk }

/-- A command ring that may fetch (02 R46, R57, R58, R73): its master attached, not stopped, an order in it, its completion
ring with space and no completion waiting for it. (Log entry 17.) -/
def fetchReady (s : State) (m : Master) (n : Nat) : Bool :=
  let r := getRing s m n
  let c := getRing s m r.cmpl
  attached s m && r.enable && r.type == 0 && !r.stopped && r.dev != r.host && cmplReady c && !ringFull c &&
    !s.host.held.any fun h => h.order.master == m && (getRing s m h.order.ring).cmpl == r.cmpl

/-- The orders accepted and not complete. (Log entry 17.) -/
def inProgress (s : State) : List Order :=
  (s.host.running ++ s.host.awaiting).map (fun r => r.order) ++ s.mode.waiting ++ s.mode.req.toList ++ s.mode.joined ++
    s.mode.pendCold.toList ++ s.mode.pendJoined ++ s.mode.restore.toList

/-- An order that is not yet accepted (02 R69): FENCE, the ownership class or the order after one waits for every earlier order
of the ring; any order waits for a START of the ring that is pending acceptance (03 R109), and for one of the ring that names
its object and whose payload is still awaited. (Log entry 17.) -/
def mustWait (s : State) (o : Order) (op : BitVec 16) : Bool :=
  ((o.fence || clsOf op.toNat == .ownership || (getRing s o.master o.ring).ownLast) &&
    (inProgress s).any fun x => x.master == o.master && x.ring == o.ring) ||
  s.mode.waiting.any (fun x => x.master == o.master && x.ring == o.ring) ||
  s.host.awaiting.any fun r => r.order.master == o.master && r.order.ring == o.ring && r.order.object == o.object

/-- The bits of M0's next order, read from its window (02 R51); what lies beyond its 32 KiB reads as zero bytes, so that such
an order is malformed (log entry 16). -/
def m0Order (s : State) (n : Nat) : BitVec 512 :=
  BitVec.ofNat 512 (leNat (m0Load s (entryAddr (getRing s .m0 n)) 64))

/-- A DMA error on a ring (02 R58). (Log entry 14.) -/
def ringFault (s : State) (m : Master) (n : Nat) : State :=
  postTo (updRing s m n fun r => { r with fault := true, stopped := true }) 0x0207 0 n m

/-- 02 R69, R73: the device fetches the next order of a command ring. `bits` is what the read of host memory returns (none: it
failed); M0's order comes from its window. The rest is what the order meets: the answer of its payload or of the device it
reaches, whether its result can be written, what a mandrel test meets. (Log entry 17.) -/
def execOrderFetch (m : Master) (n : Nat) (bits : Option (BitVec 512)) (data : PtrData) (resultOk : Bool)
    (test : Nat) (s : State) : Host.Outcome State Fault Refusal :=
  if !fetchReady s m n then .next s else
  match (if m = .m0 then some (m0Order s n) else bits) with
  | none => .next (ringFault s m n)
  | some w =>
    let r := getRing s m n
    let op := w.extractLsb' 0 16
    let o := orderOfBits m n r.dev w (if m = .m0 ∧ bit w 16 = true then .later else data)
      (m == .m0 || resultOk)
    if mustWait s o op then .next s
    else
      let t := updRing s m n fun q => { q with dev := q.dev + 1, ownLast := clsOf op.toNat == .ownership }
      runOpcode op o test t

/-- What the read of a payload returns: for M0 the bytes of its window (02 R51), an address beyond it failing. -/
def payloadOf (s : State) (o : Order) (data : PtrData) : PtrData :=
  if o.master = .m0 then
    if o.f 0 64 + ptrLen o ≤ 0x8000 then .bytes (m0Load s (o.f 0 64) (ptrLen o)) else .failed
  else data

/-- 02 R63, R68: the payload of the `i`-th order that awaits one has been read: the second pass runs. -/
def execPayloadDmaDone (i : Nat) (data : PtrData) (s : State) : Host.Outcome State Fault Refusal :=
  match s.host.awaiting[i]? with
  | none => .next s
  | some e =>
    match payloadOf s e.order data with
    | .later => .next s
    | d =>
      match runOpcode e.opcode { e.order with data := d } 0 s with
      | .next t => .next (retryStarts (t.updHost fun h => { h with awaiting := h.awaiting.erase e }))
      | x => x

end Sys2Proof.Machine
end

