-- ==== Sys2Proof/Machine/Insns.lean ====
section
/-! DEFINITION. The instructions of the lathes' action ISA (10 R353, R354, R360 to R364). Each command is one instruction that
a lathe runs next; a lathe that is idle first starts the packet at the front of its queue (10 R352). -/

namespace Sys2Proof.Machine

/-- What an instruction's effect ends in: the state, the index of the next instruction, the microcycles it stalled and whether its
lookup hit; a program fault (10 Table 10-6); or a parity error on a memory word (0 register, 1 local, 2 shared). -/
inductive LRes where
  | next (s : State) (pc : Int) (stall : Nat := 0) (hit : Bool := false)
  | fault (code : Nat)
  | bad (kind word : Nat)

/-- The packet at the front of an idle lathe's queue started (10 R352). -/
def startNext (s : State) (k : Nat) : State :=
  let l := getLathe s k
  if l.cur.isSome || l.iso != 0 || l.testing || l.recovery.isSome then s else
  match l.queue with
  | .packet d :: q =>
    let b := (bankSel s d.pkt.ver).getD false
    let e := (bankOf s b).table.getD d.pkt.prog 0
    updLathe s k fun x => { x with queue := q, cur := some ⟨d, b, fld e 0 16, 0, e, false, false⟩ }
  | _ => s

/-- The run on a lathe changed, and its packet. -/
def updRun (s : State) (k : Nat) (f : Run → Run) : State := updLathe s k fun l => { l with cur := l.cur.map f }
def updRunPkt (s : State) (k : Nat) (f : Pkt → Pkt) : State :=
  updRun s k fun r => { r with dealt := { r.dealt with pkt := f r.dealt.pkt } }

/-- A fetch from the program bank fails (10 R351, 17 R541): the packet is dropped; the word is copied from another slice, or,
with no good copy in the 32 slices, the bank fails. -/
def fetchError (s : State) (k : Nat) (r : Run) (tried : Nat) : State :=
  let slice := latheSlice k
  let lost := decide (32 ≤ tried)
  let detail := packN [(0, 1, b2n r.bank), (1, 16, r.pc), (17, 6, tried)]
  let t := latheDrop s k 0xA4
  let t := recordError t (groupOfSlice slice) 0x05 slice (if lost then 1 else 0) (if lost then 3 else 1) detail
  if !lost then t else
  let old := bankDigest t r.bank
  let t := updBank t r.bank fun b => { b with state := 3 }
  let t := postAll t 0x0A04 0 (packN [(0, 1, b2n r.bank), (1, 2, 3)])
  if 0 < bankVersions t r.bank then diverge (bankElementChange t r.bank old 0) 3 else t

/-- A word marked and its parity error's consequences (10 R351). -/
def parityError (s : State) (k kind word : Nat) : State :=
  let t := match kind with
    | 0 => updLathe s k fun l => { l with badRegs := if l.badRegs.contains word then l.badRegs else word :: l.badRegs }
    | 1 => updLathe s k fun l => { l with badMem := if l.badMem.contains word then l.badMem else word :: l.badMem }
    | _ => s.updLat fun x =>
        let i := 2 ^ 18 * latheSlice k + word
        { x with badShm := if x.badShm.contains i then x.badShm else i :: x.badShm }
  latheDrop (memoryError t k kind word) k 0xA4

/-- The executed microcycles pass a packet's budget (10 R362). -/
def overBudget (r : Run) (n : Nat) : Bool := decide (16 * fld r.entry 16 16 < r.executed + n)

/-- `n` microcycles of an instruction's microroutine run, from the lathe as it stood before (10 R366). -/
def runMicro (s : State) (i : LInsn) (l : Lathe) (frame : List Byte) (n : Nat) (hit : Bool) : State :=
  let m := (microRoutine i l frame s.freeCtr n hit).m
  { updLathe s i.lathe fun x => { x with micro := m, busy := x.busy + n } with freeCtr := s.freeCtr + n }

/-- An instruction's end: its microcycles tested against the budget at the safe point (10 R362, R367). -/
def endInsn (s : State) (k cost stall pc : Nat) (target : Int) (done : Bool) : State :=
  let t := updLathe s k fun l => { l with stalls := l.stalls + stall }
  match (getLathe t k).cur with
  | none => t
  | some r =>
    if overBudget r cost then latheFault t k 6 pc
    else
      let next := if target < 0 then 65536 else target.toNat
      let t := updRun t k fun x => { x with executed := x.executed + cost, pc := next, finished := done }
      if done then offerResult (updLathe t k fun l => { l with packets := l.packets + 1 }) k else t

/-- One instruction run by a lathe (10 R351, R361, R362, R372): `srcs` are the registers it reads, `cost` its executed
microcycles, `eff` its effect, `done` that it ends the program, `polls` its SAFE microwords within it: the microcycles up to each, and
what it has done by then. (Log entry 60.) -/
def runInsn (i : LInsn) (s : State) (srcs : List (BitVec 5)) (cost : Lathe → Nat) (done : Bool)
    (eff : State → Run → Lathe → LRes) (polls : Run → Lathe → List (Nat × (State → State)) := fun _ _ => []) : State :=
  let k := i.lathe
  let t := startNext s k
  let l := getLathe t k
  match l.cur with
  | none => t
  | some r =>
    if r.finished || l.iso != 0 || l.testing || l.recovery.isSome then t else
    let regs := srcs.filter fun g => g != 0
    let hit := match i.upset with
      | .reg g => if regs.contains g then some g else regs.find? fun g => l.badRegs.contains g.toNat
      | _ => regs.find? fun g => l.badRegs.contains g.toNat
    match i.upset with
    | .mcheck c w => machineCheck t k c (csBank l r.bank) w
    | .fetch n => fetchError t k r n
    | _ =>
      if i.badFn ∨ (bankOf t r.bank).textWords ≤ r.pc then latheFault t k 1 r.pc
      else
        match hit with
        | some g => parityError t k 0 g.toNat
        | none =>
          match eff t r l with
          | .fault c => latheFault t k c r.pc
          | .bad kind w => parityError t k kind w
          | .next u target stall found =>
            let f := r.dealt.pkt.frame
            match (polls r l).find? fun p => overBudget r p.1 with
            | some p => latheFault (runMicro (p.2 t) i l f p.1 found) k 6 r.pc
            | none => endInsn (runMicro u i l f (cost l) found) k (cost l) stall r.pc target done

/-- The immediate, sign-extended (10 Tables 10-4, 10-8). -/
def LInsn_imm (i : LInsn) : BitVec 64 := i.imm.signExtend 64
/-- The second operand of an instruction with an immediate form. (Log entry 11.) -/
def opB (i : LInsn) (l : Lathe) : BitVec 64 := if i.useImm then LInsn_imm i else greg l i.rb
/-- An address or offset: RA plus the immediate. (Log entry 11.) -/
def addrOf (i : LInsn) (l : Lathe) : Nat := (greg l i.ra + LInsn_imm i).toNat
/-- The instruction that follows. -/
def nextPc (r : Run) : Int := r.pc + 1
/-- RD written. -/
def setRd (s : State) (i : LInsn) (v : BitVec 64) : State := updLathe s i.lathe fun l => setGreg l i.rd v
/-- RD written with a free value (log entry 1). -/
def setRdFree (s : State) (i : LInsn) : State := setRd s.drawn i (BitVec.ofNat 64 (freeBits s 64))
/-- The registers that an arithmetic instruction reads. (Log entry 11.) -/
def aluSrcs (i : LInsn) : List (BitVec 5) := if i.useImm then [i.ra] else [i.ra, i.rb]
/-- An arithmetic instruction (10 Table 10-5): RD := RA op RB or the immediate; no value: the result is free.
(Log entry 57.) -/
def aluInsn (i : LInsn) (s : State) (cost : Nat) (f : BitVec 64 → BitVec 64 → Option (BitVec 64)) : State :=
  runInsn i s (aluSrcs i) (fun _ => cost) false fun t r l =>
    .next (match f (greg l i.ra) (opB i l) with | some v => setRd t i v | none => setRdFree t i) (nextPc r)
/-- A relative branch (10 R360): taken when the condition on RD and RA holds. (Log entry 11.) -/
def branchInsn (i : LInsn) (s : State) (c : BitVec 64 → BitVec 64 → Bool) : State :=
  runInsn i s [i.rd, i.ra] (fun _ => 3) false fun t r l =>
    .next t (if c (greg l i.rd) (greg l i.ra) then (r.pc : Int) + i.imm.toInt else nextPc r)

/-! Arithmetic and logic (2 microcycles) and multiply (6) -/

/-- 10 R360: ADD. -/
def execAdd (i : LInsn) (s : State) : Host.Outcome State Fault Refusal := .next (aluInsn i s 2 fun a b => some (a + b))
/-- 10 R360: SUB. -/
def execSub (i : LInsn) (s : State) : Host.Outcome State Fault Refusal := .next (aluInsn i s 2 fun a b => some (a - b))
/-- 10 R360: AND. -/
def execAnd (i : LInsn) (s : State) : Host.Outcome State Fault Refusal := .next (aluInsn i s 2 fun a b => some (a &&& b))
/-- 10 R360: OR. -/
def execOr (i : LInsn) (s : State) : Host.Outcome State Fault Refusal := .next (aluInsn i s 2 fun a b => some (a ||| b))
/-- 10 R360: XOR. -/
def execXor (i : LInsn) (s : State) : Host.Outcome State Fault Refusal := .next (aluInsn i s 2 fun a b => some (a ^^^ b))
/-- 10 R360: SHL; the result of a shift by 64 or more is not stated. (Log entry 57.) -/
def execShl (i : LInsn) (s : State) : Host.Outcome State Fault Refusal :=
  .next (aluInsn i s 2 fun a b => if b.toNat < 64 then some (a <<< b.toNat) else none)
/-- 10 R360: SHR. (Log entry 57.) -/
def execShr (i : LInsn) (s : State) : Host.Outcome State Fault Refusal :=
  .next (aluInsn i s 2 fun a b => if b.toNat < 64 then some (a >>> b.toNat) else none)
/-- 10 R360: SAR. (Log entry 57.) -/
def execSar (i : LInsn) (s : State) : Host.Outcome State Fault Refusal :=
  .next (aluInsn i s 2 fun a b => if b.toNat < 64 then some (a.sshiftRight b.toNat) else none)
/-- 10 R360: CMP; the value it writes to RD is not stated. (Log entry 57.) -/
def execCmp (i : LInsn) (s : State) : Host.Outcome State Fault Refusal := .next (aluInsn i s 2 fun _ _ => none)
/-- 10 R360: MUL, the low half of the product. -/
def execMul (i : LInsn) (s : State) : Host.Outcome State Fault Refusal := .next (aluInsn i s 6 fun a b => some (a * b))
/-- 10 R360: MULH, the high half; whether the operands are signed is not stated, so it is free where the two readings
differ. (Log entry 57.) -/
def execMulh (i : LInsn) (s : State) : Host.Outcome State Fault Refusal :=
  .next (aluInsn i s 6 fun a b =>
    if a.msb || b.msb then none else some (BitVec.ofNat 64 (a.toNat * b.toNat / 2 ^ 64)))

/-! Bit fields (3) -/

/-- 10 R360: EXT, the field of RA that FN gives into RD. -/
def execExt (i : LInsn) (s : State) : Host.Outcome State Fault Refusal :=
  .next (runInsn i s [i.ra] (fun _ => 3) false fun t r l =>
    if i.len = 0 ∨ 64 < i.lo + i.len then .fault 1
    else .next (setRd t i (BitVec.ofNat 64 (fld (greg l i.ra) i.lo i.len))) (nextPc r))
/-- 10 R360: INS, the low bits of RA into the field of RD that FN gives. -/
def execIns (i : LInsn) (s : State) : Host.Outcome State Fault Refusal :=
  .next (runInsn i s [i.rd, i.ra] (fun _ => 3) false fun t r l =>
    if i.len = 0 ∨ 64 < i.lo + i.len then .fault 1
    else
      let d := greg l i.rd
      let m := BitVec.ofNat 64 ((2 ^ i.len - 1) * 2 ^ i.lo)
      .next (setRd t i ((d &&& ~~~m) ||| ((greg l i.ra <<< i.lo) &&& m))) (nextPc r))

/-! Branches (3) -/

/-- 10 R360: BEQ. -/
def execBeq (i : LInsn) (s : State) : Host.Outcome State Fault Refusal := .next (branchInsn i s fun a b => a == b)
/-- 10 R360: BNE. -/
def execBne (i : LInsn) (s : State) : Host.Outcome State Fault Refusal := .next (branchInsn i s fun a b => a != b)
/-- 10 R360: BLT, signed. -/
def execBlt (i : LInsn) (s : State) : Host.Outcome State Fault Refusal := .next (branchInsn i s fun a b => a.slt b)
/-- 10 R360: BGE, signed. -/
def execBge (i : LInsn) (s : State) : Host.Outcome State Fault Refusal := .next (branchInsn i s fun a b => !a.slt b)
/-- 10 R360: BLTU. -/
def execBltu (i : LInsn) (s : State) : Host.Outcome State Fault Refusal := .next (branchInsn i s fun a b => a.ult b)
/-- 10 R360: BGEU. -/
def execBgeu (i : LInsn) (s : State) : Host.Outcome State Fault Refusal := .next (branchInsn i s fun a b => !a.ult b)
/-- 10 R360: JMP. -/
def execJmp (i : LInsn) (s : State) : Host.Outcome State Fault Refusal :=
  .next (runInsn i s [] (fun _ => 3) false fun t r _ => .next t ((r.pc : Int) + i.imm.toInt))

/-! Local memory and constants (3) -/

/-- The widths of a local access. -/
def widthOk (w : Nat) : Bool := w == 1 || w == 2 || w == 4 || w == 8
/-- The bits of a local access that are in range and aligned (10 Table 10-6, fault 2). -/
def localOk (a w : Nat) : Bool := decide (a + w ≤ 65536) && decide (a % w = 0)

/-- 10 R360: LDL, zero-extended. (Log entry 11.) -/
def execLdl (i : LInsn) (s : State) : Host.Outcome State Fault Refusal :=
  .next (runInsn i s [i.ra] (fun _ => 3) false fun t r l =>
    let a := addrOf i l
    if !widthOk i.width then .fault 1
    else if !localOk a i.width then .fault 2
    else if i.upset = .mem ∨ (badLocal l a i.width).isSome = true then .bad 1 (a / 8)
    else .next (setRd t i (BitVec.ofNat 64 (leNat (localBytes l a i.width)))) (nextPc r))
/-- 10 R360: STL, the low bytes of RD. (Log entry 11.) -/
def execStl (i : LInsn) (s : State) : Host.Outcome State Fault Refusal :=
  .next (runInsn i s [i.rd, i.ra] (fun _ => 3) false fun t r l =>
    let a := addrOf i l
    if !widthOk i.width then .fault 1
    else if !localOk a i.width then .fault 2
    else .next (updLathe t i.lathe fun x => putLocals x a (bytesLE i.width (greg l i.rd).toNat)) (nextPc r))
/-- 10 R360: LDC; what an address that is no multiple of 8 reads is not stated. (Log entry 57.) -/
def execLdc (i : LInsn) (s : State) : Host.Outcome State Fault Refusal :=
  .next (runInsn i s [i.ra] (fun _ => 3) false fun t r l =>
    let a := addrOf i l
    let b := bankOf t r.bank
    if b.dataBytes < a + 8 then .fault 5
    else .next (if a % 8 = 0 then setRd t i (b.data.getD (a / 8) 0) else setRdFree t i) (nextPc r))

/-! Shared memory (4) and atomics (6), R363, R364 -/

/-- A shared-memory address inside the program's window (10 Table 10-3). -/
def inWindow (r : Run) (a : Nat) : Bool :=
  decide (fld r.entry 32 9 * 4096 ≤ a) && decide (a + 8 ≤ (fld r.entry 32 9 + fld r.entry 48 10) * 4096) &&
    decide (a + 8 ≤ 2 ^ 21)

/-- An access to the shared-memory word at RA plus the immediate, once its bank's arbiter has granted it (R363, 14 R463): `f` gives RD's
new value and the word's, from the old word. -/
def shmInsn (i : LInsn) (s : State) (srcs : List (BitVec 5)) (cost : Nat) (reads : Bool)
    (f : Lathe → BitVec 64 → Option (BitVec 64) × Option (BitVec 64)) : State :=
  runInsn i s srcs (fun _ => cost) false fun t r l =>
    let a := addrOf i l
    let k := latheSlice i.lathe
    if !inWindow r a then .fault 3
    else if reads = true ∧ (i.upset = .mem ∨ t.lat.badShm.contains (2 ^ 18 * k + a / 8) = true) then .bad 2 (a / 8)
    else
      let e := f l (shmWord t k (a / 8))
      let g := arbUse t 0xE2 (16 * k + a / 8 % 16) (i.lathe % 6) i.cycles
      let t := match e.2 with | some v => putShm g.1 k (a / 8) v | none => g.1
      .next (match e.1 with | some v => setRd t i v | none => t) (nextPc r) g.2

/-- 10 R363: LDS. (Log entry 11.) -/
def execLds (i : LInsn) (s : State) : Host.Outcome State Fault Refusal :=
  .next (shmInsn i s [i.ra] 4 true fun _ w => (some w, none))
/-- 10 R363: STS. (Log entry 11.) -/
def execSts (i : LInsn) (s : State) : Host.Outcome State Fault Refusal :=
  .next (shmInsn i s [i.rd, i.ra] 4 false fun l _ => (none, some (greg l i.rd)))
/-- 10 R364: FADD, RB added; the old value into RD. (Log entry 11.) -/
def execFadd (i : LInsn) (s : State) : Host.Outcome State Fault Refusal :=
  .next (shmInsn { i with imm := 0 } s [i.ra, i.rb] 6 true fun l w => (some w, some (w + greg l i.rb)))
/-- 10 R364: CAS, RB stored when the word equals RD; the old value into RD. (Log entry 11.) -/
def execCas (i : LInsn) (s : State) : Host.Outcome State Fault Refusal :=
  .next (shmInsn { i with imm := 0 } s [i.rd, i.ra, i.rb] 6 true fun l w =>
    (some w, if w = greg l i.rd then some (greg l i.rb) else none))
/-- 10 R364: SWAP, RB stored; the old value into RD. (Log entry 11.) -/
def execSwap (i : LInsn) (s : State) : Host.Outcome State Fault Refusal :=
  .next (shmInsn { i with imm := 0 } s [i.ra, i.rb] 6 true fun l w => (some w, some (greg l i.rb)))

/-! Header vector (2) and frame (3) -/

/-- 10 R353: HVL. -/
def execHvl (i : LInsn) (s : State) : Host.Outcome State Fault Refusal :=
  .next (runInsn i s [] (fun _ => 2) false fun t r _ =>
    if 64 ≤ i.sel then .fault 4 else .next (setRd t i ((hvOf r.dealt.pkt i.sel).setWidth 64)) (nextPc r))
/-- 10 R353: HVS, the low word of RD; HV0 to HV7 are read-only. -/
def execHvs (i : LInsn) (s : State) : Host.Outcome State Fault Refusal :=
  .next (runInsn i s [i.rd] (fun _ => 2) false fun t r l =>
    if i.sel < 8 ∨ 64 ≤ i.sel then .fault 4
    else .next (updRunPkt t i.lathe fun p => { p with hv := p.hv.set i.sel ((greg l i.rd).setWidth 32) }) (nextPc r))
/-- 10 R354: PBL, 1 to 8 frame bytes, the first one most significant. (Log entry 11.) -/
def execPbl (i : LInsn) (s : State) : Host.Outcome State Fault Refusal :=
  .next (runInsn i s [i.ra] (fun _ => 3) false fun t r l =>
    let a := addrOf i l
    let f := r.dealt.pkt.frame
    if i.width = 0 ∨ 8 < i.width then .fault 1
    else if f.length < a + i.width then .fault 5
    else .next (setRd t i (BitVec.ofNat 64 (beNat (slice f a i.width)))) (nextPc r))
/-- 10 R354: PBS, the low 1 to 8 bytes of RD. (Log entry 11.) -/
def execPbs (i : LInsn) (s : State) : Host.Outcome State Fault Refusal :=
  .next (runInsn i s [i.rd, i.ra] (fun _ => 3) false fun t r l =>
    let a := addrOf i l
    if i.width = 0 ∨ 8 < i.width then .fault 1
    else if r.dealt.pkt.frame.length < a + i.width then .fault 5
    else
      .next (updRunPkt t i.lathe fun p =>
        { p with frame := putBytes p.frame a p.frame.length (bytesBE i.width (greg l i.rd).toNat) }) (nextPc r))

/-- `n` free bytes (log entry 1). -/
def freeBytes (s : State) (n : Nat) : List Byte := bytesLE n (freeBits s (8 * n))

/-- 10 R354: HEDIT, `width` bytes inserted or removed at the offset in RA; what inserted bytes hold is not stated.
(Log entry 57.) -/
def execHedit (i : LInsn) (s : State) : Host.Outcome State Fault Refusal :=
  .next (runInsn i s [i.ra] (fun _ => 12) false fun t r l =>
    let a := (greg l i.ra).toNat
    let f := r.dealt.pkt.frame
    let n := i.width
    let g := if i.flag then f.take a ++ freeBytes t n ++ f.drop a else f.take a ++ f.drop (a + n)
    if r.edited = true ∨ 128 < n ∨ 256 ≤ a ∨ f.length < a ∨ (i.flag = false ∧ f.length < a + n) ∨ g.length < 64 ∨
        16384 < g.length then .fault 7
    else
      let t := if i.flag then t.drawn else t
      .next (updRunPkt (updRun t i.lathe fun x => { x with edited := true }) i.lathe fun p => { p with frame := g })
        (nextPc r))

/-! The decision record (2) -/

/-- Field `n` of a decision record, in the order of 07 Table 7-5. -/
def decField (d : Decision) (n : Nat) : Nat :=
  match n with
  | 0 => d.kind
  | 1 => d.id
  | 2 => d.queue
  | 3 => b2n d.drop
  | 4 => d.cause
  | 5 => b2n d.hostCopy
  | 6 => d.hostQueue
  | 7 => d.reason
  | 8 => d.lathe
  | _ => d.capture

/-- Field `n` written (10 R353); none where that is not permitted. DROP is sticky. -/
def decSet (d : Decision) (n v : Nat) : Option Decision :=
  match n with
  | 0 => some (decideTo d (v % 8) d.id d.queue)
  | 1 => some (decideTo d d.kind (v % 65536) d.queue)
  | 2 => some (decideTo d d.kind d.id (v % 16))
  | 3 => some { d with drop := d.drop || decide (v % 2 = 1) }
  | 4 => if 1 ≤ v ∧ v ≤ 0x7F then some { d with cause := v } else none
  | 5 => some { d with hostCopy := decide (v % 2 = 1) }
  | 6 => some { d with hostQueue := v % 64 }
  | 7 => some { d with reason := v % 16384 }
  | 9 => some { d with capture := v % 16 }
  | _ => none

/-- 10 R353: DGET. (Log entry 11.) -/
def execDget (i : LInsn) (s : State) : Host.Outcome State Fault Refusal :=
  .next (runInsn i s [] (fun _ => 2) false fun t r _ =>
    if 10 ≤ i.sel then .fault 4
    else .next (setRd t i (BitVec.ofNat 64 (decField r.dealt.pkt.dec i.sel))) (nextPc r))
/-- 10 R353: DSET. (Log entry 11.) -/
def execDset (i : LInsn) (s : State) : Host.Outcome State Fault Refusal :=
  .next (runInsn i s [i.rd] (fun _ => 2) false fun t r l =>
    match decSet r.dealt.pkt.dec i.sel (greg l i.rd).toNat with
    | some d => .next (updRunPkt t i.lathe fun p => { p with dec := d }) (nextPc r)
    | none => .fault 4)

/-! Lookup (4), block copy, CRC, digest, end -/

/-- 10 R360: LKUP in table `sel`; its key is the low bits of RB and RA; what a miss leaves in RD is not stated. A hit on a learned
entry may move its station (08 R290). (Log entries 11, 54 and 57.) -/
def execLkup (i : LInsn) (s : State) : Host.Outcome State Fault Refusal :=
  .next (runInsn i s [i.ra, i.rb] (fun _ => 4) false fun t r l =>
    let v := r.dealt.pkt.ver
    if 16 ≤ i.sel then .fault 1 else
    let k := latheSlice i.lathe
    let t := (arbUse t 0xE1 (4 * (k / 8) + k % 8 / 2) (6 * (k % 2) + i.lathe % 6) i.cycles).1
    let kb := tableKeyBits t 1 i.sel v
    let key := BitVec.ofNat 128 (((greg l i.rb).toNat * 2 ^ 64 + (greg l i.ra).toNat) % 2 ^ kb * 2 ^ (128 - kb))
    match if tableExists t 1 i.sel v then emLookup t i.sel v key else none with
    | some (n, c) =>
      let u := hitEm t n (c.hits ||| BitVec.ofNat 4 (2 ^ (k / 8)))
      let u := if (learnSet u i.sel).moveUpdate && c.learned && fld c.ad 0 9 != r.dealt.pkt.port then
          learnRequest u ⟨true, i.sel, key, r.dealt.pkt.port⟩
        else u
      .next (setRd u i c.ad) (nextPc r) i.stall true
    | none => .next (setRdFree t i) (nextPc r) i.stall)

/-- The microcycles of BCOPY over `n` bytes. -/
def bcopyCost (n : Nat) : Nat := 5 + (n + 7) / 8 + 2 * ((n - 1) / 256)

/-- The SAFE microwords of a loop over `n` bytes, `unit` of them a microword, that polls at each mark of `m` bytes left: the bytes done
and the microcycles up to each, after `set` microwords that set it up (10 Table 10-11). (Log entry 60.) -/
def loopPolls (n unit m set : Nat) : List (Nat × Nat) :=
  let q := (n - 1) / m
  (List.range q).map fun j =>
    let f := n - m * q + m * j
    (f, set + (f + unit - 1) / unit + 2 * j + 1)
/-- 10 R360: BCOPY, RB bytes between the frame at RA and local memory at RD; `flag` copies into local memory. -/
def execBcopy (i : LInsn) (s : State) : Host.Outcome State Fault Refusal :=
  .next (runInsn i s [i.rd, i.ra, i.rb] (fun l => bcopyCost (greg l i.rb).toNat) false
    (polls := fun r l => (loopPolls (greg l i.rb).toNat 8 256 4).map fun p =>
      (p.2, fun t =>
        if i.flag then
          updLathe t i.lathe fun x => putLocals x (greg l i.rd).toNat (slice r.dealt.pkt.frame (greg l i.ra).toNat p.1)
        else t)) fun t r l =>
    let n := (greg l i.rb).toNat
    let a := (greg l i.ra).toNat
    let d := (greg l i.rd).toNat
    let f := r.dealt.pkt.frame
    if f.length < a + n then .fault 5
    else if 65536 < d + n then .fault 2
    else if i.flag then .next (updLathe t i.lathe fun x => putLocals x d (slice f a n)) (nextPc r)
    else
      match badLocal l d n, i.upset with
      | some w, _ => .bad 1 w
      | none, .mem => .bad 1 (d / 8)
      | none, _ => .next (updRunPkt t i.lathe fun p => { p with frame := putBytes p.frame a p.frame.length (localBytes l d n) })
          (nextPc r))

/-- The microcycles of CRC over `n` bytes. -/
def crcCost (n : Nat) : Nat := 4 + (n + 15) / 16 + 2 * ((n - 1) / 512)
/-- 10 R360: CRC, the CRC-32C register in RD continued over RB frame bytes at RA. (Log entry 11.) -/
def execCrc (i : LInsn) (s : State) : Host.Outcome State Fault Refusal :=
  .next (runInsn i s [i.rd, i.ra, i.rb] (fun l => crcCost (greg l i.rb).toNat) false
    (polls := fun _ l => (loopPolls (greg l i.rb).toNat 16 512 3).map fun p => (p.2, fun t => t)) fun t r l =>
    let n := (greg l i.rb).toNat
    let a := (greg l i.ra).toNat
    let f := r.dealt.pkt.frame
    if f.length < a + n then .fault 5
    else .next (setRd t i (BitVec.ofNat 64 (crcRefl 0x82F63B78 (fld (greg l i.rd) 0 32) (slice f a n)))) (nextPc r))

/-- 10 R360: SHA over the local block at RA; where the chaining value stands and the digest goes is not stated, so RD takes a
free value. Its 72 microcycles hold a safe point at most 64 from each end (R368).
(Log entries 57 and 60.) -/
def execSha (i : LInsn) (s : State) : Host.Outcome State Fault Refusal :=
  .next (runInsn i s [i.ra] (fun _ => 72) false (polls := fun _ _ => [(8 + Config.shaPoll % 57, fun t => t)]) fun t r l =>
    let a := (greg l i.ra).toNat
    if 65536 < a + 64 then .fault 2
    else
      match badLocal l a 64, i.upset with
      | some w, _ => .bad 1 w
      | none, .mem => .bad 1 (a / 8)
      | none, _ => .next (setRdFree t i) (nextPc r))

/-- 10 R354: EXIT, 4 microcycles; the result goes to the reorder stage (07 R248). -/
def execExit (i : LInsn) (s : State) : Host.Outcome State Fault Refusal :=
  .next (runInsn i s [] (fun _ => 4) true fun t r _ => .next t (nextPc r))

end Sys2Proof.Machine
end

