-- ==== Sys2Proof/Machine/Ptp.lean ====
section
/-! DEFINITION. The PTP instance's messages (06 R203, R204, Table 6-5): what a boundary clock takes and sends, what the transparent
clock passes on. The formats are those of IEEE 1588-2019, PRESUMED (log entry 41). -/

namespace Sys2Proof.Machine

/-! Fields of a message behind its Ethernet header -/

def ptpType (f : List Byte) : Nat := beNat (slice f 14 1) % 16
def ptpVersion (f : List Byte) : Nat := beNat (slice f 15 1) % 16
def ptpDomain (f : List Byte) : Nat := beNat (slice f 18 1)
def ptpFlags (f : List Byte) : Nat := be16 f 20
def ptpCorrection (f : List Byte) : Int := signed 64 (beNat (slice f 22 8))
def ptpSender (f : List Byte) : Nat := beNat (slice f 34 10)
def ptpSeq (f : List Byte) : BitVec 16 := BitVec.ofNat 16 (be16 f 44)

/-- The timestamp at byte 48, in DT units. -/
def ptpStamp (f : List Byte) : Nat := beNat (slice f 48 6) * dtSec + beNat (slice f 54 4) * dtNs

/-- The data set of an Announce. -/
def ptpAnnounce (f : List Byte) : Announce :=
  { cls := beNat (slice f 62 1), acc := beNat (slice f 63 1), var := be16 f 64, prio2 := beNat (slice f 66 1),
    gm := beNat (slice f 67 8), steps := be16 f 75, sender := ptpSender f, flags := ptpFlags f % 256,
    timeSource := beNat (slice f 77 1) }

/-! Messages sent -/

/-- A timestamp's bytes; the fraction of a nanosecond goes into the correction. -/
def stampBytes (dt : Nat) : List Byte := bytesBE 6 (dt / dtSec) ++ bytesBE 4 (dt % dtSec / dtNs)

/-- A message of port `n`: its Ethernet frame without FCS. -/
def ptpFrame (s : State) (n type flags : Nat) (cf : Int) (seq : BitVec 16) (control logInt : Nat) (body : List Byte) : List Byte :=
  padTo (max 60 (48 + body.length)) (
    bytesBE 6 (if (getPtp s n).da then 0x0180C200000E else 0x011B19000000) ++ bytesBE 6 (Config.portMac n).toNat ++
    bytesBE 2 0x88F7 ++ bytesBE 1 type ++ bytesBE 1 0x12 ++ bytesBE 2 (34 + body.length) ++ bytesBE 1 s.tb.set.domain ++
    bytesBE 1 0 ++ bytesBE 2 flags ++ bytesBE 8 (unsigned 64 cf) ++ bytesBE 4 0 ++ bytesBE 10 (portId n) ++
    bytesBE 2 seq.toNat ++ bytesBE 1 control ++ bytesBE 1 logInt ++ body)

/-- A one-step Sync that departs at a DT: 16 a second. -/
def syncFrame (s : State) (n : Nat) (seq : BitVec 16) (dt : Nat) : List Byte :=
  ptpFrame s n 0 0 ((dt % dtNs : Nat) : Int) seq 0 0xFC (stampBytes dt)

/-- The data set that a master port announces: its own, or that of the master followed, one step on. -/
def announced (s : State) : Announce :=
  let o := ownDs s
  match ptpBest s with
  | some b => if o.cls ≤ 127 || !lexLt b.2.2 (dsRank o 128) then o else { b.2.1 with steps := b.2.1.steps + 1 }
  | none => o

/-- An Announce: 8 a second. It carries no UTC offset (06 R195). -/
def announceFrame (s : State) (n : Nat) (seq : BitVec 16) : List Byte :=
  let a := announced s
  ptpFrame s n 11 (a.flags &&& 0x38) 0 seq 5 0xFD
    (bytesBE 10 0 ++ bytesBE 3 0 ++ bytesBE 1 128 ++ bytesBE 1 a.cls ++ bytesBE 1 a.acc ++ bytesBE 2 a.var ++ bytesBE 1 a.prio2 ++
      bytesBE 8 a.gm ++ bytesBE 2 a.steps ++ bytesBE 1 a.timeSource)

/-- A Delay_Req: 16 a second, less the port's asymmetry. -/
def delayReqFrame (s : State) (n : Nat) (seq : BitVec 16) : List Byte :=
  ptpFrame s n 1 0 (-(getPtp s n).delayAsym) seq 1 0x7F (bytesBE 10 0)

/-- The Delay_Resp to a Delay_Req that arrived at a DT. -/
def delayRespFrame (s : State) (n : Nat) (f : List Byte) (inDt : Nat) : List Byte :=
  ptpFrame s n 9 0 (ptpCorrection f - (inDt % dtNs : Nat)) (ptpSeq f) 3 0xFC (stampBytes inDt ++ bytesBE 10 (ptpSender f))

/-- A message passed on by the transparent clock on a port at a DT: an event message's correction grows by its residence time, and by
the asymmetry of the link that it crosses against the master's direction. -/
def passedFrame (s : State) (m : PtpMsg) (dt : Nat) : List Byte :=
  match m.inDt with
  | none => m.frame
  | some t =>
    let cf := ptpCorrection m.frame + ((dt : Int) - t) - (if ptpType m.frame = 1 then (getPtp s m.port).delayAsym else 0)
    m.frame.take 22 ++ bytesBE 8 (unsigned 64 cf) ++ m.frame.drop 30

/-- A span of elapsed time has passed since an instant. -/
def since (s : State) (t : Option Nat) (ns : Nat) : Bool := match t with | some x => decide (x + ns ≤ s.tb.now) | none => true

/-- The frame starts on the port. -/
def ptpSend (s : State) (n : Nat) (f : List Byte) : State := portEvent (startTx s n .mac (withFcs f) s.tb.dt) n 61 1

/-- The length on the wire of the message that a port would send. -/
def ptpLength (s : State) (n : Nat) : PtpKind → Nat
  | .announce => 82
  | .queued => match s.tb.ptpOut.find? fun m => m.port == n with | some m => m.frame.length + 4 | none => 64
  | _ => 64

/-- 06 R203, Table 6-5; 11 R385: a PTP port sends a message, outside a protected entry: a master port's Sync or Announce, a slave port's Delay_Req, each no more often
than its rate, or the oldest message that waits for the port. (Log entry 41.) -/
def execPtpMessageTransmit (n : Nat) (k : PtpKind) (s : State) : Host.Outcome State Fault Refusal :=
  .next (
    let r := getPtpRun s n
    if !portFree s n || !clearOfProtected s n (psUnits (wirePs s n (ptpLength s n k))) then s else
    match k with
    | .sync =>
      if ptpState s n == .master && since s r.syncAt 62500000 then
        ptpSend (updPtpRun s n fun r => { r with syncSeq := r.syncSeq + 1, syncAt := some s.tb.now }) n
          (syncFrame s n (r.syncSeq + 1) s.tb.dt)
      else s
    | .announce =>
      if ptpState s n == .master && since s r.annSent 125000000 then
        ptpSend (updPtpRun s n fun r => { r with annSeq := r.annSeq + 1, annSent := some s.tb.now }) n
          (announceFrame s n (r.annSeq + 1))
      else s
    | .delayReq =>
      if ptpState s n == .slave && since s r.reqAt 62500000 then
        ptpSend (updPtpRun s n fun r =>
            { r with reqSeq := r.reqSeq + 1, reqAt := some s.tb.now, req := some (r.reqSeq + 1, s.tb.dt) }) n
          (delayReqFrame s n (r.reqSeq + 1))
      else s
    | .queued =>
      match s.tb.ptpOut.find? fun m => m.port == n with
      | some m => ptpSend (s.updTb fun b => { b with ptpOut := b.ptpOut.erase m }) n (passedFrame s m s.tb.dt)
      | none => s)

/-! Messages received -/

/-- The transparent clock passes a message on to every other PTP port (06 Table 6-5). (Log entry 41.) -/
def ptpPass (s : State) (n : Nat) (f : List Byte) (inDt : Nat) : State :=
  let event := decide (ptpType f ≤ 1)
  let g := f.take (f.length - 4)
  let cf := ptpCorrection f + (if ptpType f = 0 then (getPtp s n).delayAsym else 0)
  let h := if event then g.take 22 ++ bytesBE 8 (unsigned 64 cf) ++ g.drop 30 else g
  let ports := (portList s).filter fun m => m != n && (getPtp s m).role != 0
  s.updTb fun b => { b with ptpOut := b.ptpOut ++ ports.map fun m => ⟨m, h, if event then some inDt else none⟩ }

/-- An Announce taken: the port keeps that of its best master, and one kept too long gives way. -/
def takeAnnounce (s : State) (n : Nat) (f : List Byte) : State :=
  let a := ptpAnnounce f
  let lp := (getPtp s n).localPriority
  updPtpRun s n fun r =>
    match r.ann with
    | some b =>
      if a.sender = b.sender then { r with ann := some a, annPrev := some r.annAt, annAt := s.tb.now }
      else if r.annAt + 375000000 ≤ s.tb.now ∨
          lexLt (dsRank a lp ++ [a.steps, a.sender]) (dsRank b lp ++ [b.steps, b.sender]) = true then
        { r with ann := some a, annPrev := none, annAt := s.tb.now }
      else r
    | none => { r with ann := some a, annPrev := none, annAt := s.tb.now }

/-- A Sync complete on the slave port: `t1` its departure, `t2` its arrival, `cf` the corrections, the asymmetry among them. It is
an evaluation once the path delay is known (06 R197). -/
def ptpSync (s : State) (n t1 t2 : Nat) (cf freq : Int) : State :=
  let down := (t2 : Int) - t1 - cf
  let t := updPtpRun s n fun r => { r with down := some down, two := none }
  match (getPtpRun t n).delay with
  | some d => if t.tb.set.source = 2 ∧ t.tb.set.sourcePort = n then evaluate t (d - down) freq else t
  | none => t

/-- A message of the boundary clock's domain from another clock, on a T-BC port. (Log entry 41.) -/
def ptpTake (s : State) (n : Nat) (f : List Byte) (inDt : Nat) (freq : Int) : State :=
  let parent := match (getPtpRun s n).ann with | some a => a.sender == ptpSender f | none => false
  let slave := ptpState s n == .slave && parent
  let asym := (getPtp s n).delayAsym
  match ptpType f with
  | 0 =>
    if !slave then s
    else if ptpFlags f / 512 % 2 = 1 then
      updPtpRun s n fun r => { r with two := some (ptpSeq f, inDt, ptpCorrection f + asym) }
    else ptpSync s n (ptpStamp f) inDt (ptpCorrection f + asym) freq
  | 8 =>
    match slave, (getPtpRun s n).two with
    | true, some w => if w.1 = ptpSeq f then ptpSync s n (ptpStamp f) w.2.1 (w.2.2 + ptpCorrection f) freq else s
    | _, _ => s
  | 1 =>
    if ptpState s n == .master then
      s.updTb fun b => { b with ptpOut := b.ptpOut ++ [⟨n, delayRespFrame s n f inDt, none⟩] }
    else s
  | 9 =>
    match slave, (getPtpRun s n).req, (getPtpRun s n).down with
    | true, some q, some d =>
      if q.1 = ptpSeq f ∧ beNat (slice f 58 10) = portId n then
        updPtpRun s n fun r =>
          { r with req := none, delay := some (halfEven (d + ((ptpStamp f : Int) - q.2 - ptpCorrection f))) }
      else s
    | _, _, _ => s
  | 11 => requalify (takeAnnounce s n f)
  | _ => s

/-- 06 R204: the timebase island takes the oldest PTP frame delivered to it, with its shaving (15 R475). The boundary clock acts on a
message of its domain that reaches a T-BC port; the transparent clock passes on every other. `freq` is the servo's estimate of the
rate offset, for a Sync that is an evaluation. (Log entries 38 and 41.) -/
def execPtpMessageReceived (freq : Int) (s : State) : Host.Outcome State Fault Refusal :=
  .next (
    match s.fwd.ptpIn with
    | [] => s
    | x :: xs =>
      let n := x.port
      let u := s.updFwd fun w => { w with ptpIn := xs }
      let u := countFlight (finalise (portEvent u n 60 1) x none 0 Finish.eaten) x.ver 0 1
      let role := (getPtp u n).role
      if role = 0 || !portExists u n || ptpVersion x.frame != 2 then u
      else if role = 1 && ptpDomain x.frame == u.tb.set.domain then ptpTake u n x.frame x.inDt freq
      else ptpPass u n x.frame x.inDt)

/-- 06 R199: the PTP port named by SOURCE_PORT has left SLAVE: the servo takes note. (Log entry 41.) -/
def execPtpSlaveStateLost (s : State) : Host.Outcome State Fault Refusal := .next (requalify s)

end Sys2Proof.Machine
end

