-- ==== Sys2Proof/Machine/Dispatch.lean ====
section
/-! DEFINITION. The meaning of every command: one call of its own meaning each. -/

namespace Sys2Proof.Machine

/-- What a command does to everything but the queue. -/
def exec (i : Instr) (s : State) : Host.Outcome State Fault Refusal :=
  match i with
  | .nop o => Sys2Proof.Machine.execNop o s
  | .readOwnership o => Sys2Proof.Machine.execReadOwnership o s
  | .handoverOffer o => Sys2Proof.Machine.execHandoverOffer o s
  | .handoverAccept o => Sys2Proof.Machine.execHandoverAccept o s
  | .handoverWithdraw o => Sys2Proof.Machine.execHandoverWithdraw o s
  | .release o => Sys2Proof.Machine.execRelease o s
  | .reservedOpcodeOrder o opcode => Sys2Proof.Machine.execReservedOpcodeOrder o opcode s
  | .readStart o => Sys2Proof.Machine.execReadStart o s
  | .start o => Sys2Proof.Machine.execStart o s
  | .enterService o => Sys2Proof.Machine.execEnterService o s
  | .enterProbe o => Sys2Proof.Machine.execEnterProbe o s
  | .readLane o => Sys2Proof.Machine.execReadLane o s
  | .readOe o => Sys2Proof.Machine.execReadOe o s
  | .eyeScan o => Sys2Proof.Machine.execEyeScan o s
  | .rawCapture o => Sys2Proof.Machine.execRawCapture o s
  | .portSet o => Sys2Proof.Machine.execPortSet o s
  | .laneSet o => Sys2Proof.Machine.execLaneSet o s
  | .recalibrate o => Sys2Proof.Machine.execRecalibrate o s
  | .spare o => Sys2Proof.Machine.execSpare o s
  | .unspare o => Sys2Proof.Machine.execUnspare o s
  | .oeSet o => Sys2Proof.Machine.execOeSet o s
  | .xpSet o => Sys2Proof.Machine.execXpSet o s
  | .elsXfer o => Sys2Proof.Machine.execElsXfer o s
  | .readPcs o => Sys2Proof.Machine.execReadPcs o s
  | .readPm o => Sys2Proof.Machine.execReadPm o s
  | .readNeighbour o => Sys2Proof.Machine.execReadNeighbour o s
  | .pcsSet o => Sys2Proof.Machine.execPcsSet o s
  | .defectAck o => Sys2Proof.Machine.execDefectAck o s
  | .readTb o => Sys2Proof.Machine.execReadTb o s
  | .readLtt o => Sys2Proof.Machine.execReadLtt o s
  | .readLogBlock o => Sys2Proof.Machine.execReadLogBlock o s
  | .readCert o => Sys2Proof.Machine.execReadCert o s
  | .tbSet o => Sys2Proof.Machine.execTbSet o s
  | .tbAdjust o => Sys2Proof.Machine.execTbAdjust o s
  | .ptpPortSet o => Sys2Proof.Machine.execPtpPortSet o s
  | .lttSet o => Sys2Proof.Machine.execLttSet o s
  | .logSet o => Sys2Proof.Machine.execLogSet o s
  | .logClose o => Sys2Proof.Machine.execLogClose o s
  | .logRelease o => Sys2Proof.Machine.execLogRelease o s
  | .readVersions o => Sys2Proof.Machine.execReadVersions o s
  | .readParser o => Sys2Proof.Machine.execReadParser o s
  | .readStage o => Sys2Proof.Machine.execReadStage o s
  | .readHostmap o => Sys2Proof.Machine.execReadHostmap o s
  | .readSprayRx o => Sys2Proof.Machine.execReadSprayRx o s
  | .readMcast o => Sys2Proof.Machine.execReadMcast o s
  | .parserSet o => Sys2Proof.Machine.execParserSet o s
  | .portParseSet o => Sys2Proof.Machine.execPortParseSet o s
  | .stageSet o => Sys2Proof.Machine.execStageSet o s
  | .stageOpen o => Sys2Proof.Machine.execStageOpen o s
  | .commit o => Sys2Proof.Machine.execCommit o s
  | .stageDiscard o => Sys2Proof.Machine.execStageDiscard o s
  | .hostmapSet o => Sys2Proof.Machine.execHostmapSet o s
  | .dealSet o => Sys2Proof.Machine.execDealSet o s
  | .spraySet o => Sys2Proof.Machine.execSpraySet o s
  | .sprayGroupSet o => Sys2Proof.Machine.execSprayGroupSet o s
  | .mcastSet o => Sys2Proof.Machine.execMcastSet o s
  | .readTables o => Sys2Proof.Machine.execReadTables o s
  | .emLookup o => Sys2Proof.Machine.execEmLookup o s
  | .lpmLookup o => Sys2Proof.Machine.execLpmLookup o s
  | .tableDump o => Sys2Proof.Machine.execTableDump o s
  | .tableDef o => Sys2Proof.Machine.execTableDef o s
  | .emWrite o => Sys2Proof.Machine.execEmWrite o s
  | .lpmWrite o => Sys2Proof.Machine.execLpmWrite o s
  | .aclWrite o => Sys2Proof.Machine.execAclWrite o s
  | .actionWrite o => Sys2Proof.Machine.execActionWrite o s
  | .tableBulk o => Sys2Proof.Machine.execTableBulk o s
  | .learnSet o => Sys2Proof.Machine.execLearnSet o s
  | .ageSet o => Sys2Proof.Machine.execAgeSet o s
  | .shadowSet o => Sys2Proof.Machine.execShadowSet o s
  | .flushLearned o => Sys2Proof.Machine.execFlushLearned o s
  | .readBuffer o => Sys2Proof.Machine.execReadBuffer o s
  | .readQueue o => Sys2Proof.Machine.execReadQueue o s
  | .readPg o => Sys2Proof.Machine.execReadPg o s
  | .poolSet o => Sys2Proof.Machine.execPoolSet o s
  | .queueAdmitSet o => Sys2Proof.Machine.execQueueAdmitSet o s
  | .pgSet o => Sys2Proof.Machine.execPgSet o s
  | .dramSet o => Sys2Proof.Machine.execDramSet o s
  | .readLathe o => Sys2Proof.Machine.execReadLathe o s
  | .readBank o => Sys2Proof.Machine.execReadBank o s
  | .shmRead o => Sys2Proof.Machine.execShmRead o s
  | .readControlStore o => Sys2Proof.Machine.execReadControlStore o s
  | .imageLoad o => Sys2Proof.Machine.execImageLoad o s
  | .bankClear o => Sys2Proof.Machine.execBankClear o s
  | .shmWrite o => Sys2Proof.Machine.execShmWrite o s
  | .latheIsolate o => Sys2Proof.Machine.execLatheIsolate o s
  | .latheRestore o => Sys2Proof.Machine.execLatheRestore o s
  | .microcodeReload o => Sys2Proof.Machine.execMicrocodeReload o s
  | .mandrelTest o res => Sys2Proof.Machine.execMandrelTest o res s
  | .csInject o => Sys2Proof.Machine.execCsInject o s
  | .readSched o => Sys2Proof.Machine.execReadSched o s
  | .readGcl o => Sys2Proof.Machine.execReadGcl o s
  | .readShaper o => Sys2Proof.Machine.execReadShaper o s
  | .queueSchedSet o => Sys2Proof.Machine.execQueueSchedSet o s
  | .shaperSet o => Sys2Proof.Machine.execShaperSet o s
  | .gclSet o => Sys2Proof.Machine.execGclSet o s
  | .gclCancel o => Sys2Proof.Machine.execGclCancel o s
  | .pfcSet o => Sys2Proof.Machine.execPfcSet o s
  | .escSet o => Sys2Proof.Machine.execEscSet o s
  | .stormRestore o => Sys2Proof.Machine.execStormRestore o s
  | .readSeq o => Sys2Proof.Machine.execReadSeq o s
  | .readFanout o => Sys2Proof.Machine.execReadFanout o s
  | .readGrid o => Sys2Proof.Machine.execReadGrid o s
  | .readTrim o => Sys2Proof.Machine.execReadTrim o s
  | .readGroupConfig o => Sys2Proof.Machine.execReadGroupConfig o s
  | .seqGroupSet o => Sys2Proof.Machine.execSeqGroupSet o s
  | .fanoutGroupSet o => Sys2Proof.Machine.execFanoutGroupSet o s
  | .trimSet o => Sys2Proof.Machine.execTrimSet o s
  | .trimMeasure o => Sys2Proof.Machine.execTrimMeasure o s
  | .readContext o => Sys2Proof.Machine.execReadContext o s
  | .readCu o => Sys2Proof.Machine.execReadCu o s
  | .contextSet o => Sys2Proof.Machine.execContextSet o s
  | .contextMove o => Sys2Proof.Machine.execContextMove o s
  | .contextReset o => Sys2Proof.Machine.execContextReset o s
  | .collSet o => Sys2Proof.Machine.execCollSet o s
  | .readArb o => Sys2Proof.Machine.execReadArb o s
  | .arbSet o => Sys2Proof.Machine.execArbSet o s
  | .arbCommit o => Sys2Proof.Machine.execArbCommit o s
  | .readPortCounters o => Sys2Proof.Machine.execReadPortCounters o s
  | .readSel o => Sys2Proof.Machine.execReadSel o s
  | .readHist o => Sys2Proof.Machine.execReadHist o s
  | .readSketch o => Sys2Proof.Machine.execReadSketch o s
  | .readBw o => Sys2Proof.Machine.execReadBw o s
  | .readExport o => Sys2Proof.Machine.execReadExport o s
  | .readCapture o => Sys2Proof.Machine.execReadCapture o s
  | .selSet o => Sys2Proof.Machine.execSelSet o s
  | .selCtrl o => Sys2Proof.Machine.execSelCtrl o s
  | .readClear o => Sys2Proof.Machine.execReadClear o s
  | .histSet o => Sys2Proof.Machine.execHistSet o s
  | .sketchSet o => Sys2Proof.Machine.execSketchSet o s
  | .exportSet o => Sys2Proof.Machine.execExportSet o s
  | .evSet o => Sys2Proof.Machine.execEvSet o s
  | .bwSet o => Sys2Proof.Machine.execBwSet o s
  | .classSet o => Sys2Proof.Machine.execClassSet o s
  | .captureSet o => Sys2Proof.Machine.execCaptureSet o s
  | .captureFreeze o => Sys2Proof.Machine.execCaptureFreeze o s
  | .captureDrain o => Sys2Proof.Machine.execCaptureDrain o s
  | .exportTemplate o => Sys2Proof.Machine.execExportTemplate o s
  | .readPower o => Sys2Proof.Machine.execReadPower o s
  | .readPhase o => Sys2Proof.Machine.execReadPhase o s
  | .readThermal o => Sys2Proof.Machine.execReadThermal o s
  | .phaseSet o => Sys2Proof.Machine.execPhaseSet o s
  | .phaseSelect o => Sys2Proof.Machine.execPhaseSelect o s
  | .phaseCancel o => Sys2Proof.Machine.execPhaseCancel o s
  | .powerSet o => Sys2Proof.Machine.execPowerSet o s
  | .readErrors o => Sys2Proof.Machine.execReadErrors o s
  | .readFatal o => Sys2Proof.Machine.execReadFatal o s
  | .errClose o => Sys2Proof.Machine.execErrClose o s
  | .cuIsolate o => Sys2Proof.Machine.execCuIsolate o s
  | .cuRestore o => Sys2Proof.Machine.execCuRestore o s
  | .add x => Sys2Proof.Machine.execAdd x s
  | .sub x => Sys2Proof.Machine.execSub x s
  | .and x => Sys2Proof.Machine.execAnd x s
  | .or x => Sys2Proof.Machine.execOr x s
  | .xor x => Sys2Proof.Machine.execXor x s
  | .shl x => Sys2Proof.Machine.execShl x s
  | .shr x => Sys2Proof.Machine.execShr x s
  | .sar x => Sys2Proof.Machine.execSar x s
  | .cmp x => Sys2Proof.Machine.execCmp x s
  | .mul x => Sys2Proof.Machine.execMul x s
  | .mulh x => Sys2Proof.Machine.execMulh x s
  | .ext x => Sys2Proof.Machine.execExt x s
  | .ins x => Sys2Proof.Machine.execIns x s
  | .beq x => Sys2Proof.Machine.execBeq x s
  | .bne x => Sys2Proof.Machine.execBne x s
  | .blt x => Sys2Proof.Machine.execBlt x s
  | .bge x => Sys2Proof.Machine.execBge x s
  | .bltu x => Sys2Proof.Machine.execBltu x s
  | .bgeu x => Sys2Proof.Machine.execBgeu x s
  | .jmp x => Sys2Proof.Machine.execJmp x s
  | .ldl x => Sys2Proof.Machine.execLdl x s
  | .stl x => Sys2Proof.Machine.execStl x s
  | .ldc x => Sys2Proof.Machine.execLdc x s
  | .lds x => Sys2Proof.Machine.execLds x s
  | .sts x => Sys2Proof.Machine.execSts x s
  | .fadd x => Sys2Proof.Machine.execFadd x s
  | .cas x => Sys2Proof.Machine.execCas x s
  | .swap x => Sys2Proof.Machine.execSwap x s
  | .hvl x => Sys2Proof.Machine.execHvl x s
  | .hvs x => Sys2Proof.Machine.execHvs x s
  | .pbl x => Sys2Proof.Machine.execPbl x s
  | .pbs x => Sys2Proof.Machine.execPbs x s
  | .hedit x => Sys2Proof.Machine.execHedit x s
  | .dget x => Sys2Proof.Machine.execDget x s
  | .dset x => Sys2Proof.Machine.execDset x s
  | .lkup x => Sys2Proof.Machine.execLkup x s
  | .bcopy x => Sys2Proof.Machine.execBcopy x s
  | .crc x => Sys2Proof.Machine.execCrc x s
  | .sha x => Sys2Proof.Machine.execSha x s
  | .exit x => Sys2Proof.Machine.execExit x s
  | .mcheckRecoveryDone k cause => Sys2Proof.Machine.execMcheckRecoveryDone k cause s
  | .latheDeal slice => Sys2Proof.Machine.execLatheDeal slice s
  | .latheResultRelease slice bucket => Sys2Proof.Machine.execLatheResultRelease slice bucket s
  | .latheTimeoutSkip slice bucket => Sys2Proof.Machine.execLatheTimeoutSkip slice bucket s
  | .dealDrainMarkerDone k => Sys2Proof.Machine.execDealDrainMarkerDone k s
  | .latheRedirectDone slice bad => Sys2Proof.Machine.execLatheRedirectDone slice bad s
  | .imageLoadDone b ok => Sys2Proof.Machine.execImageLoadDone b ok s
  | .claimWrite m v => Sys2Proof.Machine.execClaimWrite m v s
  | .renewWrite m v => Sys2Proof.Machine.execRenewWrite m v s
  | .leaseLow => Sys2Proof.Machine.execLeaseLow s
  | .leaseExpired => Sys2Proof.Machine.execLeaseExpired s
  | .expiryDrainEnd => Sys2Proof.Machine.execExpiryDrainEnd s
  | .offerLapsed => Sys2Proof.Machine.execOfferLapsed s
  | .handoverCut => Sys2Proof.Machine.execHandoverCut s
  | .releaseCut => Sys2Proof.Machine.execReleaseCut s
  | .doorbellWrite m page v wide => Sys2Proof.Machine.execDoorbellWrite m page v wide s
  | .m0Doorbell v => Sys2Proof.Machine.execM0Doorbell v s
  | .orderFetch m n bits data resultOk test => Sys2Proof.Machine.execOrderFetch m n bits data resultOk test s
  | .payloadDmaDone x data => Sys2Proof.Machine.execPayloadDmaDone x data s
  | .ringFault m n => Sys2Proof.Machine.execRingFault m n s
  | .msixModerationTimer m v => Sys2Proof.Machine.execMsixModerationTimer m v s
  | .ringCtrlWrite m n v => Sys2Proof.Machine.execRingCtrlWrite m n v s
  | .portInfoRead m a => Sys2Proof.Machine.execPortInfoRead m a s
  | .ringStatusRead m n a => Sys2Proof.Machine.execRingStatusRead m n a s
  | .fpActive0Read m a => Sys2Proof.Machine.execFpActive0Read m a s
  | .fpCommit0Read m a => Sys2Proof.Machine.execFpCommit0Read m a s
  | .dtSnap0Read m a => Sys2Proof.Machine.execDtSnap0Read m a s
  | .laserAlarmClear m v => Sys2Proof.Machine.execLaserAlarmClear m v s
  | .flowLatchClear m => Sys2Proof.Machine.execFlowLatchClear m s
  | .traystopLatchClear m => Sys2Proof.Machine.execTraystopLatchClear m s
  | .crittempLatchClear m => Sys2Proof.Machine.execCrittempLatchClear m s
  | .trayBusFaultClear m => Sys2Proof.Machine.execTrayBusFaultClear m s
  | .fatalLatchClear m => Sys2Proof.Machine.execFatalLatchClear m s
  | .registerWrite m off v whole => Sys2Proof.Machine.execRegisterWrite m off v whole s
  | .vauxPowerUp straps flowBad trayBad pwrBad => Sys2Proof.Machine.execVauxPowerUp straps flowBad trayBad pwrBad s
  | .vauxLost => Sys2Proof.Machine.execVauxLost s
  | .v48InputLost cv => Sys2Proof.Machine.execV48InputLost cv s
  | .pwrgoodLost chatter => Sys2Proof.Machine.execPwrgoodLost chatter s
  | .powerConditionsHeld => Sys2Proof.Machine.execPowerConditionsHeld s
  | .railsInRegulation => Sys2Proof.Machine.execRailsInRegulation s
  | .sysresetN => Sys2Proof.Machine.execSysresetN s
  | .sysresetDeassert straps => Sys2Proof.Machine.execSysresetDeassert straps s
  | .perstNAssert m => Sys2Proof.Machine.execPerstNAssert m s
  | .pcieLinkDown m => Sys2Proof.Machine.execPcieLinkDown m s
  | .pcieLinkUp m rate width => Sys2Proof.Machine.execPcieLinkUp m rate width s
  | .busMasterEnableSet m mse => Sys2Proof.Machine.execBusMasterEnableSet m mse s
  | .entdaa a => Sys2Proof.Machine.execEntdaa a s
  | .setdasa target a => Sys2Proof.Machine.execSetdasa target a s
  | .rstdaa => Sys2Proof.Machine.execRstdaa s
  | .getpid => Sys2Proof.Machine.execGetpid s
  | .getbcr => Sys2Proof.Machine.execGetbcr s
  | .getdcr => Sys2Proof.Machine.execGetdcr s
  | .getstatus => Sys2Proof.Machine.execGetstatus s
  | .enec => Sys2Proof.Machine.execEnec s
  | .disec => Sys2Proof.Machine.execDisec s
  | .traySetdasa target a => Sys2Proof.Machine.execTraySetdasa target a s
  | .trayEntdaa a => Sys2Proof.Machine.execTrayEntdaa a s
  | .trayRstdaa => Sys2Proof.Machine.execTrayRstdaa s
  | .trayGetpid => Sys2Proof.Machine.execTrayGetpid s
  | .trayGetstatus => Sys2Proof.Machine.execTrayGetstatus s
  | .trayEnec => Sys2Proof.Machine.execTrayEnec s
  | .trayDisec => Sys2Proof.Machine.execTrayDisec s
  | .trayRegisterWrite index data reads => Sys2Proof.Machine.execTrayRegisterWrite index data reads s
  | .heartbeat v => Sys2Proof.Machine.execHeartbeat v s
  | .trayBusFault => Sys2Proof.Machine.execTrayBusFault s
  | .trayAdvisory cause => Sys2Proof.Machine.execTrayAdvisory cause s
  | .flowfailFault chatter => Sys2Proof.Machine.execFlowfailFault chatter s
  | .traystopFault chatter => Sys2Proof.Machine.execTraystopFault chatter s
  | .chatterEnd x faulted => Sys2Proof.Machine.execChatterEnd x faulted s
  | .crittempTrip => Sys2Proof.Machine.execCrittempTrip s
  | .haltEntryDone => Sys2Proof.Machine.execHaltEntryDone s
  | .haltBlockSigned => Sys2Proof.Machine.execHaltBlockSigned s
  | .dramSelfRefresh => Sys2Proof.Machine.execDramSelfRefresh s
  | .haltRailsRestored => Sys2Proof.Machine.execHaltRailsRestored s
  | .tempSample temps => Sys2Proof.Machine.execTempSample temps s
  | .thermalCapStep => Sys2Proof.Machine.execThermalCapStep s
  | .powerControlTick vin inputW loadW demand floors rails => Sys2Proof.Machine.execPowerControlTick vin inputW loadW demand floors rails s
  | .slopeTick want => Sys2Proof.Machine.execSlopeTick want s
  | .railLimitExceeded j current held => Sys2Proof.Machine.execRailLimitExceeded j current held s
  | .prerampRequest => Sys2Proof.Machine.execPrerampRequest s
  | .rampComplete n => Sys2Proof.Machine.execRampComplete n s
  | .phaseTakesEffect => Sys2Proof.Machine.execPhaseTakesEffect s
  | .oppChangeDone => Sys2Proof.Machine.execOppChangeDone s
  | .startStepDone lanes fail cals test => Sys2Proof.Machine.execStartStepDone lanes fail cals test s
  | .laneSignalPresent p power => Sys2Proof.Machine.execLaneSignalPresent p power s
  | .laneAdaptDone p c => Sys2Proof.Machine.execLaneAdaptDone p c s
  | .recalibrateDone p c => Sys2Proof.Machine.execRecalibrateDone p c s
  | .eyeScanPoint p errors compared => Sys2Proof.Machine.execEyeScanPoint p errors compared s
  | .laserSample e power temp => Sys2Proof.Machine.execLaserSample e power temp s
  | .spareStandby e => Sys2Proof.Machine.execSpareStandby e s
  | .spareTrigger p cause => Sys2Proof.Machine.execSpareTrigger p cause s
  | .spareAckTimeout e => Sys2Proof.Machine.execSpareAckTimeout e s
  | .xpSourceLost p => Sys2Proof.Machine.execXpSourceLost p s
  | .xpResume p => Sys2Proof.Machine.execXpResume p s
  | .markerTransmit p => Sys2Proof.Machine.execMarkerTransmit p s
  | .markerReceived p m => Sys2Proof.Machine.execMarkerReceived p m s
  | .markerPositionMiss p k pos => Sys2Proof.Machine.execMarkerPositionMiss p k pos s
  | .linkIdleStructReceived n k v => Sys2Proof.Machine.execLinkIdleStructReceived n k v s
  | .fpAdvertise => Sys2Proof.Machine.execFpAdvertise s
  | .neighbourStale n => Sys2Proof.Machine.execNeighbourStale n s
  | .frameReceived n f k syms marked => Sys2Proof.Machine.execFrameReceived n f k syms marked s
  | .pfcFrameReceived n f k syms marked => Sys2Proof.Machine.execPfcFrameReceived n f k syms marked s
  | .pfcPauseExpiry n g => Sys2Proof.Machine.execPfcPauseExpiry n g s
  | .trimProbeSend n => Sys2Proof.Machine.execTrimProbeSend n s
  | .trimStep n => Sys2Proof.Machine.execTrimStep n s
  | .remoteFaultReceived n => Sys2Proof.Machine.execRemoteFaultReceived n s
  | .localFaultOnset n src k power => Sys2Proof.Machine.execLocalFaultOnset n src k power s
  | .localFaultEnd n gone power ago => Sys2Proof.Machine.execLocalFaultEnd n gone power ago s
  | .defect n b on => Sys2Proof.Machine.execDefect n b on s
  | .hiserWindowEnd n errs => Sys2Proof.Machine.execHiserWindowEnd n errs s
  | .serMsTick n c => Sys2Proof.Machine.execSerMsTick n c s
  | .pmSecondEnd => Sys2Proof.Machine.execPmSecondEnd s
  | .binFinal => Sys2Proof.Machine.execBinFinal s
  | .ptpMessageReceived freq => Sys2Proof.Machine.execPtpMessageReceived freq s
  | .ptpMessageTransmit n k => Sys2Proof.Machine.execPtpMessageTransmit n k s
  | .ppsInEdge highNs freq => Sys2Proof.Machine.execPpsInEdge highNs freq s
  | .ppsBadSecond => Sys2Proof.Machine.execPpsBadSecond s
  | .refInQualified => Sys2Proof.Machine.execRefInQualified s
  | .refInLost => Sys2Proof.Machine.execRefInLost s
  | .servoEvaluation freq => Sys2Proof.Machine.execServoEvaluation freq s
  | .holdoverLimit => Sys2Proof.Machine.execHoldoverLimit s
  | .ppsOutEdge => Sys2Proof.Machine.execPpsOutEdge s
  | .evidenceRecordStore m => Sys2Proof.Machine.execEvidenceRecordStore m s
  | .blockCloseTimer => Sys2Proof.Machine.execBlockCloseTimer s
  | .blockSigned => Sys2Proof.Machine.execBlockSigned s
  | .commitInstant => Sys2Proof.Machine.execCommitInstant s
  | .versionRetired => Sys2Proof.Machine.execVersionRetired s
  | .copyFree mem loc => Sys2Proof.Machine.execCopyFree mem loc s
  | .packetIngress n => Sys2Proof.Machine.execPacketIngress n s
  | .learnInsert => Sys2Proof.Machine.execLearnInsert s
  | .stationMove => Sys2Proof.Machine.execStationMove s
  | .agingVisit l hit => Sys2Proof.Machine.execAgingVisit l hit s
  | .backgroundCompare parity differ => Sys2Proof.Machine.execBackgroundCompare parity differ s
  | .tableRepair mem loc quads shadow => Sys2Proof.Machine.execTableRepair mem loc quads shadow s
  | .shadowFillDone => Sys2Proof.Machine.execShadowFillDone s
  | .shadowFault cause => Sys2Proof.Machine.execShadowFault cause s
  | .dumpTimeout n => Sys2Proof.Machine.execDumpTimeout n s
  | .flushDone => Sys2Proof.Machine.execFlushDone s
  | .packetStore req upset => Sys2Proof.Machine.execPacketStore req upset s
  | .pfcRefresh n => Sys2Proof.Machine.execPfcRefresh n s
  | .pfcStormEnter q => Sys2Proof.Machine.execPfcStormEnter q s
  | .stormRestoreTimer q => Sys2Proof.Machine.execStormRestoreTimer q s
  | .overflowWriteDone q crcOk u m => Sys2Proof.Machine.execOverflowWriteDone q crcOk u m s
  | .overflowReturn q fault crcOk upset m => Sys2Proof.Machine.execOverflowReturn q fault crcOk upset m s
  | .egressFrameStart n crcOk u => Sys2Proof.Machine.execEgressFrameStart n crcOk u s
  | .gateEntryChange n => Sys2Proof.Machine.execGateEntryChange n s
  | .gclTakeover n => Sys2Proof.Machine.execGclTakeover n s
  | .transmissionEnd n u => Sys2Proof.Machine.execTransmissionEnd n u s
  | .hostSlotWrite crcOk u => Sys2Proof.Machine.execHostSlotWrite crcOk u s
  | .sprayRxTimeout sender flow => Sys2Proof.Machine.execSprayRxTimeout sender flow s
  | .sprayContextFree sender flow => Sys2Proof.Machine.execSprayContextFree sender flow s
  | .sprayDrainMarkerReceived => Sys2Proof.Machine.execSprayDrainMarkerReceived s
  | .sprayDrainLimit sender group => Sys2Proof.Machine.execSprayDrainLimit sender group s
  | .sprayMarkersSent g => Sys2Proof.Machine.execSprayMarkersSent g s
  | .seqPresent g => Sys2Proof.Machine.execSeqPresent g s
  | .seqGroupChange g => Sys2Proof.Machine.execSeqGroupChange g s
  | .fanoutCopyPrepare g port crcOk u => Sys2Proof.Machine.execFanoutCopyPrepare g port crcOk u s
  | .fanoutCopyRelease g port u => Sys2Proof.Machine.execFanoutCopyRelease g port u s
  | .fanoutStale g port u => Sys2Proof.Machine.execFanoutStale g port u s
  | .collContributionArrival u ok up => Sys2Proof.Machine.execCollContributionArrival u ok up s
  | .collRecompute n badRead pass => Sys2Proof.Machine.execCollRecompute n badRead pass s
  | .collParentResult u up => Sys2Proof.Machine.execCollParentResult u up s
  | .collTimeout n => Sys2Proof.Machine.execCollTimeout n s
  | .collNotice n => Sys2Proof.Machine.execCollNotice n s
  | .barrierArrive u up => Sys2Proof.Machine.execBarrierArrive u up s
  | .prerampWithdraw n => Sys2Proof.Machine.execPrerampWithdraw n s
  | .rampWaitExpiry n => Sys2Proof.Machine.execRampWaitExpiry n s
  | .collMoveMarker n => Sys2Proof.Machine.execCollMoveMarker n s
  | .cuMemoryError u addr => Sys2Proof.Machine.execCuMemoryError u addr s
  | .cuIsolationDone u => Sys2Proof.Machine.execCuIsolationDone u s
  | .reducerSnapshot => Sys2Proof.Machine.execReducerSnapshot s
  | .selCtrlInstant => Sys2Proof.Machine.execSelCtrlInstant s
  | .bwWindowEnd n => Sys2Proof.Machine.execBwWindowEnd n s
  | .exportBatchFlush x upset => Sys2Proof.Machine.execExportBatchFlush x upset s
  | .captureRecordWrite crcOk fault u m => Sys2Proof.Machine.execCaptureRecordWrite crcOk fault u m s
  | .captureDrainDone m => Sys2Proof.Machine.execCaptureDrainDone m s
  | .arbCommitInstant => Sys2Proof.Machine.execArbCommitInstant s
  | .mcheckLogicMismatch unit => Sys2Proof.Machine.execMcheckLogicMismatch unit s
  | .recordStoreParity group slot => Sys2Proof.Machine.execRecordStoreParity group slot s
  | .islandClockLoss island pll => Sys2Proof.Machine.execIslandClockLoss island pll s
  | .gpioEdgeDetect x level => Sys2Proof.Machine.execGpioEdgeDetect x level s
  | .tapReset => Sys2Proof.Machine.execTapReset s
  | .idcode => Sys2Proof.Machine.execIdcode s
  | .bypass => Sys2Proof.Machine.execBypass s
  | .samplePreload sample load => Sys2Proof.Machine.execSamplePreload sample load s
  | .extest => Sys2Proof.Machine.execExtest s
  | .clamp => Sys2Proof.Machine.execClamp s
  | .highz => Sys2Proof.Machine.execHighz s
  | .busMasterEnableClear m mse => Sys2Proof.Machine.execBusMasterEnableClear m mse s
  | .remoteFaultEnd n => Sys2Proof.Machine.execRemoteFaultEnd n s
  | .ptpSlaveStateLost => Sys2Proof.Machine.execPtpSlaveStateLost s
  | .spareLockLost e => Sys2Proof.Machine.execSpareLockLost e s
  | .latheRestoreDone k res => Sys2Proof.Machine.execLatheRestoreDone k res s
  | .cuRestoreDone u ok => Sys2Proof.Machine.execCuRestoreDone u ok s
  | .tableDumpDone => Sys2Proof.Machine.execTableDumpDone s
  | .trimMeasureTimeout n => Sys2Proof.Machine.execTrimMeasureTimeout n s
  | .moveHoldTimeout n => Sys2Proof.Machine.execMoveHoldTimeout n s
  | .rivelInputUnfaulted x => Sys2Proof.Machine.execRivelInputUnfaulted x s
  | .v48InputInRange cv => Sys2Proof.Machine.execV48InputInRange cv s
  | .tbAdjustSecondBoundary => Sys2Proof.Machine.execTbAdjustSecondBoundary s
  | .tbSlewComplete => Sys2Proof.Machine.execTbSlewComplete s

end Sys2Proof.Machine
end

