-- ==== Sys2Proof/Safety.lean ====
section
/-! DEFINITION. What claims say of a state and of a command: the sanity of the ownership registers, which commands act on
them, and when a work order is accepted. -/

namespace Sys2Proof.Machine

/-- The ownership registers are sane (02 R76 to R89): a lease is valid exactly while there is an owner; an offer is the
owner's, to another; a handover or a release drains the owner, a handover to the successor offered, and an expiry drains when
there is no owner; LEASE_MS is in its range. -/
structure OwnSt.Sane (w : OwnSt) : Prop where
  lease : w.leaseValid = w.owner.isSome
  offer : ∀ f, w.offer = some f → w.owner.isSome ∧ w.owner ≠ some f.to_
  accept : ∀ o old t, w.drain = some ⟨.accept o, old, t⟩ →
    w.owner = some old ∧ ∃ f, w.offer = some f ∧ f.to_ = o.master
  release : ∀ o old t, w.drain = some ⟨.release o, old, t⟩ → w.owner = some old ∧ w.offer = none
  expiry : ∀ old t, w.drain = some ⟨.expiry, old, t⟩ → w.owner = none
  range : 250 ≤ w.leaseMs ∧ w.leaseMs ≤ 10000

/-- An order passes the checks that every order of its form meets (02 R61 to R70; 03 Table 3-1), and its result, if the form
has one, can be written (02 R64). (Log entry 18.) -/
def accepted (f : Form) (s : State) (o : Order) : Bool :=
  firstFail f s o {} == none && (f.result == 0 || resultFits o f.result)

/-- The order's payload is a pointer's, newly read: `bs` (02 R63). (Log entry 16.) -/
def payloadHere (s : State) (o : Order) (bs : List Byte) : Bool :=
  o.ptr && o.data == .bytes bs && (awaitOf s o).isNone

/-- No check of a chapter finds anything (02 R68). -/
def Checks.pass (c : Checks) : Bool :=
  !c.malformed && !c.unsupported && !c.ownerOnly && !c.wrongMode && c.version.isNone && !c.badObject && !c.badArgument &&
    c.chapter.isNone

/-- The order has had the effect that makes `u`, and completes with SUCCESS and DATA `d` (02 R65, Table 2-12). -/
def succeeds (u : State) (o : Order) (d : Nat) : Host.Outcome State Fault Refusal := .next (complete u o stSuccess d)

/-- The order has had the effect that makes `u`, its result `bs` is written at RESULT_ADDR and it completes with SUCCESS and
DATA `d` (02 R64, R65). -/
def returns (u : State) (o : Order) (bs : List Byte) (d : Nat) : Host.Outcome State Fault Refusal :=
  .next (complete (memWrite u o.master o.resultAddr.toNat bs) o stSuccess d)

/-- The order has had the effect that makes `u`, and goes on running. -/
def goesOn (u : State) (op : Nat) (o : Order) : Host.Outcome State Fault Refusal :=
  .next (u.updHost fun h => { h with running := h.running ++ [⟨BitVec.ofNat 16 op, o, u.tb.now, u.tb.dt⟩] })

/-- The instruction runs to its end on its lathe with `r` under way (10 R352, R361, R362, R372): the lathe in service, not under
test and not recovering; nothing upsets the instruction; it is a word of the program with a valid FN; no register of `srcs`,
those it reads, is marked; and its `cost` stays within the budget. -/
def runsOn (i : LInsn) (s : State) (srcs : List (BitVec 5)) (cost : Nat) (r : Run) : Bool :=
  let l := getLathe s i.lathe
  l.cur == some r && !r.finished && l.iso == 0 && !l.testing && l.recovery.isNone && i.upset == .none && !i.badFn &&
    decide (r.pc < (bankOf s r.bank).textWords) &&
    ((srcs.filter fun g => g != 0).find? fun g => l.badRegs.contains g.toNat).isNone &&
    decide (r.executed + cost ≤ 16 * fld r.entry 16 16)

/-- The instruction that ran in `s` with `r` under way has had the effect that makes `u`: the microwords of its routine have run, its
microcycles and its waits are counted, and the instruction at `pc` is next (10 R362, R366, R367), or the program has ended (`fin`);
a word before the program's first is none of its words. -/
def retired (s : State) (r : Run) (u : State) (i : LInsn) (cost : Nat) (pc : Int) (stall : Nat := 0) (hit : Bool := false)
    (fin : Bool := false) : State :=
  updRun (updLathe (runMicro u i (getLathe s i.lathe) r.dealt.pkt.frame cost hit) i.lathe fun l =>
      { l with stalls := l.stalls + stall }) i.lathe fun x =>
    { x with executed := x.executed + cost, pc := if pc < 0 then 65536 else pc.toNat, finished := fin }

end Sys2Proof.Machine

namespace Sys2Proof

/-- The work order that a command is, with its opcode (20 Table 20-6); none for every other command, and for the order of a
reserved opcode. -/
def Instr.workOrder : Instr → Option (Nat × Order)
  | .nop o => some (0x0201, o)
  | .readOwnership o => some (0x0202, o)
  | .handoverOffer o => some (0x8201, o)
  | .handoverAccept o => some (0x8202, o)
  | .handoverWithdraw o => some (0x8203, o)
  | .release o => some (0x8204, o)
  | .readStart o => some (0x0301, o)
  | .start o => some (0x4301, o)
  | .enterService o => some (0x4302, o)
  | .enterProbe o => some (0x4303, o)
  | .readLane o => some (0x0401, o)
  | .readOe o => some (0x0402, o)
  | .eyeScan o => some (0x0403, o)
  | .rawCapture o => some (0x0404, o)
  | .portSet o => some (0x4401, o)
  | .laneSet o => some (0x4402, o)
  | .recalibrate o => some (0x4403, o)
  | .spare o => some (0x4404, o)
  | .unspare o => some (0x4405, o)
  | .oeSet o => some (0x4406, o)
  | .xpSet o => some (0x4407, o)
  | .elsXfer o => some (0x4408, o)
  | .readPcs o => some (0x0501, o)
  | .readPm o => some (0x0502, o)
  | .readNeighbour o => some (0x0503, o)
  | .pcsSet o => some (0x4501, o)
  | .defectAck o => some (0x4502, o)
  | .readTb o => some (0x0601, o)
  | .readLtt o => some (0x0602, o)
  | .readLogBlock o => some (0x0603, o)
  | .readCert o => some (0x0604, o)
  | .tbSet o => some (0x4601, o)
  | .tbAdjust o => some (0x4602, o)
  | .ptpPortSet o => some (0x4603, o)
  | .lttSet o => some (0x4604, o)
  | .logSet o => some (0x4605, o)
  | .logClose o => some (0x4606, o)
  | .logRelease o => some (0x4607, o)
  | .readVersions o => some (0x0701, o)
  | .readParser o => some (0x0702, o)
  | .readStage o => some (0x0703, o)
  | .readHostmap o => some (0x0704, o)
  | .readSprayRx o => some (0x0705, o)
  | .readMcast o => some (0x0706, o)
  | .parserSet o => some (0x4701, o)
  | .portParseSet o => some (0x4702, o)
  | .stageSet o => some (0x4703, o)
  | .stageOpen o => some (0x4704, o)
  | .commit o => some (0x4705, o)
  | .stageDiscard o => some (0x4706, o)
  | .hostmapSet o => some (0x4707, o)
  | .dealSet o => some (0x4708, o)
  | .spraySet o => some (0x4709, o)
  | .sprayGroupSet o => some (0x470A, o)
  | .mcastSet o => some (0x470B, o)
  | .readTables o => some (0x0801, o)
  | .emLookup o => some (0x0802, o)
  | .lpmLookup o => some (0x0803, o)
  | .tableDump o => some (0x0804, o)
  | .tableDef o => some (0x4801, o)
  | .emWrite o => some (0x4802, o)
  | .lpmWrite o => some (0x4803, o)
  | .aclWrite o => some (0x4804, o)
  | .actionWrite o => some (0x4805, o)
  | .tableBulk o => some (0x4806, o)
  | .learnSet o => some (0x4807, o)
  | .ageSet o => some (0x4808, o)
  | .shadowSet o => some (0x4809, o)
  | .flushLearned o => some (0x480A, o)
  | .readBuffer o => some (0x0901, o)
  | .readQueue o => some (0x0902, o)
  | .readPg o => some (0x0903, o)
  | .poolSet o => some (0x4901, o)
  | .queueAdmitSet o => some (0x4902, o)
  | .pgSet o => some (0x4903, o)
  | .dramSet o => some (0x4904, o)
  | .readLathe o => some (0x0A01, o)
  | .readBank o => some (0x0A02, o)
  | .shmRead o => some (0x0A03, o)
  | .readControlStore o => some (0x0A04, o)
  | .imageLoad o => some (0x4A01, o)
  | .bankClear o => some (0x4A02, o)
  | .shmWrite o => some (0x4A03, o)
  | .latheIsolate o => some (0x4A04, o)
  | .latheRestore o => some (0x4A05, o)
  | .microcodeReload o => some (0x4A06, o)
  | .mandrelTest o _ => some (0x4A07, o)
  | .csInject o => some (0x4A08, o)
  | .readSched o => some (0x0B01, o)
  | .readGcl o => some (0x0B02, o)
  | .readShaper o => some (0x0B03, o)
  | .queueSchedSet o => some (0x4B01, o)
  | .shaperSet o => some (0x4B02, o)
  | .gclSet o => some (0x4B03, o)
  | .gclCancel o => some (0x4B04, o)
  | .pfcSet o => some (0x4B05, o)
  | .escSet o => some (0x4B06, o)
  | .stormRestore o => some (0x4B07, o)
  | .readSeq o => some (0x0C01, o)
  | .readFanout o => some (0x0C02, o)
  | .readGrid o => some (0x0C03, o)
  | .readTrim o => some (0x0C04, o)
  | .readGroupConfig o => some (0x0C05, o)
  | .seqGroupSet o => some (0x4C01, o)
  | .fanoutGroupSet o => some (0x4C02, o)
  | .trimSet o => some (0x4C03, o)
  | .trimMeasure o => some (0x4C04, o)
  | .readContext o => some (0x0D01, o)
  | .readCu o => some (0x0D02, o)
  | .contextSet o => some (0x4D01, o)
  | .contextMove o => some (0x4D02, o)
  | .contextReset o => some (0x4D03, o)
  | .collSet o => some (0x4D04, o)
  | .readArb o => some (0x0E01, o)
  | .arbSet o => some (0x4E01, o)
  | .arbCommit o => some (0x4E02, o)
  | .readPortCounters o => some (0x0F01, o)
  | .readSel o => some (0x0F02, o)
  | .readHist o => some (0x0F03, o)
  | .readSketch o => some (0x0F04, o)
  | .readBw o => some (0x0F05, o)
  | .readExport o => some (0x0F06, o)
  | .readCapture o => some (0x0F07, o)
  | .selSet o => some (0x4F01, o)
  | .selCtrl o => some (0x4F02, o)
  | .readClear o => some (0x4F03, o)
  | .histSet o => some (0x4F04, o)
  | .sketchSet o => some (0x4F05, o)
  | .exportSet o => some (0x4F06, o)
  | .evSet o => some (0x4F07, o)
  | .bwSet o => some (0x4F08, o)
  | .classSet o => some (0x4F09, o)
  | .captureSet o => some (0x4F0A, o)
  | .captureFreeze o => some (0x4F0B, o)
  | .captureDrain o => some (0x4F0C, o)
  | .exportTemplate o => some (0x4F0D, o)
  | .readPower o => some (0x1001, o)
  | .readPhase o => some (0x1002, o)
  | .readThermal o => some (0x1003, o)
  | .phaseSet o => some (0x5001, o)
  | .phaseSelect o => some (0x5002, o)
  | .phaseCancel o => some (0x5003, o)
  | .powerSet o => some (0x5004, o)
  | .readErrors o => some (0x1101, o)
  | .readFatal o => some (0x1102, o)
  | .errClose o => some (0x5101, o)
  | .cuIsolate o => some (0x5102, o)
  | .cuRestore o => some (0x5103, o)
  | _ => none

/-- The commands that may change the ownership registers: the ownership orders (02 Table 2-10), fetched or not, the writes
of CLAIM, RENEW and LEASE_MS, the lease's and the offer's own events and the cuts (02 R77 to R89), and the resets
(02 R90; 18 R564). -/
def Instr.touchesOwnership : Instr → Bool
  | .handoverOffer _ | .handoverAccept _ | .handoverWithdraw _ | .release _ => true
  | .orderFetch .. | .payloadDmaDone .. => true
  | .claimWrite .. | .renewWrite .. | .registerWrite .. => true
  | .leaseLow | .leaseExpired | .expiryDrainEnd | .offerLapsed | .handoverCut | .releaseCut => true
  | .sysresetN | .vauxPowerUp .. | .vauxLost => true
  | _ => false

end Sys2Proof
end

