-- ==== Sys2Proof/WellFormed.lean ====
section
/-! DEFINITION. Well-formed commands: every operand that names an object names one the block has, and what comes from outside has
the shape its rule gives it. `exec` is total: it does not rely on this. -/

namespace Sys2Proof

/-- The rings of an attachment point (02 R54). -/
def ringsOf : Master → Nat
  | .m0 => 4
  | _ => 256

/-- The bytes of a payload read are no longer than a payload may be (02 Table 2-11). -/
def payloadOk : PtrData → Bool
  | .bytes b => decide (b.length ≤ 16777152)
  | _ => true

/-- A part read lies in the register's 32 bits. -/
def accOk : RegAcc → Bool
  | .part b n => decide (1 ≤ n) && decide (b + n ≤ 4)
  | _ => true

/-- An order comes from a ring its master has. -/
def Order.wf (o : Order) : Bool := decide (o.ring < ringsOf o.master) && payloadOk o.data

/-- An action instruction runs on one of 192 lathes, with a width of memory that there is (10 R360). -/
def LInsn.wf (i : LInsn) : Bool :=
  decide (i.lathe < 192) && (i.width == 1 || i.width == 2 || i.width == 4 || i.width == 8)

/-- A command is well-formed. -/
def Instr.wf : Instr → Bool
  | .nop o => o.wf
  | .readOwnership o => o.wf
  | .handoverOffer o => o.wf
  | .handoverAccept o => o.wf
  | .handoverWithdraw o => o.wf
  | .release o => o.wf
  | .reservedOpcodeOrder o _ => o.wf
  | .readStart o => o.wf
  | .start o => o.wf
  | .enterService o => o.wf
  | .enterProbe o => o.wf
  | .readLane o => o.wf
  | .readOe o => o.wf
  | .eyeScan o => o.wf
  | .rawCapture o => o.wf
  | .portSet o => o.wf
  | .laneSet o => o.wf
  | .recalibrate o => o.wf
  | .spare o => o.wf
  | .unspare o => o.wf
  | .oeSet o => o.wf
  | .xpSet o => o.wf
  | .elsXfer o => o.wf
  | .readPcs o => o.wf
  | .readPm o => o.wf
  | .readNeighbour o => o.wf
  | .pcsSet o => o.wf
  | .defectAck o => o.wf
  | .readTb o => o.wf
  | .readLtt o => o.wf
  | .readLogBlock o => o.wf
  | .readCert o => o.wf
  | .tbSet o => o.wf
  | .tbAdjust o => o.wf
  | .ptpPortSet o => o.wf
  | .lttSet o => o.wf
  | .logSet o => o.wf
  | .logClose o => o.wf
  | .logRelease o => o.wf
  | .readVersions o => o.wf
  | .readParser o => o.wf
  | .readStage o => o.wf
  | .readHostmap o => o.wf
  | .readSprayRx o => o.wf
  | .readMcast o => o.wf
  | .parserSet o => o.wf
  | .portParseSet o => o.wf
  | .stageSet o => o.wf
  | .stageOpen o => o.wf
  | .commit o => o.wf
  | .stageDiscard o => o.wf
  | .hostmapSet o => o.wf
  | .dealSet o => o.wf
  | .spraySet o => o.wf
  | .sprayGroupSet o => o.wf
  | .mcastSet o => o.wf
  | .readTables o => o.wf
  | .emLookup o => o.wf
  | .lpmLookup o => o.wf
  | .tableDump o => o.wf
  | .tableDef o => o.wf
  | .emWrite o => o.wf
  | .lpmWrite o => o.wf
  | .aclWrite o => o.wf
  | .actionWrite o => o.wf
  | .tableBulk o => o.wf
  | .learnSet o => o.wf
  | .ageSet o => o.wf
  | .shadowSet o => o.wf
  | .flushLearned o => o.wf
  | .readBuffer o => o.wf
  | .readQueue o => o.wf
  | .readPg o => o.wf
  | .poolSet o => o.wf
  | .queueAdmitSet o => o.wf
  | .pgSet o => o.wf
  | .dramSet o => o.wf
  | .readLathe o => o.wf
  | .readBank o => o.wf
  | .shmRead o => o.wf
  | .readControlStore o => o.wf
  | .imageLoad o => o.wf
  | .bankClear o => o.wf
  | .shmWrite o => o.wf
  | .latheIsolate o => o.wf
  | .latheRestore o => o.wf
  | .microcodeReload o => o.wf
  | .mandrelTest o _ => o.wf
  | .csInject o => o.wf
  | .readSched o => o.wf
  | .readGcl o => o.wf
  | .readShaper o => o.wf
  | .queueSchedSet o => o.wf
  | .shaperSet o => o.wf
  | .gclSet o => o.wf
  | .gclCancel o => o.wf
  | .pfcSet o => o.wf
  | .escSet o => o.wf
  | .stormRestore o => o.wf
  | .readSeq o => o.wf
  | .readFanout o => o.wf
  | .readGrid o => o.wf
  | .readTrim o => o.wf
  | .readGroupConfig o => o.wf
  | .seqGroupSet o => o.wf
  | .fanoutGroupSet o => o.wf
  | .trimSet o => o.wf
  | .trimMeasure o => o.wf
  | .readContext o => o.wf
  | .readCu o => o.wf
  | .contextSet o => o.wf
  | .contextMove o => o.wf
  | .contextReset o => o.wf
  | .collSet o => o.wf
  | .readArb o => o.wf
  | .arbSet o => o.wf
  | .arbCommit o => o.wf
  | .readPortCounters o => o.wf
  | .readSel o => o.wf
  | .readHist o => o.wf
  | .readSketch o => o.wf
  | .readBw o => o.wf
  | .readExport o => o.wf
  | .readCapture o => o.wf
  | .selSet o => o.wf
  | .selCtrl o => o.wf
  | .readClear o => o.wf
  | .histSet o => o.wf
  | .sketchSet o => o.wf
  | .exportSet o => o.wf
  | .evSet o => o.wf
  | .bwSet o => o.wf
  | .classSet o => o.wf
  | .captureSet o => o.wf
  | .captureFreeze o => o.wf
  | .captureDrain o => o.wf
  | .exportTemplate o => o.wf
  | .readPower o => o.wf
  | .readPhase o => o.wf
  | .readThermal o => o.wf
  | .phaseSet o => o.wf
  | .phaseSelect o => o.wf
  | .phaseCancel o => o.wf
  | .powerSet o => o.wf
  | .readErrors o => o.wf
  | .readFatal o => o.wf
  | .errClose o => o.wf
  | .cuIsolate o => o.wf
  | .cuRestore o => o.wf
  | .add i => i.wf
  | .sub i => i.wf
  | .and i => i.wf
  | .or i => i.wf
  | .xor i => i.wf
  | .shl i => i.wf
  | .shr i => i.wf
  | .sar i => i.wf
  | .cmp i => i.wf
  | .mul i => i.wf
  | .mulh i => i.wf
  | .ext i => i.wf
  | .ins i => i.wf
  | .beq i => i.wf
  | .bne i => i.wf
  | .blt i => i.wf
  | .bge i => i.wf
  | .bltu i => i.wf
  | .bgeu i => i.wf
  | .jmp i => i.wf
  | .ldl i => i.wf
  | .stl i => i.wf
  | .ldc i => i.wf
  | .lds i => i.wf
  | .sts i => i.wf
  | .fadd i => i.wf
  | .cas i => i.wf
  | .swap i => i.wf
  | .hvl i => i.wf
  | .hvs i => i.wf
  | .pbl i => i.wf
  | .pbs i => i.wf
  | .hedit i => i.wf
  | .dget i => i.wf
  | .dset i => i.wf
  | .lkup i => i.wf
  | .bcopy i => i.wf
  | .crc i => i.wf && i.opc == 0x31
  | .sha i => i.wf
  | .exit i => i.wf
  | .mcheckRecoveryDone k cause => decide (k < 192) && decide (cause ≤ 6)
  | .latheDeal slice => decide (slice < 32)
  | .latheResultRelease slice bucket => decide (slice < 32) && decide (bucket < 4096)
  | .latheTimeoutSkip slice bucket => decide (slice < 32) && decide (bucket < 4096)
  | .dealDrainMarkerDone k => decide (k < 192)
  | .latheRedirectDone slice _ => decide (slice < 32)
  | .imageLoadDone _ _ => true
  | .claimWrite _ _ => true
  | .renewWrite _ _ => true
  | .leaseLow => true
  | .leaseExpired => true
  | .expiryDrainEnd => true
  | .offerLapsed => true
  | .handoverCut => true
  | .releaseCut => true
  | .doorbellWrite m page _ _ => m != .m0 && decide (page < 16)
  | .m0Doorbell _ => true
  | .orderFetch m n _ data _ _ => decide (n < ringsOf m) && payloadOk data
  | .payloadDmaDone _ data => data != .later && payloadOk data
  | .ringFault m n => decide (n < ringsOf m)
  | .msixModerationTimer _ v => decide (v < 64)
  | .ringCtrlWrite m n _ => decide (n < ringsOf m)
  | .portInfoRead _ a => accOk a
  | .ringStatusRead m n a => decide (n < ringsOf m) && accOk a
  | .fpActive0Read _ a => accOk a
  | .fpCommit0Read _ a => accOk a
  | .dtSnap0Read _ a => accOk a
  | .laserAlarmClear _ _ => true
  | .flowLatchClear _ => true
  | .traystopLatchClear _ => true
  | .crittempLatchClear _ => true
  | .trayBusFaultClear _ => true
  | .fatalLatchClear _ => true
  | .registerWrite _ off ws _ => decide (off + 4 * ws.length ≤ 0x10000)
  | .vauxPowerUp _ _ _ _ => true
  | .vauxLost => true
  | .v48InputLost cv => decide (cv < 65536) && (decide (cv < 3800) || decide (6200 < cv))
  | .pwrgoodLost _ => true
  | .powerConditionsHeld => true
  | .railsInRegulation => true
  | .sysresetN => true
  | .sysresetDeassert _ => true
  | .perstNAssert m => m != .m0
  | .pcieLinkDown m => m != .m0
  | .pcieLinkUp m rate width => m != .m0 && decide (rate ≤ 5) && (width == 1 || width == 2 || width == 4)
  | .busMasterEnableSet m _ => m != .m0
  | .entdaa _ => true
  | .setdasa _ _ => true
  | .rstdaa => true
  | .getpid => true
  | .getbcr => true
  | .getdcr => true
  | .getstatus => true
  | .enec => true
  | .disec => true
  | .traySetdasa _ _ => true
  | .trayEntdaa _ => true
  | .trayRstdaa => true
  | .trayGetpid => true
  | .trayGetstatus => true
  | .trayEnec => true
  | .trayDisec => true
  | .trayRegisterWrite _ _ reads => decide (reads ≤ 256)
  | .heartbeat _ => true
  | .trayBusFault => true
  | .trayAdvisory cause => decide (1 ≤ cause) && decide (cause ≤ 3)
  | .flowfailFault _ => true
  | .traystopFault _ => true
  | .chatterEnd i _ => decide (i < 3)
  | .crittempTrip => true
  | .haltEntryDone => true
  | .haltBlockSigned => true
  | .dramSelfRefresh => true
  | .haltRailsRestored => true
  | .tempSample temps => decide (temps.length = 64)
  | .thermalCapStep => true
  | .powerControlTick vin _ _ demand floors rails => decide (vin < 65536)
    && decide (demand.length = 3) && decide (floors.length = 3)
    && decide (rails.length = 6)
  | .slopeTick _ => true
  | .railLimitExceeded j _ _ => decide (j < 6)
  | .prerampRequest => true
  | .rampComplete n => decide (n < 4096)
  | .phaseTakesEffect => true
  | .oppChangeDone => true
  | .startStepDone _ _ cals t => (cals.all fun c => decide (c.1 < 544)) && t.lathes.all fun f => decide (f.1 < 192)
  | .laneSignalPresent p _ => decide (p < 544)
  | .laneAdaptDone p _ => decide (p < 544)
  | .recalibrateDone p _ => decide (p < 544)
  | .eyeScanPoint p _ _ => decide (p < 544)
  | .laserSample e _ _ => decide (e < 32)
  | .spareStandby e => decide (e < 32)
  | .spareTrigger p cause => decide (p < 544) && decide (1 ≤ cause)
  | .spareAckTimeout e => decide (e < 32)
  | .xpSourceLost p => decide (p < 544)
  | .xpResume p => decide (p < 544)
  | .markerTransmit p => decide (p < 544)
  | .markerReceived p _ => decide (p < 544)
  | .markerPositionMiss p _ _ => decide (p < 544)
  | .linkIdleStructReceived n k _ => decide (n < 512) && decide (k < 8)
  | .fpAdvertise => true
  | .neighbourStale n => decide (n < 512)
  | .frameReceived n _ k _ _ => decide (n < 512) && decide (k < 8)
  | .pfcFrameReceived n _ k _ _ => decide (n < 512) && decide (k < 8)
  | .pfcPauseExpiry n g => decide (n < 512) && decide (g < 8)
  | .trimProbeSend n => decide (n < 512)
  | .trimStep n => decide (n < 512)
  | .remoteFaultReceived n => decide (n < 512)
  | .localFaultOnset n src k _ => decide (n < 512) && decide (src < 4) && decide (k < 8)
  | .localFaultEnd n _ _ _ => decide (n < 512)
  | .defect n b _ => decide (n < 512) && decide (b < 7)
  | .hiserWindowEnd n _ => decide (n < 512)
  | .serMsTick n _ => decide (n < 512)
  | .pmSecondEnd => true
  | .binFinal => true
  | .ptpMessageReceived _ => true
  | .ptpMessageTransmit n _ => decide (n < 512)
  | .ppsInEdge _ _ => true
  | .ppsBadSecond => true
  | .refInQualified => true
  | .refInLost => true
  | .servoEvaluation _ => true
  | .holdoverLimit => true
  | .ppsOutEdge => true
  | .evidenceRecordStore _ => true
  | .blockCloseTimer => true
  | .blockSigned => true
  | .commitInstant => true
  | .versionRetired => true
  | .copyFree mem _ => decide (mem < 4)
  | .packetIngress n => decide (n < 512)
  | .learnInsert => true
  | .stationMove => true
  | .agingVisit _ _ => true
  | .backgroundCompare _ _ => true
  | .tableRepair mem _ quads _ => decide (mem < 4) && decide (quads.length = 4)
  | .shadowFillDone => true
  | .shadowFault cause => cause == 1 || cause == 2
  | .dumpTimeout _ => true
  | .flushDone => true
  | .packetStore req _ => decide (req < 49)
  | .pfcRefresh n => decide (n < 512)
  | .pfcStormEnter q => decide (q < 8192)
  | .stormRestoreTimer q => decide (q < 8192)
  | .overflowWriteDone q _ _ _ => decide (q < 8192)
  | .overflowReturn q _ _ _ _ => decide (q < 8192)
  | .egressFrameStart n _ _ => decide (n < 512)
  | .gateEntryChange n => decide (n < 512)
  | .gclTakeover n => decide (n < 512)
  | .transmissionEnd n _ => decide (n < 512)
  | .hostSlotWrite _ _ => true
  | .sprayRxTimeout sender flow => decide (sender < 65536) && decide (flow < 65536)
  | .sprayContextFree sender flow => decide (sender < 65536) && decide (flow < 65536)
  | .sprayDrainMarkerReceived => true
  | .sprayDrainLimit sender group => decide (sender < 65536) && decide (group < 64)
  | .sprayMarkersSent g => decide (g < 64)
  | .seqPresent g => decide (g < 16)
  | .seqGroupChange g => decide (g < 16)
  | .fanoutCopyPrepare g port _ _ => decide (g < 64) && decide (port < 512)
  | .fanoutCopyRelease g port _ => decide (g < 64) && decide (port < 512)
  | .fanoutStale g port _ => decide (g < 64) && decide (port < 512)
  | .collContributionArrival u _ _ => decide (u < 16)
  | .collRecompute n _ _ => decide (n < 4096)
  | .collParentResult u _ => decide (u < 16)
  | .collTimeout n => decide (n < 4096)
  | .collNotice n => decide (n < 4096)
  | .barrierArrive u _ => decide (u < 16)
  | .prerampWithdraw n => decide (n < 4096)
  | .rampWaitExpiry n => decide (n < 4096)
  | .collMoveMarker n => decide (n < 4096)
  | .cuMemoryError u addr => decide (u < 16) && decide (addr < 2 ^ 24)
  | .cuIsolationDone u => decide (u < 16)
  | .reducerSnapshot => true
  | .selCtrlInstant => true
  | .bwWindowEnd n => decide (n < 512)
  | .exportBatchFlush i _ => decide (i < 16)
  | .captureRecordWrite _ _ _ _ => true
  | .captureDrainDone _ => true
  | .arbCommitInstant => true
  | .mcheckLogicMismatch unit => decide (unit < 32) || (decide (0x100 ≤ unit) && decide (unit < 0x110))
  | .recordStoreParity group slot => decide (group < 20) && decide (slot < 16)
  | .islandClockLoss island _ => decide (island < 123)
  | .gpioEdgeDetect i _ => decide (i < 8)
  | .tapReset => true
  | .idcode => true
  | .bypass => true
  | .samplePreload _ _ => true
  | .extest => true
  | .clamp => true
  | .highz => true
  | .busMasterEnableClear m _ => m != .m0
  | .remoteFaultEnd n => decide (n < 512)
  | .ptpSlaveStateLost => true
  | .spareLockLost e => decide (e < 32)
  | .latheRestoreDone k res => decide (k < 192) && decide (res ≤ 3)
  | .cuRestoreDone u _ => decide (u < 16)
  | .tableDumpDone => true
  | .trimMeasureTimeout n => decide (n < 512)
  | .moveHoldTimeout n => decide (n < 4096)
  | .rivelInputUnfaulted i => decide (i < 3)
  | .v48InputInRange cv => decide (4000 ≤ cv) && decide (cv ≤ 6000)
  | .tbAdjustSecondBoundary => true
  | .tbSlewComplete => true

end Sys2Proof
end

