-- ==== Sys2Proof/Certificates/Slice0/Obligations.lean ====
section
/-! DEFINITION. The statements for the provers: what the commands and the machine do. -/

open Sys2Proof
open Sys2Proof.Machine

/-- For every command c, queue rest cs and state s, a step of s with c at the front of its queue is exec of c on s with
the queue's rest. The queue is the model's own (log entry 2); first in, first out is the order in which 02 R69 takes
the orders of a ring. -/
def Obligations.StepRunsFrontCommand : Prop :=
  ∀ (c : Instr) (cs : List Instr) (s : State), step { s with pending := c :: cs } = exec c { s with pending := cs }

/-- On an empty queue a step always answers a next state, in which elapsed time is one nanosecond later and the queue is
still empty, ownership unchanged. That time passes only on an empty queue is the model's own choice (log entry 2). -/
def Obligations.IdleStepIsANanosecond : Prop :=
  ∀ s : State, s.pending = [] →
    ∃ t, step s = .next t ∧ t.tb.now = s.tb.now + 1 ∧ t.pending = [] ∧ t.own = s.own

/-- After reset OWNER is none and LEASE_VALID, OFFER_PENDING and DRAINING are 0, OWN_GEN is 0, RESULT is 0 for each master
and LEASE_MS is 1,000 (Table 2-18); the mode is DORMANT with READY 0; nothing is committed and the configuration is
not diverged; every ring of every master reads as disabled with both indices 0 (Table 2-6); the tables hold no entry;
no lathe is isolated; DT is 0; and no command waits. -/
def Obligations.ResetStateIsAsTheManualGives : Prop :=
  State.reset.own.owner = none ∧ State.reset.own.leaseValid = false ∧ State.reset.own.offer = none ∧
  State.reset.own.drain = none ∧ State.reset.own.gen = 0 ∧ (∀ m, State.reset.own.result.get m = 0) ∧
  State.reset.own.leaseMs = 1000 ∧ State.reset.mode.mode = .dormant ∧ State.reset.mode.ready = false ∧
  State.reset.fp.committedValid = false ∧ State.reset.fp.diverged = false ∧
  (∀ m n, getRing State.reset m n = Ring.reset) ∧ Ring.reset.enable = false ∧ Ring.reset.dev = 0 ∧ Ring.reset.host = 0 ∧
  State.reset.tbl.em = [] ∧ State.reset.tbl.lpm4 = [] ∧ State.reset.tbl.lpm6 = [] ∧ State.reset.tbl.acl = [] ∧
  State.reset.lat.isoRegs = 0 ∧ State.reset.tb.dt = 0 ∧ State.reset.pending = []

/-- For every command c and every state s, exec c s answers a next state, never a fault and never a refusal, and that
state's queue of waiting commands is the one of s. An order that the device refuses completes with a status (02 R67);
it does not stop the block. -/
def Obligations.EveryCommandAnswersANextState : Prop :=
  ∀ (c : Instr) (s : State), ∃ t, exec c s = .next t ∧ t.pending = s.pending

/-- Let c be any command other than the ownership orders (HANDOVER_OFFER, HANDOVER_ACCEPT, HANDOVER_WITHDRAW, RELEASE), a
fetch or a payload that may bring one, a write of CLAIM, RENEW or another register (LEASE_MS among them), the lease's,
the offer's and the drain's own events, the two cuts, SYSRESET_N and the loss or return of VAUX. Then exec c s answers
a next state in which OWNER, LEASE_VALID, the offer, the drain, OWN_GEN, every RESULT, LEASE_MS and the running lease
are those of s: ownership carries through cold start, warm start, COAST, PROBE, HALT and every order that is not of
the ownership class (02 R90). -/
def Obligations.OnlyOwnershipCommandsChangeOwnership : Prop :=
  ∀ (c : Instr) (s : State), c.touchesOwnership = false → ∃ t, exec c s = .next t ∧ t.own = s.own

/-- The invariant OwnSt.Sane says that LEASE_VALID is 1 exactly while there is an owner; that a pending offer is an
owner's, to a master that is not the owner; that a handover drains the owner with its offer still pending to the
master whose accept began it; that a release drains the owner with no offer; that an expiry drains while there is no
owner; and that LEASE_MS lies in 250 to 10,000. From every state that meets it, whether a run reaches it or not, every
step that answers a next state answers one that meets it. -/
def Obligations.OwnershipStaysSane : Prop :=
  ∀ s t : State, s.own.Sane → step s = .next t → t.own.Sane

/-- State.reset meets OwnSt.Sane: no owner, no lease, no offer, no drain, and LEASE_MS 1,000. -/
def Obligations.ResetOwnershipIsSane : Prop :=
  State.reset.own.Sane

/-- For every state whose M0 window is in its canonical form (addresses strictly rising, no byte listed that reads as
zero), a write of bytes at offset a of the window keeps the form; a byte of the 32 KiB window inside the stored bytes
reads as the byte written; and every other byte reads as before. A write by H0 or H1, to host memory, leaves the
window as it is. A byte that nothing has written reads as zero by the model's own choice (log entry 4). -/
def Obligations.M0WindowReadsBackWhatIsWritten : Prop :=
  (∀ (s : State) (m : Master) (a : Nat) (bs : List Byte), SMap.wf (fun _ => (0 : Byte)) s.host.m0Win = true →
    SMap.wf (fun _ => (0 : Byte)) (memWrite s m a bs).host.m0Win = true) ∧
  (∀ (s : State) (a : Nat) (bs : List Byte) (x : Nat), SMap.wf (fun _ => (0 : Byte)) s.host.m0Win = true →
    m0Byte (memWrite s .m0 a bs) x =
      if a ≤ x ∧ x < a + bs.length ∧ x < 0x8000 then bs.getD (x - a) 0 else m0Byte s x) ∧
  (∀ (s : State) (m : Master) (a : Nat) (bs : List Byte) (x : Nat), m ≠ .m0 → m0Byte (memWrite s m a bs) x = m0Byte s x)

/-- For every command that is a work order, in every state: if its reserved word or one of the reserved bits [15:4] of its
FLAGS is not zero, and it is not the second pass of an order whose payload is awaited (for a START, no mutating order
of the owner runs, on which a START waits), the next state is s but for the completion with MALFORMED. An order of a
reserved opcode completes so whatever its fields. What a bit of an order's OBJECT or payload does is in the checks of
its own form (headForm), which this statement also covers: an order whose 64 bytes do not have its form completes with
MALFORMED. -/
def Obligations.MalformedOrderOnlyCompletes : Prop :=
  (∀ (c : Instr) (s : State) (op : Nat) (o : Order), c.workOrder = some (op, o) →
    (o.rsvd ≠ 0 ∨ fld o.flags 4 12 ≠ 0) → awaitOf s o = none →
    (op = 0x4301 → ∀ m, s.own.owner = some m → mutatingRuns s m = false) →
    exec c s = .next (complete s o stMalformed 0)) ∧
  (∀ (f : Form) (o : Order) (s : State) (k : Checks) (body : State → State × Reply), headForm f o = false →
    runOrder f o s k body = complete s o stMalformed 0) ∧
  (∀ (f : Form) (o : Order) (s : State) (k : Checks) (k2 : List Byte → Checks) (body : List Byte → State → State × Reply),
    headForm f o = false → awaitOf s o = none → runPtr f o s k k2 body = complete s o stMalformed 0) ∧
  (∀ (o : Order) (op : BitVec 16) (s : State), exec (.reservedOpcodeOrder o op) s = .next (complete s o stMalformed 0))

/-- For every command that is a work order of the mutating class, in every state, not the second pass of an awaited
payload (and, for a START, with no mutating order of the owner running, on which a START waits): if its master is not
the owner, or a drain is under way, the next state is s but for the completion with MALFORMED, UNSUPPORTED or
NOT_OWNER; if its master is the owner and its OWN_GEN is not the current generation, but for the completion with
MALFORMED, UNSUPPORTED, NOT_OWNER or STALE_GENERATION. (Which of them comes first is the order of 02 R68.) -/
def Obligations.OrderFromNoOwnerHasNoEffect : Prop :=
  ∀ (c : Instr) (s : State) (op : Nat) (o : Order), c.workOrder = some (op, o) → clsOf op = .mutating →
    awaitOf s o = none → (op = 0x4301 → ∀ m, s.own.owner = some m → mutatingRuns s m = false) →
    (s.own.owner ≠ some o.master ∨ s.own.drain.isSome = true →
      ∃ st, exec c s = .next (complete s o st 0) ∧ (st = stMalformed ∨ st = stUnsupported ∨ st = stNotOwner)) ∧
    (s.own.owner = some o.master → o.ownGen ≠ s.own.gen →
      ∃ st, exec c s = .next (complete s o st 0) ∧
        (st = stMalformed ∨ st = stUnsupported ∨ st = stNotOwner ∨ st = stStale))

/-- Let c be a work order that the fetch of command ring n of H0 or H1 may bring: the ring may fetch (its master attached,
enabled, of type command, not stopped, DEV_INDEX not HOST_INDEX, its completion ring able to take an
entry and no completion waiting for it), the 512 bits read hold the opcode of c and the fields of its order, and the
order need not wait. Then ORDER_FETCH does exactly what c does in the state with DEV_INDEX one further (and the ring's
note of whether the order was of the ownership class). For a MANDREL_TEST the test that the command carries
is that of the fetch. A fetch whose read of host memory fails faults the ring and has no other
effect but RING_FAULT. -/
def Obligations.FetchRunsTheOrderItReads : Prop :=
  (∀ (c : Instr) (op : Nat) (o : Order) (m : Master) (n : Nat) (w : BitVec 512) (data : PtrData) (ok : Bool) (x : Nat)
      (s : State), c.workOrder = some (op, o) → m ≠ .m0 → fetchReady s m n = true →
    (w.extractLsb' 0 16).toNat = op → orderOfBits m n (getRing s m n).dev w data ok = o →
    mustWait s o (w.extractLsb' 0 16) = false → (∀ q y, c = .mandrelTest q y → y = x) →
    exec (.orderFetch m n (some w) data ok x) s =
      exec c (updRing s m n fun r => { r with dev := r.dev + 1, ownLast := clsOf op == .ownership })) ∧
  (∀ (m : Master) (n : Nat) (data : PtrData) (ok : Bool) (x : Nat) (s : State), m ≠ .m0 →
    fetchReady s m n = true →
    exec (.orderFetch m n none data ok x) s =
      .next (postTo (updRing s m n fun r => { r with fault := true, stopped := true }) 0x0207 0 n m))

/-- Every fetch completes (02 R61, R69, R73). Let a command ring of any master be able to fetch (fetchReady), let its next
order be read (from M0's window, or the read of host memory answers its 512 bits) and let it not have to wait
(mustWait). Then ORDER_FETCH answers a next state: it is what running the order's opcode, or the reserved-opcode
completion, gives in the state with DEV_INDEX one further and the ring's note of the ownership class set. Where the
order is a NOP that the checks accept, that state is the one with DEV_INDEX one further and the order's completion
SUCCESS with DATA 0, and nothing else. A ring that may not fetch, or whose order must wait, leaves the state as it is. -/
def Obligations.FetchCompletes : Prop :=
  (∀ (m : Master) (n : Nat) (bits : Option (BitVec 512)) (w : BitVec 512) (data : PtrData) (ok : Bool) (x : Nat) (o : Order)
      (s u : State), fetchReady s m n = true → (if m = .m0 then some (m0Order s n) else bits) = some w →
    o = orderOfBits m n (getRing s m n).dev w (if m = .m0 ∧ bit w 16 = true then .later else data) (m == .m0 || ok) →
    mustWait s o (w.extractLsb' 0 16) = false →
    u = updRing s m n (fun r =>
      { r with dev := r.dev + 1, ownLast := clsOf (w.extractLsb' 0 16).toNat == .ownership }) →
    (∃ t, runOpcode (w.extractLsb' 0 16) o x u = .next t ∧ exec (.orderFetch m n bits data ok x) s = .next t) ∧
    (w.extractLsb' 0 16 = 0x0201 → accepted (readForm 0x0201 [] 0 [] 0 modesAll) u o = true →
      exec (.orderFetch m n bits data ok x) s = .next (complete u o stSuccess 0))) ∧
  (∀ (m : Master) (n : Nat) (bits : Option (BitVec 512)) (data : PtrData) (ok : Bool) (x : Nat) (s : State),
    fetchReady s m n = false → exec (.orderFetch m n bits data ok x) s = .next s) ∧
  (∀ (m : Master) (n : Nat) (bits : Option (BitVec 512)) (w : BitVec 512) (data : PtrData) (ok : Bool) (x : Nat) (s : State),
    fetchReady s m n = true → (if m = .m0 then some (m0Order s n) else bits) = some w →
    mustWait s (orderOfBits m n (getRing s m n).dev w (if m = .m0 ∧ bit w 16 = true then .later else data) (m == .m0 || ok))
      (w.extractLsb' 0 16) = true →
    exec (.orderFetch m n bits data ok x) s = .next s)

/-- A completion of order o with a status and DATA changes nothing but the record of the host ports and what was done
outside. Where the completion ring that the order's ring names is an enabled completion ring with space and no
completion waits for it, a due completion is a write of 16 bytes at the ring's entry, TAG in [15:0], STATUS in
[31:16], the command ring in [39:32], PHASE of the pass in [40], the order's index in [63:48] and DATA in [127:64],
DEV_INDEX then advances, and the ring's vector is signalled if the ring or the order asks for it. A success with QUIET
writes nothing. With the ring full the completion is held, last in line; with it disabled or stopped it is discarded. -/
def Obligations.CompletionEntryIsWritten : Prop :=
  (∀ (s : State) (o : Order) (st d : Nat), ∃ h out, complete s o st d = { s with host := h, out := out }) ∧
  (∀ (s : State) (o : Order) (st d n : Nat) (r : Ring), (getRing s o.master o.ring).cmpl = n → getRing s o.master n = r →
    (cmplDue o st = false → complete s o st d = s) ∧
    (cmplDue o st = true → cmplReady r = false → complete s o st d = s) ∧
    (cmplDue o st = true → cmplReady r = true → ringFull r = true →
      complete s o st d =
        s.updHost fun h => { h with held := h.held ++ [⟨o, BitVec.ofNat 16 st, BitVec.ofNat 64 d⟩] }) ∧
    (cmplDue o st = true → cmplReady r = true → ringFull r = false →
      (s.host.held.any fun h => h.order.master == o.master && (getRing s o.master h.order.ring).cmpl == n) = false →
      complete s o st d =
        (let t := updRing (memWrite s o.master (entryAddr r) (completionBytes o st d r.phase)) o.master n ringAdvance
         if r.irqEn || o.irq then signal t o.master (ringVector o.master r) else t))) ∧
  (∀ (o : Order) (st d : Nat) (p : Bool), (completionBytes o st d p).length = 16 ∧
    nfld (leNat (completionBytes o st d p)) 0 16 = o.tag.toNat ∧
    nfld (leNat (completionBytes o st d p)) 16 16 = st % 2 ^ 16 ∧
    nfld (leNat (completionBytes o st d p)) 32 8 = o.ring % 2 ^ 8 ∧
    nfld (leNat (completionBytes o st d p)) 40 1 = b2n p ∧
    nfld (leNat (completionBytes o st d p)) 48 16 = o.index.toNat ∧
    nfld (leNat (completionBytes o st d p)) 64 64 = d % 2 ^ 64)

/-- Posting an event to a master changes nothing but the record of the host ports and what was done outside. To a master
that is not attached nothing is posted. Otherwise, where some event ring of the master is enabled with FAULT clear,
the entry is written to the lowest-numbered such ring, or, the ring being full, discarded with LOST counted and
OVERFLOW set; with no such ring EVENTS_MISSED is counted; and for OWNER_CHANGED, LEASE_EXPIRED and the HALT notice
vector 0 is signalled as well. The entry is 32 bytes: CODE in [15:0], PHASE in [24], OWN_GEN in [63:32], DT in
[159:64], OBJECT in [191:160] and DATA in [255:192]. How that raise of vector 0 counts toward the moderation of vector 0
is the model's choice (log entry 92): with no entry written it fires at once; an entry whose ring signals vector 0
itself is signalled once; any other entry is signalled on vector 0 too. -/
def Obligations.EventEntryIsWritten : Prop :=
  (∀ (s : State) (c ob d : Nat) (m : Master), ∃ h out, postTo s c ob d m = { s with host := h, out := out }) ∧
  (∀ (s : State) (c ob d : Nat) (m : Master), attached s m = false → postTo s c ob d m = s) ∧
  (∀ (s : State) (c ob d n : Nat) (m : Master), attached s m = true → eventRing s m = some n → vectorZeroEvent c = false →
    ringFull (getRing s m n) = false → postTo s c ob d m = ringPut s m n false (eventBytes s c ob d)) ∧
  (∀ (s : State) (c ob d n : Nat) (m : Master), attached s m = true → eventRing s m = some n → vectorZeroEvent c = false →
    ringFull (getRing s m n) = true → postTo s c ob d m = updRing s m n fun r =>
      { r with overflow := true, lost := satAdd 16 r.lost 1, evLost := satAdd 16 r.evLost 1 }) ∧
  (∀ (s : State) (c ob d : Nat) (m : Master), attached s m = true → eventRing s m = none → vectorZeroEvent c = false →
    postTo s c ob d m = updPort s m fun p => { p with missed := satAdd 8 p.missed 1 }) ∧
  (∀ (s : State) (c ob d : Nat) (m : Master), attached s m = true → eventRing s m = none → vectorZeroEvent c = true →
    postTo s c ob d m = fire (updPort s m fun p => { p with missed := satAdd 8 p.missed 1 }) m 0) ∧
  (∀ (s : State) (c ob d n : Nat) (m : Master), attached s m = true → eventRing s m = some n → vectorZeroEvent c = true →
    ringFull (getRing s m n) = true →
    postTo s c ob d m = fire (updRing s m n fun r =>
      { r with overflow := true, lost := satAdd 16 r.lost 1, evLost := satAdd 16 r.evLost 1 }) m 0) ∧
  (∀ (s : State) (c ob d n : Nat) (m : Master), attached s m = true → eventRing s m = some n → vectorZeroEvent c = true →
    ringFull (getRing s m n) = false →
    postTo s c ob d m =
      (let t := ringPut s m n false (eventBytes s c ob d)
       if (getRing s m n).irqEn = true ∧ ringVector m (getRing s m n) = 0 then t else signal t m 0)) ∧
  (∀ c, vectorZeroEvent c = true ↔ c = 0x0201 ∨ c = 0x0203 ∨ c = 0x1001) ∧
  (∀ (s : State) (c ob d : Nat) (p : Bool), (eventBytes s c ob d p).length = 32 ∧
    nfld (leNat (eventBytes s c ob d p)) 0 16 = c % 2 ^ 16 ∧ nfld (leNat (eventBytes s c ob d p)) 24 1 = b2n p ∧
    nfld (leNat (eventBytes s c ob d p)) 32 32 = s.own.gen.toNat ∧
    nfld (leNat (eventBytes s c ob d p)) 64 96 = (dtWord s.tb.dt).toNat ∧
    nfld (leNat (eventBytes s c ob d p)) 160 32 = ob % 2 ^ 32 ∧
    nfld (leNat (eventBytes s c ob d p)) 192 64 = d % 2 ^ 64)

/-- An accepted NOP only completes, with DATA 0. An accepted READ_OWNERSHIP completes with OWN_STATE, REMAIN_MS and
OWN_GEN. An accepted HANDOVER_OFFER to an attached master that is not the owner, of 1 to 10,000 ms, with no offer
pending, makes the offer pending until its lapse, posts OFFER_MADE to the successor and completes with OWN_GEN. A
HANDOVER_ACCEPT of its form that meets the conditions of R86 in their order begins the drain of the owner, whose lease
stops counting, and goes on running. An accepted HANDOVER_WITHDRAW of a pending offer removes it, posts OFFER_LAPSED
with cause 2 and completes with OWN_GEN. An accepted RELEASE cancels an offer, begins the drain and goes on running.
Nothing else changes in any of them. -/
def Obligations.OwnershipOrdersTakeEffect : Prop :=
  (∀ (o : Order) (s : State), accepted (readForm 0x0201 [] 0 [] 0 modesAll) s o = true → exec (.nop o) s = succeeds s o 0) ∧
  (∀ (o : Order) (s : State), accepted (readForm 0x0202 [0x02] 0 [] 0 modesAll) s o = true →
    exec (.readOwnership o) s =
      succeeds s o (packN [(0, 16, ownState s), (16, 16, remainMs s), (32, 32, s.own.gen.toNat)])) ∧
  (∀ (o : Order) (s : State) (m : Master), accepted (readForm 0x8201 [0x02] 0 [(0, 2), (16, 16)] 0 modesAll) s o = true →
    mOf (o.f 0 2) = some m → s.own.owner ≠ some m → attached s m = true → 1 ≤ o.f 16 16 → o.f 16 16 ≤ 10000 →
    s.own.offer = none →
    exec (.handoverOffer o) s =
      succeeds (postTo (s.updOwn fun w => { w with offer := some ⟨m, s.tb.now + o.f 16 16 * 1000000⟩ }) 0x0204 0
        (packN [(0, 2, mIdx o.master), (16, 16, o.f 16 16), (32, 32, nfld (dtWord s.tb.dt).toNat 16 32)]) m) o
        s.own.gen.toNat) ∧
  (∀ (o : Order) (s : State) (f : Offer) (old : Master),
    headForm (readForm 0x8202 [0x02] 0 [(0, 2)] 0 modesAll) o = true → s.own.offer = some f → s.tb.now < f.lapse →
    f.to_ = o.master → o.ownGen = s.own.gen → s.own.drain = none → s.own.owner = some old → o.f 0 2 = mIdx old →
    exec (.handoverAccept o) s =
      goesOn (s.updOwn fun w =>
        { w with drain := some ⟨.accept o, old, s.tb.now⟩, frozen := w.leaseEnd - s.tb.now }) 0x8202 o) ∧
  (∀ (o : Order) (s : State) (f : Offer), accepted (readForm 0x8203 [0x02] 0 [] 0 modesAll) s o = true →
    s.own.offer = some f →
    exec (.handoverWithdraw o) s =
      succeeds (postTo (postTo (s.updOwn fun w => { w with offer := none }) 0x0205 0 2 o.master) 0x0205 0 2 f.to_) o
        s.own.gen.toNat) ∧
  (∀ (o : Order) (s : State), accepted (readForm 0x8204 [0x02] 0 [] 0 modesAll) s o = true → s.own.offer = none →
    exec (.release o) s =
      goesOn (s.updOwn fun w =>
        { w with drain := some ⟨.release o, o.master, s.tb.now⟩, frozen := w.leaseEnd - s.tb.now }) 0x8204 o)

/-- A CLAIM or a RENEW is a write of BAR0, so that it has no effect by a master that cannot write it (02 R46). A CLAIM by an
attached master with no lease, no drain and the value equal to OWN_GEN makes it owner at the next
generation, with a lease of LEASE_MS, RESULT 1 and no offer; refused, it gives RESULT 7, 2, 4 or 3 and nothing else. A
RENEW from the owner of the current generation with no drain restarts the lease with RESULT 5; any other gives RESULT
6 alone. LEASE_LOW is posted once when REMAIN_MS is below a quarter of the running lease. An expired lease leaves no
owner at the next generation with no offer, and a drain where the old owner's orders still run. The expiry's drain, a
handover's and a release's end once nothing is waited for: no drain; the successor owner at the next generation with a
lease of LEASE_MS; or no owner at the next generation. An offer with no accept lapses at its instant. -/
def Obligations.LeaseAndOwnerChanges : Prop :=
  (∀ (m : Master) (v : Word) (s : State), barOk s m = false →
    exec (.claimWrite m v) s = .next s ∧ exec (.renewWrite m v) s = .next s) ∧
  (∀ (m : Master) (v : Word) (s : State), barOk s m = true → attached s m = true → s.own.leaseValid = false →
    s.own.drain = none → v = s.own.gen →
    ∃ t, exec (.claimWrite m v) s = .next t ∧
      t.own = { s.own with
        owner := some m, leaseValid := true, gen := s.own.gen + 1, result := (s.own.result.upd m fun _ => 1),
        leaseLen := s.own.leaseMs * 1000000, leaseEnd := s.tb.now + s.own.leaseMs * 1000000, lowPosted := false,
        drain := none, offer := none }) ∧
  (∀ (m : Master) (v : Word) (s : State) (r : Nat), barOk s m = true → claimResult s m v = r → r ≠ 1 →
    exec (.claimWrite m v) s = .next (s.updOwn fun w => { w with result := (w.result.upd m fun _ => r) })) ∧
  (∀ (m : Master) (v : Word) (s : State), claimResult s m v =
    if attached s m = false then 7 else if s.own.leaseValid = true then 2 else if s.own.drain.isSome = true then 4
    else if v ≠ s.own.gen then 3 else 1) ∧
  (∀ (m : Master) (v : Word) (s : State), barOk s m = true → s.own.owner = some m → s.own.leaseValid = true →
    v = s.own.gen → s.own.drain = none →
    exec (.renewWrite m v) s = .next (s.updOwn fun w => { w with
      result := (w.result.upd m fun _ => 5),
      leaseLen := w.leaseMs * 1000000, leaseEnd := s.tb.now + w.leaseMs * 1000000, lowPosted := false })) ∧
  (∀ (m : Master) (v : Word) (s : State), barOk s m = true →
    (s.own.owner ≠ some m ∨ v ≠ s.own.gen ∨ s.own.drain.isSome = true) →
    exec (.renewWrite m v) s = .next (s.updOwn fun w => { w with result := (w.result.upd m fun _ => 6) })) ∧
  (∀ (m : Master) (s : State), s.own.owner = some m → s.own.leaseValid = true → s.own.drain = none →
    s.own.lowPosted = false → remainMs s * 4 < s.own.leaseLen / 1000000 →
    exec .leaseLow s = .next (postTo (s.updOwn fun w => { w with lowPosted := true }) 0x0202 0 (remainMs s) m)) ∧
  (∀ (m : Master) (s : State), s.own.owner = some m → s.own.leaseValid = true → s.own.drain = none →
    s.own.leaseEnd ≤ s.tb.now →
    ∃ t, exec .leaseExpired s = .next t ∧ t.own.owner = none ∧ t.own.leaseValid = false ∧ t.own.gen = s.own.gen + 1 ∧
      t.own.offer = none) ∧
  (∀ (old : Master) (t0 : Nat) (s : State), s.own.drain = some ⟨.expiry, old, t0⟩ → drainWaits s old = false →
    exec .expiryDrainEnd s = .next (s.updOwn fun w => { w with drain := none })) ∧
  (∀ (f : Offer) (s : State), s.own.offer = some f → s.own.drain = none → f.lapse ≤ s.tb.now →
    ∃ t, exec .offerLapsed s = .next t ∧ t.own = { s.own with offer := none }) ∧
  (∀ (o : Order) (old : Master) (t0 : Nat) (s : State), s.own.drain = some ⟨.accept o, old, t0⟩ →
    drainWaits s old = false →
    ∃ t, exec .handoverCut s = .next t ∧
      t.own = { s.own with
        owner := some o.master, leaseValid := true, gen := s.own.gen + 1,
        leaseLen := s.own.leaseMs * 1000000, leaseEnd := s.tb.now + s.own.leaseMs * 1000000, lowPosted := false,
        drain := none, offer := none }) ∧
  (∀ (o : Order) (old : Master) (t0 : Nat) (s : State), s.own.drain = some ⟨.release o, old, t0⟩ →
    drainWaits s old = false →
    ∃ t, exec .releaseCut s = .next t ∧
      t.own = { s.own with owner := none, leaseValid := false, gen := s.own.gen + 1, offer := none, drain := none })

/-- An accepted READ_START completes with MODE_STATUS and LAST_START. A START of its form from the owner at the current
generation, no drain, no other mutating order of the owner's running, no start or HALT entry in progress: a cold START
outside DORMANT and HALT begins a cold start with CAUSE 3; a warm one while the count of failed warm starts forces
cold begins one with CAUSE 5; a warm one in SERVICE, or in PREPARE after a warm start's failure, with a valid
committed configuration not diverged, begins a warm start; a cold START in HALT with no cause of HALT left waits for
the rails, restored first. An accepted ENTER_SERVICE with READY and a committed configuration goes to SERVICE. An
accepted ENTER_PROBE with READY goes to PROBE with READY 0 and every held packet discarded. -/
def Obligations.OrdersOfStartsTakeEffect : Prop :=
  (∀ (o : Order) (s : State),
      accepted (readForm 0x0301 [0x03] 0 [] 0 modesAll) s o = true →
      exec (.readStart o) s = succeeds s o (modeStatus s + lastStartWord s.mode.last * 2 ^ 32)) ∧
  ((∀ (o : Order) (s : State),
      headForm (setForm 0x4301 [0x03] 0 [(0, 1)] modesAll false) o = true → s.own.owner = some o.master →
      s.own.drain = none → o.ownGen = s.own.gen → mutatingRuns s o.master = false → s.mode.haltEntry = false →
      s.mode.active = false → s.mode.pendCold = none → s.mode.restore = none → o.b 0 = false →
      s.mode.mode ≠ .dormant → s.mode.mode ≠ .halt →
      exec (.start o) s = .next (beginStart s false 3 (some o))) ∧
    (∀ (o : Order) (s : State),
      headForm (setForm 0x4301 [0x03] 0 [(0, 1)] modesAll false) o = true → s.own.owner = some o.master →
      s.own.drain = none → o.ownGen = s.own.gen → mutatingRuns s o.master = false → s.mode.haltEntry = false →
      s.mode.active = false → s.mode.pendCold = none → s.mode.restore = none → o.b 0 = true →
      s.mode.forceCold = true → s.mode.mode ≠ .dormant → s.mode.mode ≠ .halt →
      exec (.start o) s = .next (beginStart s false 5 (some o))) ∧
    (∀ (o : Order) (s : State),
      headForm (setForm 0x4301 [0x03] 0 [(0, 1)] modesAll false) o = true → s.own.owner = some o.master →
      s.own.drain = none → o.ownGen = s.own.gen → mutatingRuns s o.master = false → s.mode.haltEntry = false →
      s.mode.active = false → s.mode.pendCold = none → s.mode.restore = none → o.b 0 = true →
      s.mode.forceCold = false → s.mode.mode = .service ∨ (s.mode.mode = .prepare ∧ s.mode.warmFailPrepare = true) →
      s.fp.committedValid = true → s.fp.diverged = false →
      exec (.start o) s = .next (beginStart s true 4 (some o))) ∧
    (∀ (o : Order) (s : State),
      headForm (setForm 0x4301 [0x03] 0 [(0, 1)] modesAll false) o = true → s.own.owner = some o.master →
      s.own.drain = none → o.ownGen = s.own.gen → mutatingRuns s o.master = false → s.mode.haltEntry = false →
      s.mode.active = false → s.mode.pendCold = none → s.mode.restore = none → o.b 0 = false →
      s.mode.mode = .halt → haltCause s = false →
      exec (.start o) s = .next (s.updMode fun m => { m with restore := some o, startAt := s.tb.now }))) ∧
  (∀ (o : Order) (s : State),
      accepted (setForm 0x4302 [0x03] 0 [] [.prepare] false) s o = true → s.mode.ready = true →
      s.fp.committedValid = true →
      exec (.enterService o) s = succeeds (setMode s .service) o 0) ∧
  (∀ (o : Order) (s : State),
      accepted (setForm 0x4303 [0x03] 0 [] modesSet false) s o = true → s.mode.ready = true →
      exec (.enterProbe o) s =
        succeeds (discardPackets ((setMode s .probe).updMode fun m => { m with ready := false })) o 0)

/-- Each order accepted by the checks of 02 R68 for its form, its lane existing and its chapter's own conditions (Table
4-18) met: READ_LANE returns the lane's record; READ_OE completes with the engine's word; EYE_SCAN, whose grid is in
range, adds its scan to the engine's and goes on running; RAW_CAPTURE of a raw lane returns WORDS words and the error
count; PORT_SET makes or removes the port, or changes nothing where the port is already so; LANE_SET gives the lane
its fields and looks at its port's local fault again; RECALIBRATE begins a recalibration and goes on; SPARE and
UNSPARE begin their handshake and go on, or complete UNSUPPORTED on ordering code S; OE_SET gives the engine its
fields, and a new SPARE_PORT abandons a handshake and trains the spare; XP_SET with no destination removes the
source's entry, and with destinations replaces it, freeing those that leave; ELS_XFER puts its bytes on the laser bus
and completes with what was read, or with its failure. -/
def Obligations.OrdersOfLanesTakeEffect : Prop :=
  (∀ (o : Order) (s : State),
      accepted (readForm 0x0401 [0x41] 0xFFFFFF [] 64 modesOn) s o = true → noLane o = false →
      exec (.readLane o) s = returns s.drawn o (bytesLE 64 (laneRecord s o.inst)) 0) ∧
  (∀ (o : Order) (s : State),
      accepted (readForm 0x0402 [0x42] 0xFFFFFF [] 0 modesOn) s o = true → o.inst < 32 →
      exec (.readOe o) s = succeeds s o (oeData s o.inst)) ∧
  (∀ (o : Order) (s : State),
      let g := getEng s (o.inst / 17)
      accepted (readForm 0x0403 [0x41] 0xFFFFFF [(0, 42)] 16 [.prepare, .service, .coast, .probe]) s o = true →
      noLane o = false → signed 7 (o.f 2 7) ≤ signed 7 (o.f 9 7) → signed 6 (o.f 20 6) ≤ signed 6 (o.f 26 6) →
      o.f 16 4 ≠ 0 → o.f 32 4 ≠ 0 → 20 ≤ o.f 36 6 → o.f 36 6 ≤ 40 → (g.scans.any (fun x => x.pl == o.inst)) = false →
      g.scans.length < 4 →
      exec (.eyeScan o) s =
        goesOn (updEng s (o.inst / 17) fun g =>
          { g with scans := g.scans ++ [⟨o.inst, scanPoints o, [], true, ⟨0x0403, o, s.tb.now, s.tb.dt⟩⟩] }) 0x0403 o) ∧
  (∀ (o : Order) (s : State),
      let w := o.f 0 16
      accepted (readForm 0x0404 [0x41] 0xFFFFFF [(0, 16)] 16 [.probe]) s o = true → noLane o = false →
      (w % 4 != 0) = false → 4 ≤ w → w ≤ 4096 → ((getLane s o.inst).role != 5) = false →
      exec (.rawCapture o) s =
        let l := getLane s o.inst
        let bs := match o.data with | .bytes b => b | _ => []
        let n := if l.checker then l.errors + BitVec.ofNat 48 (freeNat s.drawn) else l.errors
        (returns (updLane s.drawn.drawn o.inst fun l => { l with errors := n }) o
          (bytesLE (16 * w) (slipped l.slip w bs (freeNat s))) n.toNat)) ∧
  (∀ (o : Order) (s : State),
      let n := o.inst
      let w := 2 ^ o.f 1 2
      accepted (setForm 0x4401 [0x43] 0xFFFFFF [(0, 5)] [.prepare, .service] true) s o = true → n < 512 →
      o.f 3 2 ≠ 3 →
      (o.f 3 2 == 2 && Config.codeS) = false →
      (if portSetIdle s o then none else if o.b 0 && n % w != 0 then some 0x8401 else if o.b 0 && (List.range w).any (fun i => laneInUse s n (n + i)) then some 0x8402 else if portExists s n && gatewayInUse s n then some 0x840A else none) = none →
      exec (.portSet o) s =
        succeeds (if portSetIdle s o then s else portSetEffect s n (if o.b 0 then some ⟨o.f 1 2, o.f 3 2⟩ else none)) o 0) ∧
  (∀ (o : Order) (s : State),
      let l := getLane s o.inst
      accepted (setForm 0x4402 [0x41] 0xFFFFFF [(0, 146)] [.prepare, .service, .probe] true) s o = true → o.f 5 3 ≠ 6 →
      o.f 5 3 ≠ 7 → (o.b 4 && o.f 144 2 == 2 && Config.codeS) = false →
      (laneSetProbe o && orderMode s != .probe) = false → noLane o = false → laneSetFixed s o = false →
      (o.b 4 && o.f 144 2 == 3) = false →
      (o.b 4 && (l.role == 1 || l.role == 2 || l.role == 3 || l.role == 4)) = false →
      exec (.laneSet o) s =
        let u := if laneSetMoves o l then updLane (spoilScans s o.inst) o.inst (unlockLane s.tb.now) else s
        let u := updLane u o.inst (laneSetEffect o)
        (succeeds (match portOfPL u o.inst with | some n => refreshLf u n | none => u) o 0)) ∧
  (∀ (o : Order) (s : State),
      accepted (setForm 0x4403 [0x41] 0xFFFFFF [] [.prepare, .service, .probe] true) s o = true → noLane o = false →
      laneBusy s o.inst = false → (getEng s (o.inst / 17)).lowLatch = false →
      exec (.recalibrate o) s =
        goesOn (pathChanged (updLane (if (getLane s o.inst).cdr then s else spoilScans s o.inst) o.inst fun l =>
          { l with recal := true, recalOrder := true, state := if l.cdr then l.state else 1 }) o.inst) 0x4403 o) ∧
  (∀ (o : Order) (s : State),
      let e := o.inst / 17
      accepted (setForm 0x4404 [0x41] 0xFFFFFF [] [.service] false) s o = true →
      noLane o = false → spareReady s e o.inst = true → laneBusy s o.inst = false → (getEng s e).lowLatch = false →
      exec (.spare o) s =
        if Config.codeS then .next (complete s o stUnsupported 0)
        else
          (goesOn (beginSpare s e o.inst (posOf s ((portOfPL s o.inst).getD 0) o.inst) 3 true false) 0x4404 o)) ∧
  (∀ (o : Order) (s : State),
      let g := getEng s o.inst
      accepted (setForm 0x4405 [0x42] 0xFFFFFF [] [.service] false) s o = true → o.inst < 32 →
      g.spared.isSome = true → g.hs.isSome = false → revertReady s g = true →
      exec (.unspare o) s =
        if Config.codeS then .next (complete s o stUnsupported 0)
        else
          let pos := posOf s (g.sparePort.getD 0) (sparePL o.inst)
          (goesOn (beginSpare s o.inst (g.spared.getD 0) pos 4 true true) 0x4405 o)) ∧
  (∀ (o : Order) (s : State),
      let e := o.inst
      let g := getEng s e
      let change := sparePortOf o != g.sparePort
      let sl := getLane s (sparePL e)
      accepted (setForm 0x4406 [0x42] 0xFFFFFF [(0, 56)] [.prepare, .service] true) s o = true → o.inst < 32 →
      ((sparePortOf o).isSome && Config.codeS) = false → oeSetBad o = false → (change && g.spared.isSome) = false →
      ((sparePortOf o).isSome && (sl.role == 3 || sl.role == 4 || sl.role == 5)) = false →
      exec (.oeSet o) s =
        let u := if change then abandonSpare s e 4 else s
        let u := updEng u e fun g =>
          { g with sparePort := sparePortOf o, autoSpare := o.b 9,
                   autoSince := if g.autoSpare then g.autoSince else u.tb.now, lowWarn := signed 10 (o.f 10 10),
                   lowAlarm := signed 10 (o.f 20 10), highAlarm := signed 10 (o.f 30 10), serOld := serExpAt g u.tb.dt,
                   holdOld := holdAt g u.tb.dt, setMs := some (u.tb.dt / dtMs), serExp := o.f 40 4, holdMs := o.f 44 12 }
        (succeeds (if change then trainSpare u e else u) o 0)) ∧
  ((∀ (o : Order) (s : State),
      let src := o.inst % 1024
      let rate := o.inst / 1024
      let ds := xpDests o
      let old := getXp s src
      accepted (setForm 0x4407 [0x44] 0xFFF [(0, 320)] [.prepare, .service] true) s o = true → rate ≠ 3 →
      (rate == 2 && Config.codeS) = false → src < 544 → (ds.any (fun d => decide (544 ≤ d))) = false →
      noRepeat ds = true →
      (!ds.isEmpty && (!xpFree s src src || ds.any (fun d => !xpFree s src d || d == src))) = false →
      (match old with | some x => x.rate != rate && ds.any (fun d => x.dests.contains d) | none => false) = false → ds.isEmpty = true →
      exec (.xpSet o) s =
        let was := match old with | some x => x.dests | none => []
        let gone := was.filter fun d => !ds.contains d
        let u := gone.foldl (fun u d => updLane (spoilScans u d) d (freeLane s.tb.now)) s
        let u := if old.isSome then updLane (spoilScans u src) src (freeLane s.tb.now) else u
        succeeds (setXp u src none) o 0) ∧
    (∀ (o : Order) (s : State),
      let src := o.inst % 1024
      let rate := o.inst / 1024
      let ds := xpDests o
      let old := getXp s src
      accepted (setForm 0x4407 [0x44] 0xFFF [(0, 320)] [.prepare, .service] true) s o = true → rate ≠ 3 →
      (rate == 2 && Config.codeS) = false → src < 544 → (ds.any (fun d => decide (544 ≤ d))) = false →
      noRepeat ds = true →
      (!ds.isEmpty && (!xpFree s src src || ds.any (fun d => !xpFree s src d || d == src))) = false →
      (match old with | some x => x.rate != rate && ds.any (fun d => x.dests.contains d) | none => false) = false → ds.isEmpty = false →
      exec (.xpSet o) s =
        let was := match old with | some x => x.dests | none => []
        let gone := was.filter fun d => !ds.contains d
        let u := gone.foldl (fun u d => updLane (spoilScans u d) d (freeLane s.tb.now)) s
        let u := if (getLane u src).role = 3 ∧ (getLane u src).rate = rate then u
          else updLane (spoilScans u src) src (joinXp s.tb.now 3 rate)
        let sq := match old with | some x => x.squelched || !(getLane u src).cdr | none => !(getLane u src).cdr
        let u := (ds.filter fun d => !was.contains d || (getLane s d).squelch != sq).foldl (fun u d =>
          (updLane (if was.contains d then u else spoilScans u d) d fun l =>
            { joinXp s.tb.now 4 rate l with squelch := sq }).emit (.squelch d sq)) u
        succeeds (setXp u src (some ⟨rate, ds, sq⟩)) o 0)) ∧
  (∀ (o : Order) (s : State),
      accepted (setForm 0x4408 [0x42] 0 [(0, 84)] [.prepare, .service, .probe] true) s o = true → 1 ≤ o.f 16 4 →
      o.f 16 4 ≤ 8 →
      exec (.elsXfer o) s =
        let u := s.emit (.els (elsBytes o))
        match o.data with
        | .failed | .dramError _ _ => (.next (complete u o 0x8409 0))
        | .bytes b => (succeeds u o (if o.b 7 then leNat (b.take (o.f 16 4)) else 0))
        | .held true b =>
          (succeeds ((s.emit (.elsClock 9)).emit (.els (elsBytes o))) o (if o.b 7 then leNat (b.take (o.f 16 4)) else 0))
        | .held false _ => (.next (complete (s.emit (.elsClock 9)) o 0x8409 0))
        | .later => (succeeds u.drawn o (if o.b 7 then freeBits s (8 * o.f 16 4) else 0)))

/-- Each order accepted by the checks of 02 R68 for its form, with its object existing and its values in range (Tables
5-8, 5-9, 6-11 to 6-13, 6-17): READ_PCS, READ_PM, READ_NEIGHBOUR, READ_TB, READ_LTT and READ_CERT return their
records; READ_LOG_BLOCK of a held block returns it, signed, or goes on until it is; PCS_SET writes every field of its
port; DEFECT_ACK clears the SEEN latches named whose defect is not set, and completes with SEEN; TB_SET puts its
settings in force; TB_ADJUST, where the source allows its kind, ends a slew and then sets the frequency, begins a
slew, steps DT or sets the seconds; PTP_PORT_SET and LTT_SET set their port; LOG_SET sets the region; LOG_CLOSE closes
the open block and completes with its number, or with the last closed; LOG_RELEASE of a held block releases it and
those before. READ_LTT and LTT_SET complete UNSUPPORTED on ordering code S. -/
def Obligations.OrdersOfPcsAndTimebaseTakeEffect : Prop :=
  (∀ (o : Order) (s : State),
      accepted (readForm 0x0501 [0x51] 0xFFFFFF [] 128 modesOn) s o = true → portExists s o.inst = true →
      exec (.readPcs o) s = returns s o (bytesLE 128 (pcsRecord s o.inst)) 0) ∧
  (∀ (o : Order) (s : State),
      let first := o.f 8 8
      let count := o.f 16 8
      accepted (readForm 0x0502 [0x51] 0xFFFFFF [(0, 1), (8, 16)] 64 modesOn) s o = true → portExists s o.inst = true →
      1 ≤ count → count ≤ 97 → first + count ≤ (if o.b 0 then 2 else 97) →
      exec (.readPm o) s =
        let m := (getPcs s o.inst).pm
        (returns s o (pmBytes (if o.b 0 then m.h24 else m.q15) first count) (packN [(0, 1, b2n m.unavailable), (4, 4, m.run.length)]))) ∧
  (∀ (o : Order) (s : State),
      accepted (readForm 0x0503 [0x51] 0xFFFFFF [] 64 modesOn) s o = true → portExists s o.inst = true →
      exec (.readNeighbour o) s =
        returns s o (bytesLE 64 (neighbourRecord (if isNative s o.inst then (getPcs s o.inst).nb else Neighbour.reset))) 0) ∧
  (∀ (o : Order) (s : State),
      accepted (setForm 0x4501 [0x51] 0xFFFFFF [(0, 261), (262, 24)] [.prepare, .service] true) s o = true →
      portExists s o.inst = true → pcsSetBad (pcsSetFields o (getPcsSet s o.inst) s.tb.now) = false →
      exec (.pcsSet o) s =
        let u := s.updPcs fun x =>
          { x with sets := SMap.put (fun _ => PcsSet.reset) x.sets o.inst (pcsSetFields o (getPcsSet s o.inst) s.tb.now) }
        (succeeds (refreshLoam u o.inst) o 0)) ∧
  (∀ (o : Order) (s : State),
      accepted (setForm 0x4502 [0x51] 0xFFFFFF [(0, 7)] [.prepare, .service, .coast] true) s o = true →
      portExists s o.inst = true →
      exec (.defectAck o) s =
        let u := updPcsPort s o.inst fun p => { p with seen := p.seen &&& (~~~(BitVec.ofNat 7 (o.f 0 7)) ||| p.defects) }
        (succeeds u o (getPcs u o.inst).seen.toNat)) ∧
  (∀ (o : Order) (s : State),
      accepted (readForm 0x0601 [0x61] 0 [] 64 modesOn) s o = true →
      exec (.readTb o) s = returns s o (bytesLE 64 (tbRecord s (hops s))) 0) ∧
  (∀ (o : Order) (s : State),
      accepted (readForm 0x0602 [0x62] 0xFFFFFF [] 64 modesOn) s o = true →
      portExists s o.inst = true →
      exec (.readLtt o) s =
        if Config.codeS then .next (complete s o stUnsupported 0)
        else
          returns s o (bytesLE 64 (lttRecord (getLtt s o.inst))) 0) ∧
  (∀ (o : Order) (s : State) (b : Block),
      accepted (readForm 0x0603 [0x63] 0 [(0, 64)] 262400 modesOn) s o = true → heldBlock s (o.f 0 64) = some b →
      exec (.readLogBlock o) s =
        match b.sig, o.data with
        | some _, .dramError g a =>
          .next (complete (recordError s 17 0x0A (g % 8) 1 3 (packN [(0, 3, 1), (8, 56, a)])) o stDmaError 0)
        | some sg, _ => returns s o (blockBytes b sg) s.log.epoch.toNat
        | none, _ => goesOn s 0x0603 o) ∧
  (∀ (o : Order) (s : State),
      accepted (readForm 0x0604 [0x61] 0 [] 2048 modesOn) s o = true →
      exec (.readCert o) s = returns s o (padTo 2048 Config.certificate) (min Config.certificate.length 2048)) ∧
  (∀ (o : Order) (s : State),
      accepted (setForm 0x4601 [0x61] 0 [(0, 106)] modesOn false) s o = true → o.f 0 3 ≤ 3 →
      (o.f 0 3 == 3 && Config.codeS) = false → tbSetBad (tbSetOf o) = false →
      (o.f 0 3 == 3 && !isNative s (o.f 4 9)) = false →
      exec (.tbSet o) s = succeeds (applyTbSet s (tbSetOf o)) o 0) ∧
  (∀ (o : Order) (s : State),
      let k := o.f 0 2
      let freq := signed 32 (o.f 32 32)
      let off := signed 64 (o.f 64 64)
      accepted (setForm 0x4602 [0x61] 0 [(0, 2), (32, 32), (64, 64), (128, 48)] modesOn false) s o = true →
      (k == 0 && decide (50000000 < freq.natAbs)) = false → (k == 2 && !stepFits s off) = false →
      ¬ (s.tb.set.source ≠ 0 ∧ ¬ (k = 3 ∧ s.tb.set.source = 1)) →
      exec (.tbAdjust o) s =
        let u := s.updTb fun b => { b with slew := 0, ownerSlew := false, setSec := none }
        (succeeds (match k with
          | 0 => u.updTb fun b => { b with freqPpt := freq }
          | 1 => u.updTb fun b => { b with slew := off, ownerSlew := true }
          | 2 => stepDtDue u ((u.tb.dt : Int) + off).toNat
          | _ => u.updTb fun b => { b with setSec := some (o.f 128 48, b.dt / dtSec) }) o 0)) ∧
  (∀ (o : Order) (s : State),
      accepted (setForm 0x4603 [0x62] 0xFFFFFF [(0, 44)] modesOn false) s o = true → o.f 0 2 ≠ 3 →
      portExists s o.inst = true → 1 ≤ o.f 4 8 →
      exec (.ptpPortSet o) s =
        let q : PtpPort := ⟨o.f 0 2, o.b 2, o.b 3, o.f 4 8, signed 32 (o.f 12 32)⟩
        (succeeds (requalify (s.updTb fun b =>
          { b with ptp := SMap.put (fun _ => PtpPort.reset) b.ptp o.inst q,
                   ptpRun := if q.role = 1 then b.ptpRun else b.ptpRun.filter fun kv => kv.1 != o.inst,
                   ptpOut := if q.role = 0 then b.ptpOut.filter (fun m => m.port != o.inst) else b.ptpOut })) o 0)) ∧
  (∀ (o : Order) (s : State),
      accepted (setForm 0x4604 [0x62] 0xFFFFFF [(0, 33)] modesOn false) s o = true →
      portExists s o.inst = true → isNative s o.inst = true →
      exec (.lttSet o) s =
        if Config.codeS then .next (complete s o stUnsupported 0)
        else
          succeeds (updLtt s o.inst fun l => { l with enable := o.b 0, asym := signed 32 (o.f 1 32) }) o 0) ∧
  (∀ (o : Order) (s : State),
      accepted (setForm 0x4605 [0x63] 0 [(0, 32)] modesOn false) s o = true → 16 ≤ o.f 0 15 → o.f 0 15 ≤ 16383 →
      10 ≤ o.f 16 16 → o.f 16 16 ≤ 60000 →
      exec (.logSet o) s =
        succeeds (s.updLog fun l => { l with slots := o.f 0 15, retain := o.b 15, closeMs := o.f 16 16 }) o 0) ∧
  (∀ (o : Order) (s : State),
      accepted (setForm 0x4606 [0x63] 0 [] modesOn false) s o = true →
      exec (.logClose o) s =
        match s.log.fill with
        | some f => (succeeds (closeBlock s 3) o f.number)
        | none => (succeeds s o (lastClosed s.log))) ∧
  (∀ (o : Order) (s : State),
      accepted (setForm 0x4607 [0x63] 0 [(0, 64)] modesOn false) s o = true → (heldBlock s (o.f 0 64)).isSome = true →
      exec (.logRelease o) s =
        succeeds (logSpace (s.updLog fun l => { l with released := max l.released (o.f 0 64 + 1) })) o 0)

/-- Each order accepted by the checks of 02 R68 for its form, with the version it names open (R239), its object existing
and its values in range: the reads return their words for the version they name; PARSER_SET, PORT_PARSE_SET and
STAGE_SET write the version's contents of one element, with the running sums moved by its element hash, and note the
divergence of a direct write; STAGE_OPEN opens the next version in a free slot; COMMIT, whose expected fingerprint is
the staged one and whose bank is ready, makes a commit pending at AT_DT or 2 us from now and goes on; STAGE_DISCARD
undoes the staged version; HOSTMAP_SET, SPRAY_SET and MCAST_SET replace their settings (the replicated count kept);
SPRAY_GROUP_SET changes nothing when nothing changes, else begins a new epoch, with a marker queued for each member
that carried, and goes on until they are sent; DEAL_SET sets a slice's exclusions and timeout and, where a lathe is
newly excluded, queues a drain marker for it and goes on. -/
def Obligations.OrdersOfParsingTakeEffect : Prop :=
  (∀ (o : Order) (s : State),
      accepted (readForm 0x0701 [0x74] 0 [] 128 modesOn) s o = true →
      exec (.readVersions o) s = returns s o (bytesLE 128 (versionsRecord s)) 0) ∧
  (∀ (o : Order) (s : State),
      accepted (readForm 0x0702 [0x71] 0x8000FF [] 64 modesOn) s o = true →
      exec (.readParser o) s = returns s o (bytesLE 64 (parserWord s (o.inst % 256) (readSeq s o)).toNat) 0) ∧
  (∀ (o : Order) (s : State),
      accepted (readForm 0x0703 [0x73] 0x80001F [] 128 modesOn) s o = true → o.inst % 32 ≤ 23 →
      exec (.readStage o) s = returns s o (bytesLE 128 (stageWord s (o.inst % 32) (readSeq s o)).toNat) 0) ∧
  (∀ (o : Order) (s : State),
      let d := directBit o
      let n := o.inst % 256
      accepted (setForm 0x4701 [0x71] 0x8000FF parserFields modesSet true) s o = true → versionCheck s d = none →
      parserBad o.payload = false →
      exec (.parserSet o) s =
        let u := contentsFp s (parserC s n) d (parserElement n) parserReset o.payload
        let c := writeContents s (parserC s n) d o.payload
        (succeeds (directDone (u.updVer fun x => { x with parser := SMap.put (fun _ => []) x.parser n c }) d) o 0)) ∧
  (∀ (o : Order) (s : State),
      let d := directBit o
      let n := o.inst % 512
      let w := BitVec.ofNat 19 (o.f 0 19)
      accepted (setForm 0x4702 [0x72] 0x8001FF [(0, 19)] modesSet true) s o = true → versionCheck s d = none →
      o.f 0 9 ≤ 0x101 → o.f 9 9 ≤ 0x101 →
      exec (.portParseSet o) s =
        let u := contentsFp s (profileC s n) d (profileElement n) profileReset w
        let c := writeContents s (profileC s n) d w
        (succeeds (directDone (u.updVer fun x => { x with profile := SMap.put (fun _ => []) x.profile n c }) d) o 0)) ∧
  (∀ (o : Order) (s : State) (bs : List Byte),
      let d := directBit o
      let n := o.inst % 32
      let word := fun (bs : List Byte) => BitVec.ofNat 1024 (leNat (padTo 128 bs))
      accepted (ptrForm 0x4703 [0x73] 0x80001F modesSet true) s o = true → ptrLen o = 128 → versionCheck s d = none →
      n ≤ 23 → payloadHere s o bs = true → onlyFields (word bs).toNat stageFields = true →
      stageBad s n (targetSeq s d) (word bs) = false →
      exec (.stageSet o) s =
        let u := contentsFp s (stageC s n) d (stageElement n) 0 (word bs)
        let c := writeContents s (stageC s n) d (word bs)
        (succeeds (directDone (u.updVer fun x => { x with stages := SMap.put (fun _ => []) x.stages n c }) d) o 0)) ∧
  (∀ (o : Order) (s : State),
      accepted (setForm 0x4704 [0x74] 0 [] modesSet true) s o = true → (stagedSeq s).isSome = false →
      (slotIn s 0).isSome = true →
      exec (.stageOpen o) s =
        let a := activeSeq s
        let i := s.ver.slots.findIdx fun v => v.state == 0
        (succeeds (s.updVer fun x => { x with slots := x.slots.set i ⟨1, a + 1, 0, bankSel s a, 0⟩, stagedFp := s.fp.active }) o (verNum (a + 1)))) ∧
  (∀ (o : Order) (s : State),
      accepted (setForm 0x4705 [0x74] 0 [(0, 227)] modesSet true) s o = true →
      (o.b 128 = true → dtOk (o.f 129 96) = true ∧ dtCount (o.f 129 96) ≤ s.tb.dt + dtSec) → (stagedSeq s).isSome = true →
      s.ver.pend = none → stagedFingerprint s (commitBank s o) = BitVec.ofNat 128 (o.f 0 128) →
      (∀ b, commitBank s o = some b → (bankOf s b).state = 2) →
      exec (.commit o) s =
        let early := s.tb.dt + 2 * dtUs
        let tc := if o.b 128 then max (dtCount (o.f 129 96)) early else early
        goesOn (s.updVer fun x =>
          { x with pend := some ⟨tc, o.b 128 && tc != dtCount (o.f 129 96), commitBank s o, BitVec.ofNat 128 (o.f 0 128)⟩, commitDt := tc })
          0x4705 o) ∧
  (∀ (o : Order) (s : State),
      accepted (setForm 0x4706 [0x74] 0 [] modesSet true) s o = true → (stagedSeq s).isSome = true →
      s.ver.pend.isSome = false →
      exec (.stageDiscard o) s = succeeds (dropStage s) o (verNum ((stagedSeq s).getD 0))) ∧
  (∀ (o : Order) (s : State),
      accepted (readForm 0x0704 [0x75] 0x3F [] 0 modesOn) s o = true →
      exec (.readHostmap o) s =
        let h := getHostMap s o.inst
        (succeeds s o (packN [(0, 2, h.master), (2, 8, h.ring), (10, 1, b2n h.enable), (32, 32, h.discards.toNat)]))) ∧
  (∀ (o : Order) (s : State),
      accepted (setForm 0x4707 [0x75] 0x3F [(0, 11)] modesSet true) s o = true → o.f 0 2 ≠ 3 →
      exec (.hostmapSet o) s = succeeds (putHostMap s o.inst ⟨o.f 0 2, o.f 2 8, o.b 10, 0⟩) o 0) ∧
  (∀ (o : Order) (s : State),
      accepted (readForm 0x0705 [0x77] 0 [] 0 modesOn) s o = true →
      exec (.readSprayRx o) s = succeeds s o (packN [(0, 17, s.fwd.ctxs.length), (32, 32, s.fwd.noContext.toNat)])) ∧
  (∀ (o : Order) (s : State),
      accepted (setForm 0x4709 [0x77] 0 [(0, 45)] modesSet true) s o = true → o.f 17 12 ≠ 0 → 10 ≤ o.f 29 16 →
      exec (.spraySet o) s =
        succeeds (s.updFwd fun w => { w with spraySet := ⟨o.f 0 16, o.b 16, o.f 17 12, o.f 29 16⟩ }) o 0) ∧
  ((∀ (o : Order) (s : State),
      let ms := sprayMembers o
      let fields := (0, 6) :: (List.range (min 16 (o.f 0 5))).map fun m => (6 + 9 * m, 9)
      accepted (setForm 0x470A [0x78] 0x3F [(0, 150)] modesSet true) s o = true →
      (decide (o.f 0 5 ≤ 16) && !onlyFields o.payload.toNat fields) = false → o.f 0 5 ≤ 16 →
      ms.length ≤ ms.eraseDups.length → (ms.any (fun n => !portExists s n)) = false →
      (getGroup s o.inst).waits = false → (getGroup s o.inst).members = ms ∧ (getGroup s o.inst).mode = o.b 5 →
      exec (.sprayGroupSet o) s = succeeds s o ((getGroup s o.inst).epoch % 16)) ∧
    (∀ (o : Order) (s : State),
      let ms := sprayMembers o
      let fields := (0, 6) :: (List.range (min 16 (o.f 0 5))).map fun m => (6 + 9 * m, 9)
      accepted (setForm 0x470A [0x78] 0x3F [(0, 150)] modesSet true) s o = true →
      (decide (o.f 0 5 ≤ 16) && !onlyFields o.payload.toNat fields) = false → o.f 0 5 ≤ 16 →
      ms.length ≤ ms.eraseDups.length → (ms.any (fun n => !portExists s n)) = false →
      (getGroup s o.inst).waits = false → ¬ ((getGroup s o.inst).members = ms ∧ (getGroup s o.inst).mode = o.b 5) →
      exec (.sprayGroupSet o) s =
        let x := getGroup s o.inst
        let n := x.carried.length
        let t1 := updGroup s o.inst fun y =>
          { y with mode := o.b 5, members := ms, epoch := (y.epoch + 1) % 16, last := 15, carried := [], markers := n, waits := n != 0 }
        let t2 := x.carried.foldl (queueMarker o.inst n x.epoch) t1
        if n = 0 then succeeds t2 o ((x.epoch + 1) % 16) else goesOn t2 0x470A o)) ∧
  (∀ (o : Order) (s : State),
      accepted (readForm 0x0706 [0x79] 0xFFF [] 128 modesOn) s o = true →
      exec (.readMcast o) s =
        let x := SMap.get (fun _ => Mcast.reset) s.fwd.mcast o.inst
        (returns s o (bytesLE 128 (mcastWord x)) x.replicated.toNat)) ∧
  (∀ (o : Order) (s : State) (bs : List Byte),
      accepted (ptrForm 0x470B [0x79] 0xFFF modesSet true) s o = true → ptrLen o = 128 → payloadHere s o bs = true →
      onlyFields (leNat (padTo 128 bs)) [(0, 7), (512, 512)] = true →
      exec (.mcastSet o) s =
        let w := leNat (padTo 128 bs)
        let f := fun i => decide (nfld w i 1 = 1)
        (succeeds (s.updFwd fun x => { x with mcast := SMap.upd (fun _ => Mcast.reset) x.mcast o.inst fun y => ⟨f 0, f 1, f 2, nfld w 3 4, BitVec.ofNat 512 (w / 2 ^ 512), y.replicated⟩ }) o 0)) ∧
  (∀ (o : Order) (s : State),
      accepted (setForm 0x4708 [0x76] 0x1F [(0, 6), (8, 12)] modesSet true) s o = true → o.f 8 12 ≠ 0 →
      exec (.dealSet o) s =
        let k := o.inst
        let old := (getSlice s k).exclude
        let new := BitVec.ofNat 6 (o.f 0 6)
        let fresh := ((List.range 6).filter fun i => bit new i && !bit old i).map fun i => 6 * k + i
        let s := updSlice s k fun x =>
          { x with exclude := new, timeoutUs := o.f 8 12, dealWaits := if fresh.isEmpty then x.dealWaits else x.dealWaits ++ [⟨fresh, o⟩] }
        if fresh.isEmpty then (succeeds s o 0) else (goesOn (fresh.foldl (fun u n => pushItem u n .marker) s) 0x4708 o))

/-- Each order accepted by the checks of 02 R68 for its form, with its table and version there and its values in range:
READ_TABLES returns its record; EM_LOOKUP and LPM_LOOKUP complete with the entry that the version they name sees, or
with NOT_FOUND (with a free answer once the tables' contents are lost in HALT, log entry 1); TABLE_DUMP within its memory (READ_HITS only by the owner) begins a dump; TABLE_DEF of a table not in
use writes its definition for the target version; EM_WRITE, LPM_WRITE, ACL_WRITE and ACTION_WRITE whose write finds
its place complete with its number of moves in the state it leaves; TABLE_BULK carries out its records in order and
completes with their number, or with the status of the first that fails and the number before it; LEARN_SET and
AGE_SET set their settings; SHADOW_SET removes the shadow, or begins to fill one, with the old one lost; FLUSH_LEARNED
drops the table's queued learn requests and begins the flush. -/
def Obligations.OrdersOfTablesTakeEffect : Prop :=
  (∀ (o : Order) (s : State),
      accepted (readForm 0x0801 [0x85] 0 [] 128 modesOn) s o = true →
      exec (.readTables o) s = returns (drawGone s) o (bytesLE 128 (tablesRecord s)) 0) ∧
  (∀ (o : Order) (s : State),
      let v := readSeq s o
      let table := o.inst % 16
      accepted (readForm 0x0802 [0x81] 0x80000F [(16, 128)] 0 modesOn) s o = true → tableExists s 1 table v = true →
      keyFits 128 (tableKeyBits s 1 table v) (o.f 16 128) = true →
      exec (.emLookup o) s =
        let found := (emLookup s table v (BitVec.ofNat 128 (o.f 16 128))).map fun x => x.2.ad.toNat
        let n := freeNat s
        match (if s.tbl.gone then (if n % 2 = 0 then none else some (n / 2 % 2 ^ 64)) else found) with
        | some d => (succeeds (maintain (drawGone s) 1) o d)
        | none => (.next (complete (maintain (drawGone s) 1) o 0x0801 0))) ∧
  (∀ (o : Order) (s : State),
      let v := readSeq s o
      let table := o.inst % 8
      accepted (readForm 0x0803 [0x82] 0x800007 [(32, 128)] 0 modesOn) s o = true → tableExists s 2 table v = true →
      exec (.lpmLookup o) s =
        let found := (lpmFind s table v (tableIpv6 s table v) (BitVec.ofNat 128 (o.f 32 128))).map fun e =>
          packN [(0, 21, e.action), (21, 8, e.len)]
        let n := freeNat s
        match (if s.tbl.gone then (if n % 2 = 0 then none else some (n / 2 % 2 ^ 29)) else found) with
        | some d => (succeeds (maintain (drawGone s) 1) o d)
        | none => (.next (complete (maintain (drawGone s) 1) o 0x0801 0))) ∧
  (∀ (o : Order) (s : State),
      let mem := o.f 0 2
      let n := o.f 26 23
      accepted (readForm 0x0804 [0x85] 0 [(0, 49)] 64 modesOn) s o = true →
      (o.b 2 && s.own.owner != some o.master) = false → 1 ≤ n → n ≤ 4194304 → o.f 3 23 + n ≤ memLocations mem →
      exec (.tableDump o) s =
        goesOn (s.updTbl fun x => { x with dumps := x.dumps ++ [⟨mem, o.b 2, s.tb.now, o⟩] }) 0x0804 o) ∧
  (∀ (o : Order) (s : State),
      let d := directBit o
      let m := o.kind - 0x80
      let table := if m = 3 then nfld o.inst 16 4 else if m = 2 then o.inst % 8 else o.inst % 16
      let mask := if m = 3 then 0x8F0000 else if m = 2 then 0x800007 else 0x80000F
      let k := 16 * m + table
      let w := BitVec.ofNat 36 (o.f 0 36)
      accepted (setForm 0x4801 [0x81, 0x82, 0x83] 0x8FFFFF [(0, 36)] modesSet true) s o = true →
      (o.inst &&& mask != o.inst) = false → versionCheck s d = none → tableDefBad m w = false →
      tableInUse s m table = false →
      exec (.tableDef o) s =
        let u := contentsFp s (defC s k) d (defElement k) 0 w
        let n := writeContents s (defC s k) d w
        (succeeds (directDone (u.updVer fun x => { x with defs := SMap.put (fun _ => []) x.defs k n }) d) o 0)) ∧
  (∀ (o : Order) (s t : State) (m : Nat),
      let w := emOrder s o.inst o.payload.toNat
      accepted (setForm 0x4802 [0x81] 0x80000F [(0, 2), (16, 192)] modesSet true) s o = true → w.malformed = false →
      w.version = none → w.badObject = false → w.badArgument = false → w.run = .ok (t, m) →
      exec (.emWrite o) s = succeeds t o m) ∧
  (∀ (o : Order) (s t : State) (m : Nat),
      let w := lpmOrder s o.inst o.payload.toNat
      accepted (setForm 0x4803 [0x82] 0x800007 [(0, 10), (32, 149)] modesSet true) s o = true → w.malformed = false →
      w.version = none → w.badObject = false → w.badArgument = false → w.run = .ok (t, m) →
      exec (.lpmWrite o) s = succeeds t o m) ∧
  (∀ (o : Order) (s t : State) (bs : List Byte) (m : Nat),
      let w := aclOrder s o.inst bs
      accepted (ptrForm 0x4804 [0x83] 0x8FFFFF modesSet true) s o = true → ptrLen o = 192 → payloadHere s o bs = true →
      versionCheck s (directBit o) = none → tableExists s 3 (nfld o.inst 16 4) (targetSeq s (directBit o)) = true →
      w.malformed = false → w.version = none → w.badObject = false → w.badArgument = false → w.run = .ok (t, m) →
      exec (.aclWrite o) s = succeeds t o m) ∧
  (∀ (o : Order) (s t : State) (m : Nat),
      let w := actOrder s o.inst o.payload.toNat
      accepted (setForm 0x4805 [0x84] 0x800000 [(0, 23), (64, 192)] modesSet true) s o = true → w.malformed = false →
      w.version = none → w.badObject = false → w.badArgument = false → w.run = .ok (t, m) →
      exec (.actionWrite o) s = succeeds t o m) ∧
  (∀ (o : Order) (s : State) (bs : List Byte),
      accepted (ptrForm 0x4806 [0x85] 0 modesSet true) s o = true → payloadHere s o bs = true →
      exec (.tableBulk o) s =
        let r := bulkRun (ptrLen o / 64) (padTo (ptrLen o) bs) s 0
        match r.2.2 with
        | none => (succeeds r.1 o (packN [(0, 32, r.2.1)]))
        | some e => (.next (complete r.1 o e (packN [(0, 32, r.2.1), (32, 16, r.2.1)])))) ∧
  (∀ (o : Order) (s : State),
      accepted (setForm 0x4807 [0x81] 0xF [(0, 68)] [.prepare, .service, .coast] true) s o = true →
      exec (.learnSet o) s =
        let l : LearnSet := ⟨o.b 0, o.b 1, o.b 2, o.b 3, BitVec.ofNat 64 (o.f 4 64)⟩
        (succeeds (s.updTbl fun x => { x with learn := SMap.put (fun _ => LearnSet.reset) x.learn o.inst l }) o 0)) ∧
  (∀ (o : Order) (s : State),
      accepted (setForm 0x4808 [0x85] 0 [(0, 20)] modesSet true) s o = true → 100 ≤ o.f 0 20 → o.f 0 20 ≤ 1000000 →
      exec (.ageSet o) s = succeeds (s.updTbl fun x => { x with agePeriod := o.f 0 20 }) o 0) ∧
  (∀ (o : Order) (s : State),
      let p := o.f 0 2
      accepted (setForm 0x4809 [0x85] 0 [(0, 2), (76, 52)] modesSet true) s o = true → p ≠ 2 →
      exec (.shadowSet o) s =
        if p = 3 then
          (succeeds (if s.tbl.shadow = .valid ∨ s.tbl.shadow = .filling then shadowLost s 3 else s) o 0)
        else
          let u := if s.tbl.shadow = .filling then shadowLost s 3 else s
          (goesOn (u.updTbl fun x => { x with shadow := .filling, shadowPort := p, shadowAddr := o.f 64 64 }) 0x4809 o)) ∧
  (∀ (o : Order) (s : State),
      accepted (setForm 0x480A [0x81] 0xF [(0, 10)] [.prepare, .service, .coast] true) s o = true →
      exec (.flushLearned o) s =
        goesOn (s.updTbl fun x =>
          { x with learnQ := x.learnQ.filter fun q => q.table != o.inst, flushes := x.flushes ++ [⟨o.inst, if o.b 0 then some (o.f 1 9) else none, o⟩] }) 0x480A o)

/-- Each order accepted by the checks of 02 R68 for its form: READ_BUFFER and READ_QUEUE return their records and READ_PG
completes with its word; POOL_SET in PREPARE, with at most 256 units in each pool and in all, and no billet allocated,
sets the pools, all free; QUEUE_ADMIT_SET of an alpha that is not reserved sets its queue; PG_SET with XON not above
XOFF sets its priority group, and ends a pause it had where it is no longer lossless; DRAM_SET of a capture region
that fits beside the log and the overflow region's least size sets it, and completes with the overflow region it
leaves. -/
def Obligations.OrdersOfBufferTakeEffect : Prop :=
  (∀ (o : Order) (s : State),
      accepted (readForm 0x0901 [0x91] 0 [] 128 modesOn) s o = true →
      exec (.readBuffer o) s = returns s o (bytesLE 128 (bufferWord s)) 0) ∧
  (∀ (o : Order) (s : State),
      accepted (readForm 0x0902 [0x92] 0x1FFF [] 64 modesOn) s o = true →
      exec (.readQueue o) s = returns s o (bytesLE 64 (queueWord s o.inst)) 0) ∧
  (∀ (o : Order) (s : State),
      accepted (readForm 0x0903 [0x93] 0xFFF [] 0 modesOn) s o = true →
      exec (.readPg o) s =
        let g := getPg s o.inst
        (succeeds s o (packN [(0, 29, g.occ), (29, 1, b2n g.paused), (32, 32, g.drops.toNat)]))) ∧
  (∀ (o : Order) (s : State),
      let g := [0, 1, 2, 3].map fun p => o.f (9 * p) 9
      accepted (setForm 0x4901 [0x91] 0 [(0, 36)] [.prepare] true) s o = true →
      (g.any fun x => decide (256 < x)) = false → s.buf.busy.isEmpty = true → sumN g ≤ 256 →
      exec (.poolSet o) s = succeeds (s.updBuf fun b => { b with g := g, recs := [], low := [] }) o 0) ∧
  (∀ (o : Order) (s : State),
      let a := o.f 16 4
      accepted (setForm 0x4902 [0x92] 0x1FFF [(0, 37)] modesSet true) s o = true →
      (decide (10 ≤ a) && decide (a ≤ 14)) = false →
      exec (.queueAdmitSet o) s =
        succeeds (updQueue s o.inst fun x =>
          { x with minKib := o.f 0 16, alpha := a, ovfEn := o.b 20, ovfLimitMib := o.f 21 16 }) o 0) ∧
  (∀ (o : Order) (s : State),
      accepted (setForm 0x4903 [0x93] 0xFFF [(0, 49)] modesSet true) s o = true → o.f 17 16 ≤ o.f 1 16 →
      exec (.pgSet o) s =
        let s := updPg s o.inst fun g =>
          { g with lossless := o.b 0, xoffKib := o.f 1 16, xonKib := o.f 17 16, headKib := o.f 33 16 }
        (succeeds (if !o.b 0 && (getPg s o.inst).paused then pfcTry (pgPause s o.inst false) (o.inst / 8) else s) o 0)) ∧
  (∀ (o : Order) (s : State),
      let cap := o.f 0 15
      accepted (setForm 0x4904 [0x91] 0 [(0, 15)] modesSet true) s o = true → cap ≤ 27584 →
      s.log.slots * 260 + (cap + 1024) * 1024 ≤ 32768 * 1024 →
      exec (.dramSet o) s = succeeds (s.updBuf fun b => { b with capMib := cap }) o (overflowMib s.log.slots cap))

/-- Each order accepted by the checks of 02 R68 for its form, its object existing and its values in range: READ_LATHE,
READ_BANK, SHM_READ and READ_CONTROL_STORE return their records (a shared-memory word marked for its upset reads as a
free value, log entry 1); IMAGE_LOAD of a valid image for the device's microcode into a bank not in use completes at
once where the bank holds that image ready, or marks the bank loading, its element withdrawn, and goes on; BANK_CLEAR
of a bank not in use empties it; SHM_WRITE stores its words; LATHE_ISOLATE isolates a lathe that is not, dropping its
packet with cause 0xA5; LATHE_RESTORE of an isolated lathe begins its self-test and goes on; MICROCODE_RELOAD begins
the reload of a group that is not being reloaded; MANDREL_TEST in PROBE completes with the computed and the fused
signature, and SUCCESS only where the test passed (its operand) and the two agree; CS_INJECT in PROBE flips the bits
named and completes at once where the word reads good or the lathe is or becomes isolated, else goes on to the
recovery. -/
def Obligations.OrdersOfLathesTakeEffect : Prop :=
  (∀ (o : Order) (s : State),
      accepted (readForm 0x0A01 [0xA1] 0xFF [] 128 modesOn) s o = true → o.inst < 192 →
      exec (.readLathe o) s = returns s o (bytesLE 128 (latheRecord (getLathe s o.inst))) 0) ∧
  (∀ (o : Order) (s : State),
      accepted (readForm 0x0A02 [0xA2] 1 [] 128 modesOn) s o = true →
      exec (.readBank o) s = returns s o (bytesLE 128 (bankRecord s (orderBank o))) 0) ∧
  (∀ (o : Order) (s : State),
      let a := o.f 0 21
      let n := o.f 21 11
      accepted (readForm 0x0A03 [0xA3] 0x1F [(0, 32)] 64 modesOn) s o = true → a % 64 = 0 → n ≠ 0 → n ≤ 1024 →
      a + 64 * n ≤ 2 ^ 21 →
      exec (.shmRead o) s =
        let word := fun w => if s.lat.badShm.contains (2 ^ 18 * o.inst + w) then Config.freeValue (s.freeCtr + w) % 2 ^ 64
          else (shmWord s o.inst w).toNat
        (returns ((List.range (8 * n)).foldl (fun u _ => u.drawn) (shmPort s o.inst a (8 * n))) o ((List.range (8 * n)).flatMap fun i => bytesLE 8 (word (a / 8 + i))) 0)) ∧
  (∀ (o : Order) (s : State),
      let first := o.f 1 13
      let n := o.f 14 14
      let mandrel := o.b 28
      accepted (readForm 0x0A04 [0xA1] 0xFF [(0, 29)] 64 modesOn) s o = true → o.inst < 192 → n ≠ 0 → n ≤ 8192 →
      first + n ≤ (if mandrel then 1024 else 8192) →
      exec (.readControlStore o) s =
        let l := getLathe s o.inst
        (returns ((List.range n).foldl (fun u _ => u.drawn) s) o ((List.range n).flatMap fun i =>
            bytesLE 8 (if mandrel then mandrelRecord (first + i) else microRecord s l (o.b 0) (first + i))) 0)) ∧
  (∀ (o : Order) (s : State) (bs : List Byte),
      let b := orderBank o
      accepted (ptrForm 0x4A01 [0xA2] 1 modesSet true) s o = true → payloadHere s o bs = true →
      imageInvalid bs = false → beNat (slice bs 16 32) = Config.microcodeDigest.toNat → bankInUse s b = false →
      exec (.imageLoad o) s =
        if bankDigest s b = imageDigest bs ∧ (bankOf s b).state = 2 then (.next (complete s o 0x0A01 (leNat ((bytesBE 32 (imageDigest bs).toNat).take 8))))
        else
          let old := bankDigest s b
          (goesOn (postBank (bankElementChange (updBank s b fun x => { x with state := 1 }) b old 0) b 1) 0x4A01 o)) ∧
  (∀ (o : Order) (s : State),
      let b := orderBank o
      accepted (setForm 0x4A02 [0xA2] 1 [] modesSet true) s o = true → bankInUse s b = false →
      exec (.bankClear o) s =
        succeeds (postBank (updBank (bankElementChange s b (bankDigest s b) 0) b fun _ => Bank.reset) b 0) o 0) ∧
  (∀ (o : Order) (s : State) (bs : List Byte),
      let h := leNat (slice bs 0 64)
      accepted (ptrForm 0x4A03 [0xA3] 0x1F modesSet true) s o = true → payloadHere s o bs = true →
      onlyFields h [(0, 21)] = true → h % 64 = 0 → h + (bs.length - 64) ≤ 2 ^ 21 →
      exec (.shmWrite o) s =
        let a := leNat (slice bs 0 64)
        (succeeds (putShmWords o.inst (shmPort s o.inst a ((bs.length - 64) / 8)) (a / 8) ((List.range ((bs.length - 64) / 8)).map fun i =>
          BitVec.ofNat 64 (leNat (slice bs (64 + 8 * i) 8)))) o 0)) ∧
  (∀ (o : Order) (s : State),
      accepted (setForm 0x4A04 [0xA1] 0xFF [] modesSet true) s o = true → o.inst < 192 → (getLathe s o.inst).iso = 0 →
      exec (.latheIsolate o) s = succeeds (isolateLathe (latheDrop s o.inst 0xA5) o.inst 3) o 0) ∧
  (∀ (o : Order) (s : State),
      accepted (setForm 0x4A05 [0xA1] 0xFF [] modesSet true) s o = true → o.inst < 192 → (getLathe s o.inst).iso ≠ 0 →
      exec (.latheRestore o) s = goesOn (updLathe s o.inst fun l => { l with testing := true }) 0x4A05 o) ∧
  (∀ (o : Order) (s : State),
      accepted (setForm 0x4A06 [0xA4] 0x1F [] modesSet true) s o = true → (getSlice s o.inst).reload.isSome = false →
      exec (.microcodeReload o) s = goesOn (beginReload s o.inst false (some o)) 0x4A06 o) ∧
  (∀ (o : Order) (res : Nat) (s : State),
      accepted (setForm 0x4A07 [0xA1] 0xFF [] [.probe] false) s o = true → o.inst < 192 →
      exec (.mandrelTest o res) s =
        let d := packN [(0, 32, mandrelSignature.toNat), (32, 32, Config.fusedSignature.toNat)]
        (.next (complete (if res = 2 then testCheck s o.inst else s) o
          (if res = 0 ∧ mandrelSignature = Config.fusedSignature then stSuccess else 0x8A06) d))) ∧
  (∀ (o : Order) (s : State),
      accepted (setForm 0x4A08 [0xA1] 0xFF [(0, 18)] [.probe] false) s o = true → o.inst < 192 →
      exec (.csInject o) s =
        let k := o.inst
        let key := 8192 * b2n (o.b 0) + o.f 1 13
        let s := updLathe s k fun l =>
          { l with flips := SMap.upd (fun _ => 0) l.flips key fun x => x ^^^ BitVec.ofNat 4 (o.f 14 4) }
        if SMap.get (fun _ => (0 : BitVec 4)) (getLathe s k).flips key = 0 then (succeeds s o 0)
        else if (getLathe s k).iso ≠ 0 then (succeeds s o 3)
        else
          let u := machineCheck s k 1 (o.b 0) (o.f 1 13)
          if (getLathe u k).iso ≠ 0 then (succeeds u o 3) else (goesOn u 0x4A08 o))

/-- Each order accepted by the checks of 02 R68 for its form with its values in range: READ_SCHED and READ_GCL take over a
list that is due and return their records, READ_SHAPER its shaper's with the tokens of now; QUEUE_SCHED_SET sets its
queue; SHAPER_SET replaces its shaper, its tokens full or empty; GCL_SET of a good list makes it the port's pending
list, taking over at AT_DT or, where that is not given or comes too soon, at the first cycle boundary at least 2 us
after the order was accepted, and completes with that instant; GCL_CANCEL of a port with a pending list removes it;
PFC_SET sets the port, ends a pause received for priorities no longer received, and sends what has changed; ESC_SET
sets the port's ladder, its queues distinct, with tags only on a native port; STORM_RESTORE of a queue in the storm
state ends that state. -/
def Obligations.OrdersOfEgressTakeEffect : Prop :=
  (∀ (o : Order) (s : State),
      accepted (readForm 0x0B01 [0xB1] 0x1FF [] 128 modesOn) s o = true →
      exec (.readSched o) s =
        let s := takeover s o.inst
        (returns s o (bytesLE 128 (schedWord s o.inst)) 0)) ∧
  (∀ (o : Order) (s : State),
      accepted (readForm 0x0B02 [0xB1] 0x1FF [(0, 1)] 2112 modesOn) s o = true →
      exec (.readGcl o) s =
        let s := takeover s o.inst
        let g := if o.b 0 then getPend s o.inst else gating_ s o.inst
        (returns s o (padTo 2112 (match g with | some x => x.payload | none => bytesLE 8 512)) 0)) ∧
  (∀ (o : Order) (s : State),
      accepted (readForm 0x0B03 [0xB3] 0x3FFF [] 64 modesOn) s o = true → o.inst < 8704 →
      exec (.readShaper o) s =
        let x := getShaper s o.inst
        (returns s o (bytesLE 64 (packN [(0, 320, shaperWord x), (320, 32, unsigned 32 (sat32 (tokensAt x s.tb.now / 8000)))])) 0)) ∧
  (∀ (o : Order) (s : State),
      accepted (setForm 0x4B01 [0xB2] 0x1FFF [(0, 12)] modesSet true) s o = true → o.f 4 8 ≠ 0 →
      exec (.queueSchedSet o) s = succeeds (updQs s o.inst fun q => { q with prio := o.f 0 4, weight := o.f 4 8 }) o 0) ∧
  (∀ (o : Order) (s : State),
      let burst := o.f 24 24
      let ovh := signed 8 (o.f 48 8)
      accepted (setForm 0x4B02 [0xB3] 0x3FFF [(0, 56)] modesSet true) s o = true → o.inst < 8704 →
      (o.b 0 && (decide (o.f 2 22 = 0) || decide (3200000 < o.f 2 22))) = false → 64 ≤ burst → -64 ≤ ovh →
      exec (.shaperSet o) s =
        let x : Shaper :=
          { enable := o.b 0, resetFull := o.b 1, rate := o.f 2 22, burst := burst, overhead := ovh, tokens := if o.b 1 then (burst : Int) * 8000 else 0, since := s.tb.now }
        (succeeds (s.updEgr fun e => { e with shapers := SMap.put (fun _ => Shaper.reset) e.shapers o.inst x }) o 0)) ∧
  (∀ (o : Order) (s : State) (bs : List Byte),
      let acc := acceptDt s o
      accepted (ptrForm 0x4B03 [0xB1] 0x1FF modesSet true) s o = true → (o.ptr && decide (2112 < ptrLen o)) = false →
      payloadHere s o bs = true → (gclChecks o acc bs).pass = true →
      exec (.gclSet o) s =
        let s := takeover s o.inst
        let h := leNat (slice bs 0 64)
        let lo := acc + 2 * dtUs
        let valid := decide (nfld h 10 1 = 1)
        let at_ := dtCount (nfld h 64 96)
        let when_ := if valid && decide (lo ≤ at_) then at_ else cycleBoundary s o.inst lo
        let moved := valid && decide (at_ < lo)
        let g : Gcl :=
          { payload := bs, disable := decide (nfld h 9 1 = 1), entries := gclEntries bs (nfld h 0 9), cycleNs := nfld h 16 30, takeover := when_, moved := moved }
        (.next (complete (setPend s o.inst (some g)) o (if moved then 0x0B01 else stSuccess) (packN [(0, 32, fld (dtWord when_) 16 32), (32, 32, fld (dtWord when_) 48 32)])))) ∧
  (∀ (o : Order) (s : State),
      accepted (setForm 0x4B04 [0xB1] 0x1FF [] modesSet true) s o = true →
      (getPend (takeover s o.inst) o.inst).isSome = true →
      exec (.gclCancel o) s = succeeds (setPend (takeover s o.inst) o.inst none) o 0) ∧
  (∀ (o : Order) (s : State),
      let wd := o.f 33 20
      let rst := o.f 53 16
      accepted (setForm 0x4B05 [0xB1] 0x1FF [(0, 69)] modesSet true) s o = true → o.f 16 16 ≠ 0 → 100 ≤ wd →
      wd ≤ 1000000 → 10 ≤ rst → rst ≤ 60000 →
      exec (.pfcSet o) s =
        let n := o.inst
        let old := getPfc s n
        let rx := BitVec.ofNat 8 (o.f 0 8)
        let tx := BitVec.ofNat 8 (o.f 8 8)
        let s := (List.range 8).foldl (fun u g => if bit old.rxEn g && !bit rx g then setPause u n g 0 else u) s
        let s := wdRefreshPort s n
        let paused := (List.range 8).filter fun g => (getPg s (8 * n + g)).paused
        let ended := paused.filter fun g => bit old.txEn g && !bit tx g
        let begun := paused.filter fun g => !bit old.txEn g && bit tx g
        let s := updPfc s n fun f =>
          { f with rxEn := rx, txEn := tx, quanta := o.f 16 16, wdEn := o.b 32, wdUs := wd, restoreMs := rst, zero := (f.zero ||| BitVec.ofNat 8 (sumN (ended.map fun g => 2 ^ g))) &&& ~~~(BitVec.ofNat 8 (sumN (begun.map fun g => 2 ^ g))), due := f.due || !ended.isEmpty || !begun.isEmpty }
        (succeeds (pfcTry (wdRefreshPort s n) n) o 0)) ∧
  (∀ (o : Order) (s : State),
      let n := o.f 0 3
      let qs := (List.range n).map fun k => o.f (3 + 4 * k) 4
      accepted (setForm 0x4B06 [0xB1] 0x1FF [(0, 22)] modesSet true) s o = true → n < 5 →
      o.f (3 + 4 * n) (16 - 4 * n) = 0 → qs.length ≤ qs.eraseDups.length →
      ((o.b 19 || o.b 20) && !isNative s o.inst) = false →
      exec (.escSet o) s =
        succeeds (s.updEgr fun e => { e with esc := SMap.upd (fun _ => EscSt.reset) e.esc o.inst fun x => { x with rungs := qs, tx := o.b 19, rx := o.b 20, bump := o.b 21 } }) o 0) ∧
  (∀ (o : Order) (s : State),
      accepted (setForm 0x4B07 [0xB2] 0x1FFF [] modesSet true) s o = true → (getQs s o.inst).storm = true →
      exec (.stormRestore o) s = succeeds (stormLeave s o.inst 2) o 0)

/-- Each order accepted by the checks of 02 R68 for its form, its pointer payload (where it has one) here and good by its
own checks: READ_SEQ, READ_FANOUT, READ_GRID and READ_GROUP_CONFIG return their records and READ_TRIM completes with
its word; SEQ_GROUP_SET waits, in the order of T_s, for the later of AT_DT and 2 us after its acceptance, and goes on;
FANOUT_GROUP_SET with ENABLE 1 gives the group its settings, with an evidence record; with ENABLE 0 it disables the
group, at once with its event where it holds no packet, else when it has drained; TRIM_SET of a trim already there
writes its record and completes, any other becomes the target, and the order goes on until it is reached; TRIM_MEASURE
begins a measurement and goes on. -/
def Obligations.OrdersOfGroupsTakeEffect : Prop :=
  (∀ (o : Order) (s : State),
      accepted (readForm 0x0C01 [0xC1] 0xF [] 64 modesOn) s o = true →
      exec (.readSeq o) s = returns s o (bytesLE 64 (seqWord (getSeq s o.inst))) 0) ∧
  (∀ (o : Order) (s : State),
      accepted (readForm 0x0C02 [0xC2] 0x3F [] 64 modesOn) s o = true →
      exec (.readFanout o) s = returns s o (bytesLE 64 (fanWord s (getFan s o.inst))) 0) ∧
  (∀ (o : Order) (s : State),
      accepted (readForm 0x0C03 [0xC4] 0 [] 64 modesOn) s o = true →
      exec (.readGrid o) s = returns s o (bytesLE 64 (dtWord (gridOrigin5 s / 5).toNat).toNat) 0) ∧
  (∀ (o : Order) (s : State),
      let fan := decide (o.kind = 0xC2)
      accepted (readForm 0x0C05 [0xC1, 0xC2] (if fan then 0x3F else 0xF) [] (if fan then 128 else 1088) modesOn) s o = true →
      exec (.readGroupConfig o) s =
        returns s o (if fan then padTo 128 (getFan s o.inst).payload
          else padTo 1088 (seqNow (getSeq s o.inst)).payload) 0) ∧
  (∀ (o : Order) (s : State) (bs : List Byte),
      let acc := acceptDt s o
      accepted (ptrForm 0x4C01 [0xC1] 0xF modesSet true) s o = true → ptrLen o = 1088 → payloadHere s o bs = true →
      (seqChecks s o.inst acc bs).pass = true →
      exec (.seqGroupSet o) s =
        let h := leNat (slice bs 0 64)
        let at_ := dtCount (nfld h 96 96)
        let valid := decide (nfld h 1 1 = 1)
        let ts := if valid then max at_ (acc + 2 * dtUs) else acc + 2 * dtUs
        (goesOn (updSeq s o.inst fun x => { x with pend := pendInsert ⟨ts, valid && decide (at_ < ts), seqCfgOf bs, o⟩ x.pend }) 0x4C01 o)) ∧
  (∀ (o : Order) (s : State) (bs : List Byte),
      accepted (ptrForm 0x4C02 [0xC2] 0x3F modesSet true) s o = true → ptrLen o = 128 → payloadHere s o bs = true →
      (fanChecks s o.inst bs).pass = true →
      exec (.fanoutGroupSet o) s =
        let g := o.inst
        let h := leNat (slice bs 0 64)
        if nfld h 0 1 = 1 then
          let s := updFan s g fun y =>
            { y with enable := true, record := nfld h 1 2, period := nfld h 8 16, leadNs := nfld h 32 32, base5 := 5 * (dtCount (nfld h 64 96) : Int), limit := nfld h 160 13, members := fanMembers bs, payload := padTo 128 bs }
          (succeeds (configRecord s true g s.tb.dt s.tb.dt true (padTo 128 bs)) o 0)
        else
          let s := updFan s g fun y => { y with enable := false, payload := padTo 128 bs }
          if (getFan s g).pkts.isEmpty then
            (succeeds (postAll (configRecord s true g s.tb.dt s.tb.dt false (padTo 128 bs)) 0x0C05 0 (packN [(0, 1, 1), (1, 6, g)])) o 0)
          else (goesOn (updFan s g fun y => { y with drain := some o }) 0x4C02 o)) ∧
  (∀ (o : Order) (s : State),
      accepted (readForm 0x0C04 [0xC3] 0x1FF [] 0 modesOn) s o = true →
      exec (.readTrim o) s =
        let x := getTrim s o.inst
        (succeeds s o (packN [(0, 7, trimField x.cur), (7, 7, trimField x.target), (14, 1, b2n (x.cur != x.target))]))) ∧
  (∀ (o : Order) (s : State),
      let v := signed 7 (o.f 0 7)
      accepted (setForm 0x4C03 [0xC3] 0x1FF [(0, 7)] modesSet true) s o = true → -32 ≤ v → v ≤ 32 →
      exec (.trimSet o) s =
        let x := getTrim s o.inst
        if x.cur = x.target ∧ x.cur = v then (succeeds (trimRecord s o.inst v v) o (trimField v))
        else
          (goesOn (updTrim s o.inst fun y =>
            { y with target := v, began := if y.cur = y.target then y.cur else y.began, orders := y.orders ++ [o],
                     stepAt := if y.cur = y.target then s.tb.now else y.stepAt }) 0x4C03 o)) ∧
  (∀ (o : Order) (s : State),
      accepted (setForm 0x4C04 [0xC3] 0x1FF [] modesSet true) s o = true →
      exec (.trimMeasure o) s =
        goesOn (s.updGrp fun g => { g with meas := g.meas ++ [⟨o.inst, 0, [], [], s.tb.now, s.tb.now⟩] }) 0x4C04 o)

/-- Each order accepted by the checks of 02 R68 for its form, with the chapter's own conditions met: READ_CONTEXT, READ_CU
and READ_ARB return their records; CONTEXT_SET, its payload here and good, clears its context and gives it its
settings, enabled at its home with BASE at its first chunk, or disables it; CONTEXT_MOVE to another unit with room
begins the move and goes on; CONTEXT_RESET of a context enabled or faulted clears it, at its first chunk; COLL_SET
sets the UDP port and the limit; ARB_SET with no commit pending and not of the fixed arbiters writes the shadow table
of its arbiter, or of all of its kind; ARB_COMMIT with none pending makes one due 2 us from now and goes on. -/
def Obligations.OrdersOfReductionAndArbitersTakeEffect : Prop :=
  (∀ (o : Order) (s : State),
      accepted (readForm 0x0D01 [0xD1] 0xFFF [] 64 modesOn) s o = true →
      exec (.readContext o) s = returns s o (bytesLE 64 (ctxWord (getCtx s o.inst))) 0) ∧
  (∀ (o : Order) (s : State),
      accepted (readForm 0x0D02 [0xD2] 0xF [] 64 modesOn) s o = true →
      exec (.readCu o) s = returns s o (bytesLE 64 (unitWord s o.inst)) 0) ∧
  (∀ (o : Order) (s : State) (bs : List Byte),
      accepted (ptrForm 0x4D01 [0xD1] 0xFFF modesSet true) s o = true → ptrLen o = 192 → payloadHere s o bs = true →
      (ctxChecks s o.inst bs).pass = true →
      exec (.contextSet o) s =
        let h := leNat (slice bs 0 64)
        let n := o.inst
        let c := ctxCfgOf bs
        let s := ctxClear s n
        if nfld h 0 1 = 1 then
          (succeeds (updCtx s n fun x =>
            { x with cfg := c, enabled := true, faulted := false, home := nfld h 67 4, base := c.first, sentCredit := c.window, sentAt := s.tb.now }) o 0)
        else (succeeds (updCtx s n fun x => { x with enabled := false, faulted := false }) o 0)) ∧
  (∀ (o : Order) (s : State),
      let x := getCtx s o.inst
      let home := o.f 0 4
      accepted (setForm 0x4D02 [0xD1] 0xFFF [(0, 4)] modesSet true) s o = true → x.home ≠ home →
      x.move.isSome = false → (x.enabled && decide (accBytes < reserved s home + slotsOf x.cfg)) = false →
      exec (.contextMove o) s = goesOn (beginMove s o.inst home (some o) false) 0x4D02 o) ∧
  (∀ (o : Order) (s : State),
      let x := getCtx s o.inst
      accepted (setForm 0x4D03 [0xD1] 0xFFF [] modesSet true) s o = true → x.move.isSome = false →
      (!x.enabled && !x.faulted) = false →
      exec (.contextReset o) s =
        succeeds (updCtx (ctxClear s o.inst) o.inst fun y => { y with faulted := false, base := y.cfg.first }) o 0) ∧
  (∀ (o : Order) (s : State),
      accepted (setForm 0x4D04 [0xD3] 0 [(0, 32)] modesSet true) s o = true → 256 ≤ o.f 16 16 →
      exec (.collSet o) s = succeeds (s.updColl fun x => { x with udpPort := o.f 0 16, limitKib := o.f 16 16 }) o 0) ∧
  (∀ (o : Order) (s : State),
      accepted (readForm 0x0E01 [0xE1, 0xE2, 0xE3] (arbMask o.kind) [] 64 modesOn) s o = true →
      exec (.readArb o) s = returns s o (bytesLE 64 (arbWord s (getArb s o.kind o.inst))) 0) ∧
  (∀ (o : Order) (s : State),
      let n := if o.kind = 0xE3 then 6 else 7
      let all := decide (nfld o.inst 22 1 = 1)
      let js := (List.range 7).filter fun j => (setEntry o j).1
      accepted (setForm 0x4E01 [0xE1, 0xE2, 0xE3] (arbMask o.kind + 2 ^ 22) [(0, 112), (112, 14)] modesSet true) s o = true →
      (all && decide (o.inst ≠ 2 ^ 22)) = false → (js.any fun j => o.f (16 * j + 9) 7 != 0) = false →
      (o.kind != 0xE1 && (js.any (fun j => decide (n ≤ j) || decide ((setEntry o j).2.burst = 0) || decide (16 < (setEntry o j).2.burst)) || (o.b 125 && (decide (o.f 112 13 < 16) || decide (4096 < o.f 112 13))))) = false →
      s.arb.pend.isSome = false → o.kind ≠ 0xE1 →
      exec (.arbSet o) s =
        let is := if all then List.range (arbMask o.kind + 1) else [o.inst]
        (succeeds (is.foldl (fun u i => updArbOf u o.kind i (shadowSet o)) s) o 0)) ∧
  (∀ (o : Order) (s : State),
      accepted (setForm 0x4E02 [0xE4] 0 [] modesSet true) s o = true → s.arb.pend.isSome = false →
      exec (.arbCommit o) s = goesOn (s.updArb fun a => { a with pend := some (s.tb.dt + 2 * dtUs) }) 0x4E02 o)

/-- Each order accepted by the checks of 02 R68 for its form, its values in range and its pointer payload (where it has
one) here: READ_PORT_COUNTERS, READ_SEL and READ_BW (its windows brought up to now) return their records; READ_HIST,
READ_SKETCH and READ_CLEAR go on until their snapshot; SEL_SET selects, stops and clears a counter; SEL_CTRL waits for
the later of AT_DT and 2 us from now, and completes with that instant; HIST_SET, SKETCH_SET and EV_SET replace their
reducer, its counts zero; BW_SET begins the port's windows afresh. -/
def Obligations.OrdersOfCountersTakeEffect : Prop :=
  (∀ (o : Order) (s : State),
      accepted (readForm 0x0F01 [0xF1] 0x1FF [] 512 modesOn) s o = true →
      exec (.readPortCounters o) s =
        returns s o ((List.range 64).flatMap fun e =>
          bytesLE 8 (SMap.get (fun _ => (0 : BitVec 64)) s.tel.cnt (64 * o.inst + e)).toNat) 0) ∧
  (∀ (o : Order) (s : State),
      let first := o.f 0 8
      let n := o.f 8 8 + 1
      accepted (readForm 0x0F02 [0xF2] 0x1F [(0, 16)] 64 modesOn) s o = true → first + n ≤ 256 →
      exec (.readSel o) s =
        returns ((List.range 256).foldl (fun u _ => u.drawn) s) o ((List.range n).flatMap fun i => bytesLE 16 (selRecord s o.inst (first + i))) 0) ∧
  (∀ (o : Order) (s : State),
      accepted (readForm 0x0F03 [0xF4] 0x3F [] 512 modesOn) s o = true →
      exec (.readHist o) s = goesOn s 0x0F03 o) ∧
  (∀ (o : Order) (s : State),
      accepted (readForm 0x0F04 [0xF5] 0x7 [] 66048 modesOn) s o = true →
      exec (.readSketch o) s = goesOn s 0x0F04 o) ∧
  (∀ (o : Order) (s : State),
      accepted { setForm 0x4F03 [0xF4, 0xF5] (if o.kind = 0xF4 then 0x3F else 0x7) [] [.prepare, .service, .coast] true with result := if o.kind = 0xF4 then 512 else 66048 } s o = true →
      exec (.readClear o) s = goesOn s 0x4F03 o) ∧
  (∀ (o : Order) (s : State),
      accepted (readForm 0x0F05 [0xF1] 0x1FF [] 64 modesOn) s o = true →
      exec (.readBw o) s =
        let s := bwNow s o.inst
        let b := getBw s o.inst
        (returns s o (bwRecord b.rx ++ bwRecord b.tx) 0)) ∧
  (∀ (o : Order) (s : State),
      let i := o.f 0 8
      let chain := o.b 36
      accepted (setForm 0x4F01 [0xF2] 0x1F [(0, 37)] modesSet true) s o = true →
      (!chain && !selEvents (o.f 8 12)) = false → (chain && (i == 0 || (getSel s o.inst (i - 1)).chain)) = false →
      exec (.selSet o) s =
        succeeds (clearChained (updSel s o.inst i fun _ =>
          { event := o.f 8 12, qual := o.f 20 16, chain := chain, running := false, count := 0 }) o.inst i) o 0) ∧
  (∀ (o : Order) (s : State),
      let at_ := o.f 3 96
      let first := o.f 99 8
      let n := o.f 107 8 + 1
      accepted (setForm 0x4F02 [0xF2] 0x1F [(0, 115)] modesSet true) s o = true → o.f 0 2 ≠ 3 →
      (o.b 2 && !dtOk at_) = false → first + n ≤ 256 →
      exec (.selCtrl o) s =
        let due := if o.b 2 then max (dtCount at_) (s.tb.dt + 2 * dtUs) else s.tb.dt + 2 * dtUs
        (succeeds (s.updTel fun q => { q with selWaits := q.selWaits ++ [⟨o.inst, o.f 0 2, due, first, n⟩] }) o (fld (dtWord due) 16 32))) ∧
  (∀ (o : Order) (s : State),
      let log := o.b 67
      accepted (setForm 0x4F04 [0xF4] 0x3F [(0, 132)] modesSet true) s o = true → filterReserved (o.f 0 64) = false →
      o.f 65 2 ≠ 3 → (o.b 64 && (if log then decide (o.f 68 32 = 0) else decide (o.f 100 32 = 0))) = false →
      exec (.histSet o) s =
        succeeds (putHist s o.inst { filter := BitVec.ofNat 64 (o.f 0 64), enable := o.b 64, metric := o.f 65 2, log := log, start := o.f 68 32, width := o.f 100 32, bins := List.replicate 64 0 }) o 0) ∧
  (∀ (o : Order) (s : State),
      accepted (setForm 0x4F05 [0xF5] 0x7 [(0, 98)] modesSet true) s o = true → filterReserved (o.f 0 64) = false →
      (o.b 64 && decide (o.f 66 32 = 0)) = false →
      exec (.sketchSet o) s =
        succeeds (putSketch s o.inst { filter := BitVec.ofNat 64 (o.f 0 64), enable := o.b 64, weight := o.b 65, thr := o.f 66 32, ctrs := [], heavy := [] }) o 0) ∧
  (∀ (o : Order) (s : State) (bs : List Byte),
      let h := leNat (slice bs 0 64)
      accepted (ptrForm 0x4F07 [0xF6] 0x3 modesSet true) s o = true → ptrLen o = 128 → payloadHere s o bs = true →
      onlyFields h [(0, 39), (64, 1)] = true → nfld h 24 2 ≠ 3 →
      exec (.evSet o) s =
        let h := leNat (slice bs 0 64)
        let e : EvRed :=
          { filter := BitVec.ofNat 64 h, enable := decide (nfld h 64 1 = 1), ports := BitVec.ofNat 512 (leNat (slice bs 64 64)) }
        (succeeds (s.updTel fun q => { q with evs := SMap.put (fun _ => EvRed.reset) q.evs o.inst e }) o 0)) ∧
  (∀ (o : Order) (s : State),
      let w := o.f 0 34
      accepted (setForm 0x4F08 [0xF1] 0x1FF [(0, 34)] modesSet true) s o = true → 1000 ≤ w → w ≤ 10000000000 →
      exec (.bwSet o) s =
        succeeds (updBw s o.inst fun _ =>
          { windowNs := w, index := s.tb.dt / (w * dtNs), whole := false, rx := BwDir.reset, tx := BwDir.reset }) o 0)

/-- Each order accepted by the checks of 02 R68 for its form, its values in range and its pointer payload (where it has
one) here: READ_EXPORT and READ_CAPTURE complete with their words; EXPORT_SET sends the selector's open batch and
gives it its settings, its template kept only where its length is TEMPLATE_LEN; EXPORT_TEMPLATE sends the open batch
and stores the template; CLASS_SET of class 1 to 15 sets it; CAPTURE_SET, no drain under way, sets the capture and in
stream mode unfreezes it and delivers what it holds; CAPTURE_FREEZE of a capture that runs with no freeze pending
freezes it (in stream mode it stays); CAPTURE_DRAIN of a frozen capture begins its drain and goes on. -/
def Obligations.OrdersOfExportAndCaptureTakeEffect : Prop :=
  (∀ (o : Order) (s : State),
      accepted (readForm 0x0F06 [0xF3] 0xF [] 0 modesOn) s o = true →
      exec (.readExport o) s =
        let x := getExport s o.inst
        (succeeds s o (packN [(0, 32, x.sent.toNat), (32, 32, x.lost.toNat)]))) ∧
  (∀ (o : Order) (s : State),
      accepted (readForm 0x0F07 [0xF7] 0 [] 0 modesOn) s o = true →
      exec (.readCapture o) s =
        let c := s.tel.cap
        (succeeds s o (packN [(0, 2, c.state), (2, 30, min c.recs.length (2 ^ 30 - 1)), (32, 32, c.lost.toNat)]))) ∧
  (∀ (o : Order) (s : State),
      let x := getExport s o.inst
      let coll := o.b 65
      let len := o.f 173 7
      let bad := decide (o.f 68 16 = 0) || decide (o.f 84 20 = 0) || decide (400000 < o.f 84 20) || decide (o.f 104 16 = 0) || (if coll then decide (o.f 143 14 < 256) || decide (9000 < o.f 143 14) || decide (len < 42) || decide (66 < len) || !x.tmplOk || len != x.tmplLen else !exportRingOk s o)
      accepted (setForm 0x4F06 [0xF3] 0xF [(0, 180)] modesSet true) s o = true → filterReserved (o.f 0 64) = false →
      o.f 120 2 ≠ 3 → (o.b 64 && bad) = false →
      exec (.exportSet o) s =
        let s := closeBatch (getExport s o.inst).batch.length s o.inst
        (succeeds (updExport s o.inst fun y =>
          { y with filter := BitVec.ofNat 64 (o.f 0 64), enable := o.b 64, collector := coll, fmt32 := o.b 66, trigger := o.b 67, sampleN := o.f 68 16, rateKps := o.f 84 20, flushUs := o.f 104 16, master := o.f 120 2, ring := o.f 122 8, outPort := o.f 130 9, outQueue := o.f 139 4, mtu := o.f 143 14, udpPort := o.f 157 16, tmplLen := len, tmplOk := y.tmplOk && len == y.tmplLen }) o 0)) ∧
  (∀ (o : Order) (s : State) (bs : List Byte),
      accepted (ptrForm 0x4F0D [0xF3] 0xF modesSet true) s o = true → ptrLen o = 128 → payloadHere s o bs = true →
      ((bs.drop (getExport s o.inst).tmplLen).any fun b => b != 0) = false →
      exec (.exportTemplate o) s =
        let s := closeBatch (getExport s o.inst).batch.length s o.inst
        (succeeds (updExport s o.inst fun y => { y with tmpl := padTo 128 bs, tmplOk := true }) o 0)) ∧
  (∀ (o : Order) (s : State),
      let n := o.f 1 15
      accepted (setForm 0x4F09 [0xF7] 0xF [(0, 16)] [.prepare, .service, .coast] true) s o = true → o.inst ≠ 0 →
      64 ≤ n → n ≤ 16384 → n % 64 = 0 →
      exec (.classSet o) s =
        succeeds (s.updTel fun q => { q with classes := SMap.put (fun _ => CapClass.reset) q.classes o.inst ⟨o.b 0, n⟩ }) o 0) ∧
  (∀ (o : Order) (s : State),
      accepted (setForm 0x4F0A [0xF7] 0 [(0, 31)] [.prepare, .service, .coast] true) s o = true → o.f 1 2 ≠ 3 →
      s.tel.cap.state ≠ 2 →
      exec (.captureSet o) s =
        let s := updCap s fun c =>
          { c with wrap := o.b 0, master := o.f 1 2, ring := o.f 3 8, postRecords := o.f 11 20, state := if o.b 0 then c.state else 0, post := if o.b 0 then c.post else none }
        (succeeds (if o.b 0 then s else deliverAll s.tel.cap.recs.length s) o 0)) ∧
  (∀ (o : Order) (s : State),
      accepted (setForm 0x4F0B [0xF7] 0 [] [.prepare, .service, .coast] true) s o = true →
      s.tel.cap.state = 0 → s.tel.cap.post.isSome = false →
      exec (.captureFreeze o) s = succeeds (if s.tel.cap.wrap then freezeCapture s none else s) o s.tel.cap.number) ∧
  (∀ (o : Order) (s : State),
      accepted (setForm 0x4F0C [0xF7] 0 [] [.prepare, .service, .coast] true) s o = true → s.tel.cap.state = 1 →
      exec (.captureDrain o) s = goesOn (updCap s fun c => { c with state := 2, delivered := 0 }) 0x4F0C o)

/-- Each order accepted by the checks of 02 R68 for its form with its values in range: READ_POWER, READ_PHASE and
READ_THERMAL give their words, zero in DORMANT; PHASE_SET writes the phase, in force at once (with its event) where it
is the one in force; PHASE_SELECT schedules its phase at AT_DT or 2 us from now and completes with that instant, moved
where AT_DT came too soon; PHASE_CANCEL with one scheduled removes it; POWER_SET sets its fields; READ_ERRORS returns
a group's 16 records, or the open ones alone, with its overflow word; READ_FATAL returns the fatal record and marks it
read by the owner; ERR_CLOSE closes the open records named and completes with them; CU_ISOLATE isolates a unit that is
not, and goes on; CU_RESTORE of an isolated unit begins its test and goes on. -/
def Obligations.OrdersOfPowerAndErrorsTakeEffect : Prop :=
  (∀ (o : Order) (s : State),
      accepted (readForm 0x1001 [0x16] 0 [] 128 modesAll) s o = true →
      exec (.readPower o) s = returns s o (bytesLE 128 (if awake s then powerWord s.pwr else 0)) 0) ∧
  (∀ (o : Order) (s : State),
      accepted (readForm 0x1002 [0x17] 7 [] 0 modesAll) s o = true →
      exec (.readPhase o) s =
        let pend := match s.pwr.pend with | some x => x.phase == o.inst | none => false
        (succeeds s o (if awake s then
          packN [(0, 24, phaseWord (getPhase s.pwr o.inst)), (24, 1, b2n (s.pwr.phase == o.inst)), (25, 1, b2n pend)] else 0))) ∧
  (∀ (o : Order) (s : State),
      accepted (readForm 0x1003 [0x16] 0 [] 128 modesAll) s o = true →
      exec (.readThermal o) s =
        returns s o (bytesLE 128 (if awake s then
          packN ((List.range 64).map fun i => (16 * i, 16, unsigned 16 (SMap.get (fun _ => 0) s.pwr.sensors i))) else 0)) 0) ∧
  (∀ (o : Order) (s : State),
      let ph : Phase := { opp := o.f 0 3, capW := o.f 3 11, slope := o.f 14 7, order := o.f 21 3 }
      accepted (setForm 0x5001 [0x17] 7 [(0, 24)] modesSet true) s o = true → ph.order ≤ 5 → ph.opp ≤ 5 →
      600 ≤ ph.capW → ph.capW ≤ 1350 → 5 ≤ ph.slope → ph.slope ≤ 80 →
      exec (.phaseSet o) s =
        let n := o.inst
        (succeeds (if s.pwr.phase = n then postPhase (enforcePhase s n ph) n s.tb.dt false
         else s.updPwr fun p => { p with phases := SMap.put (fun _ => Phase.reset) p.phases n ph }) o 0)) ∧
  (∀ (o : Order) (s : State),
      let at_ := o.f 4 96
      accepted (setForm 0x5002 [0x16] 0 [(0, 100)] modesSet true) s o = true →
      (o.b 3 && (!dtOk at_ || decide (s.tb.dt + 3600 * dtSec < dtCount at_))) = false →
      exec (.phaseSelect o) s =
        let early := s.tb.dt + 2 * dtUs
        let tp := if o.b 3 then max (dtCount at_) early else early
        let w := (dtWord tp).toNat
        (.next (complete (s.updPwr fun p => { p with pend := some ⟨o.f 0 3, tp⟩ }) o (if o.b 3 && tp != dtCount at_ then 0x1001 else stSuccess) (packN [(0, 32, nfld w 16 32), (32, 32, nfld w 48 32)])))) ∧
  (∀ (o : Order) (s : State),
      accepted (setForm 0x5003 [0x16] 0 [] modesSet true) s o = true → s.pwr.pend.isSome = true →
      exec (.phaseCancel o) s = succeeds (s.updPwr fun p => { p with pend := none }) o 0) ∧
  (∀ (o : Order) (s : State),
      accepted (setForm 0x5004 [0x16] 0 [(0, 6)] modesSet true) s o = true → 1 ≤ o.f 1 4 → o.f 1 4 ≤ 10 →
      exec (.powerSet o) s =
        succeeds (s.updPwr fun p => { p with prerampEn := o.b 0, thermStepPct := o.f 1 4, ibiEn := o.b 5 }) o 0) ∧
  (∀ (o : Order) (s : State),
      let g := o.inst
      accepted (readForm 0x1101 [0x18] 31 [(0, 1)] 1024 modesAll) s o = true → g < 20 →
      exec (.readErrors o) s =
        let v := SMap.get (fun _ => Ovf.mk 0 0 0) s.err.ovf g
        (returns s o ((List.range 16).flatMap fun i =>
            let r := getErr s g i
            bytesLE 64 (if o.b 0 && !r.opened then 0 else errWord g r)) (packN [(0, 32, v.count), (32, 8, v.last)]))) ∧
  (∀ (o : Order) (s : State),
      accepted (readForm 0x1102 [0x19] 0 [] 64 modesAll) s o = true →
      exec (.readFatal o) s =
        let r := s.err.fatal
        (returns (s.updErr fun e => { e with fatalRead := e.fatalRead || (r.valid && s.own.owner == some o.master) }) o (bytesLE 64 (errWord (fatalGroup r.cls r.unit) r)) (b2n s.err.fatalLatch))) ∧
  (∀ (o : Order) (s : State),
      let g := o.inst
      accepted (setForm 0x5101 [0x18] 31 [(0, 16)] modesOn false) s o = true → g < 20 →
      exec (.errClose o) s =
        let hit := (List.range 16).filter fun i => o.b i && (getErr s g i).opened
        (succeeds (hit.foldl (fun u i => putErr u g i { getErr u g i with opened := false }) s) o (packN (hit.map fun i => (i, 1, 1))))) ∧
  (∀ (o : Order) (s : State),
      accepted (setForm 0x5102 [0xD2] 15 [] modesSet true) s o = true → unitIsolated s o.inst = false →
      exec (.cuIsolate o) s = goesOn (isolateUnit s o.inst) 0x5102 o) ∧
  (∀ (o : Order) (s : State),
      accepted (setForm 0x5103 [0xD2] 15 [] modesSet true) s o = true → unitIsolated s o.inst = true →
      exec (.cuRestore o) s = goesOn (updUnit s o.inst fun y => { y with testing := true }) 0x5103 o)

/-- An instruction that its lathe runs to its end (program under way, lathe in service, no upset, no marked register read,
within the budget): ADD, SUB, AND, OR, XOR and MUL write RD with RA and the second operand (RB, or the sign-extended
immediate) combined; SHL, SHR and SAR shift RA by less than 64, and by 64 or more leave RD free (not stated; a free
value, log entry 1); CMP leaves RD free; MULH writes the high half, free where an operand's top bit is set; EXT and
INS, of a field of 1 to 64 bits within the register, copy it. Each takes its microcycles, in which the
microwords of its routine run (10 R366), and the next word follows; nothing else changes; a write of g0 is discarded. -/
def Obligations.ArithmeticInstructionsRun : Prop :=
  (∀ (i : LInsn) (s : State) (r : Run),
      let l := getLathe s i.lathe
      runsOn i s (aluSrcs i) 2 r = true →
      exec (.add i) s = .next (retired s r (setRd s i (greg l i.ra + opB i l)) i 2 (nextPc r))) ∧
  (∀ (i : LInsn) (s : State) (r : Run),
      let l := getLathe s i.lathe
      runsOn i s (aluSrcs i) 2 r = true →
      exec (.sub i) s = .next (retired s r (setRd s i (greg l i.ra - opB i l)) i 2 (nextPc r))) ∧
  (∀ (i : LInsn) (s : State) (r : Run),
      let l := getLathe s i.lathe
      runsOn i s (aluSrcs i) 2 r = true →
      exec (.and i) s = .next (retired s r (setRd s i (greg l i.ra &&& opB i l)) i 2 (nextPc r))) ∧
  (∀ (i : LInsn) (s : State) (r : Run),
      let l := getLathe s i.lathe
      runsOn i s (aluSrcs i) 2 r = true →
      exec (.or i) s = .next (retired s r (setRd s i (greg l i.ra ||| opB i l)) i 2 (nextPc r))) ∧
  (∀ (i : LInsn) (s : State) (r : Run),
      let l := getLathe s i.lathe
      runsOn i s (aluSrcs i) 2 r = true →
      exec (.xor i) s = .next (retired s r (setRd s i (greg l i.ra ^^^ opB i l)) i 2 (nextPc r))) ∧
  (∀ (i : LInsn) (s : State) (r : Run),
      let l := getLathe s i.lathe
      runsOn i s (aluSrcs i) 2 r = true →
      exec (.shl i) s =
        .next (retired s r
          (if (opB i l).toNat < 64 then setRd s i (greg l i.ra <<< (opB i l).toNat) else setRdFree s i)
          i 2 (nextPc r))) ∧
  (∀ (i : LInsn) (s : State) (r : Run),
      let l := getLathe s i.lathe
      runsOn i s (aluSrcs i) 2 r = true →
      exec (.shr i) s =
        .next (retired s r
          (if (opB i l).toNat < 64 then setRd s i (greg l i.ra >>> (opB i l).toNat) else setRdFree s i)
          i 2 (nextPc r))) ∧
  (∀ (i : LInsn) (s : State) (r : Run),
      let l := getLathe s i.lathe
      runsOn i s (aluSrcs i) 2 r = true →
      exec (.sar i) s =
        .next (retired s r
          (if (opB i l).toNat < 64 then setRd s i ((greg l i.ra).sshiftRight (opB i l).toNat) else setRdFree s i)
          i 2 (nextPc r))) ∧
  (∀ (i : LInsn) (s : State) (r : Run),
      runsOn i s (aluSrcs i) 2 r = true →
      exec (.cmp i) s = .next (retired s r (setRdFree s i) i 2 (nextPc r))) ∧
  (∀ (i : LInsn) (s : State) (r : Run),
      let l := getLathe s i.lathe
      runsOn i s (aluSrcs i) 6 r = true →
      exec (.mul i) s = .next (retired s r (setRd s i (greg l i.ra * opB i l)) i 6 (nextPc r))) ∧
  (∀ (i : LInsn) (s : State) (r : Run),
      let l := getLathe s i.lathe
      runsOn i s (aluSrcs i) 6 r = true →
      exec (.mulh i) s =
        .next (retired s r
          (if (greg l i.ra).msb || (opB i l).msb then setRdFree s i else setRd s i (BitVec.ofNat 64 ((greg l i.ra).toNat * (opB i l).toNat / 2 ^ 64)))
          i 6 (nextPc r))) ∧
  (∀ (i : LInsn) (s : State) (r : Run),
      let l := getLathe s i.lathe
      runsOn i s [i.ra] 3 r = true → i.len ≠ 0 → i.lo + i.len ≤ 64 →
      exec (.ext i) s = .next (retired s r (setRd s i (BitVec.ofNat 64 (fld (greg l i.ra) i.lo i.len))) i 3 (nextPc r))) ∧
  (∀ (i : LInsn) (s : State) (r : Run),
      let l := getLathe s i.lathe
      let m := BitVec.ofNat 64 ((2 ^ i.len - 1) * 2 ^ i.lo)
      runsOn i s [i.rd, i.ra] 3 r = true → i.len ≠ 0 → i.lo + i.len ≤ 64 →
      exec (.ins i) s =
        .next (retired s r (setRd s i ((greg l i.rd &&& ~~~m) ||| ((greg l i.ra <<< i.lo) &&& m))) i 3 (nextPc r))) ∧
  (∀ (l : Lathe) (v : BitVec 64), setGreg l 0 v = l ∧ greg l 0 = 0)

/-- A branch that its lathe runs to its end compares RD with RA (BEQ and BNE for equality, BLT and BGE as signed numbers,
BLTU and BGEU as unsigned) and, when the condition holds, the instruction at the present index plus the signed
immediate is next, else the one that follows; JMP always goes there. The target counts from the branch's own index (10
R360); that RD is the first operand is the model's reading (log entry 11). A target before the first word is held as
one beyond every program, so the next fetch faults. Each takes 3 microcycles, in which its microwords
run; nothing else changes. -/
def Obligations.BranchInstructionsRun : Prop :=
  (∀ (i : LInsn) (s : State) (r : Run),
      let l := getLathe s i.lathe
      runsOn i s [i.rd, i.ra] 3 r = true →
      exec (.beq i) s =
        .next (retired s r s i 3 (if greg l i.rd = greg l i.ra then (r.pc : Int) + i.imm.toInt else nextPc r))) ∧
  (∀ (i : LInsn) (s : State) (r : Run),
      let l := getLathe s i.lathe
      runsOn i s [i.rd, i.ra] 3 r = true →
      exec (.bne i) s =
        .next (retired s r s i 3 (if greg l i.rd ≠ greg l i.ra then (r.pc : Int) + i.imm.toInt else nextPc r))) ∧
  (∀ (i : LInsn) (s : State) (r : Run),
      let l := getLathe s i.lathe
      runsOn i s [i.rd, i.ra] 3 r = true →
      exec (.blt i) s =
        .next (retired s r
          (s)
          i 3 (if (greg l i.rd).toInt < (greg l i.ra).toInt then (r.pc : Int) + i.imm.toInt else nextPc r))) ∧
  (∀ (i : LInsn) (s : State) (r : Run),
      let l := getLathe s i.lathe
      runsOn i s [i.rd, i.ra] 3 r = true →
      exec (.bge i) s =
        .next (retired s r
          (s)
          i 3 (if (greg l i.ra).toInt ≤ (greg l i.rd).toInt then (r.pc : Int) + i.imm.toInt else nextPc r))) ∧
  (∀ (i : LInsn) (s : State) (r : Run),
      let l := getLathe s i.lathe
      runsOn i s [i.rd, i.ra] 3 r = true →
      exec (.bltu i) s =
        .next (retired s r
          (s)
          i 3 (if (greg l i.rd).toNat < (greg l i.ra).toNat then (r.pc : Int) + i.imm.toInt else nextPc r))) ∧
  (∀ (i : LInsn) (s : State) (r : Run),
      let l := getLathe s i.lathe
      runsOn i s [i.rd, i.ra] 3 r = true →
      exec (.bgeu i) s =
        .next (retired s r
          (s)
          i 3 (if (greg l i.ra).toNat ≤ (greg l i.rd).toNat then (r.pc : Int) + i.imm.toInt else nextPc r))) ∧
  (∀ (i : LInsn) (s : State) (r : Run),
      runsOn i s [] 3 r = true →
      exec (.jmp i) s = .next (retired s r s i 3 ((r.pc : Int) + i.imm.toInt)))

/-- LDL loads 1, 2, 4 or 8 aligned bytes of local memory, none of them in a marked word, into RD; STL stores RD's low
bytes, and changes no other byte; LDC loads a constant word inside the data (free where the address is no multiple of
8: not stated). LDS and STS load and store a shared-memory word in the program's window; FADD, CAS and SWAP answer the
old word in RD and add RB, store RB when the word equals RD, or store RB. Each first has its grant of the word's arbiter
(14 R463), whose waiting cycles count as stalls. Each takes its microcycles, in which its microwords run, and the next
word follows; nothing else changes. -/
def Obligations.MemoryInstructionsRun : Prop :=
  (∀ (i : LInsn) (s : State) (r : Run),
      let l := getLathe s i.lathe
      let a := addrOf i l
      runsOn i s [i.ra] 3 r = true → widthOk i.width = true → localOk a i.width = true → badLocal l a i.width = none →
      exec (.ldl i) s = .next (retired s r (setRd s i (BitVec.ofNat 64 (leNat (localBytes l a i.width)))) i 3 (nextPc r))) ∧
  (∀ (i : LInsn) (s : State) (r : Run),
      let l := getLathe s i.lathe
      let a := addrOf i l
      runsOn i s [i.rd, i.ra] 3 r = true → widthOk i.width = true → localOk a i.width = true →
      exec (.stl i) s =
        .next (retired s r
          (updLathe s i.lathe fun x => putLocals x a (bytesLE i.width (greg l i.rd).toNat))
          i 3 (nextPc r))) ∧
  (∀ (i : LInsn) (s : State) (r : Run),
      let l := getLathe s i.lathe
      let a := addrOf i l
      runsOn i s [i.ra] 3 r = true → a + 8 ≤ (bankOf s r.bank).dataBytes →
      exec (.ldc i) s =
        .next (retired s r
          (if a % 8 = 0 then setRd s i ((bankOf s r.bank).data.getD (a / 8) 0) else setRdFree s i)
          i 3 (nextPc r))) ∧
  (∀ (i : LInsn) (s : State) (r : Run),
      let l := getLathe s i.lathe
      let a := addrOf i l
      let k := latheSlice i.lathe
      let g := arbUse s 0xE2 (16 * k + a / 8 % 16) (i.lathe % 6) i.cycles
      runsOn i s [i.ra] 4 r = true → inWindow r a = true → s.lat.badShm.contains (2 ^ 18 * k + a / 8) = false →
      exec (.lds i) s = .next (retired s r (setRd g.1 i (shmWord s k (a / 8))) i 4 (nextPc r) g.2)) ∧
  (∀ (i : LInsn) (s : State) (r : Run),
      let l := getLathe s i.lathe
      let a := addrOf i l
      let k := latheSlice i.lathe
      let g := arbUse s 0xE2 (16 * k + a / 8 % 16) (i.lathe % 6) i.cycles
      runsOn i s [i.rd, i.ra] 4 r = true → inWindow r a = true →
      exec (.sts i) s = .next (retired s r (putShm g.1 k (a / 8) (greg l i.rd)) i 4 (nextPc r) g.2)) ∧
  (∀ (i : LInsn) (s : State) (r : Run),
      let l := getLathe s i.lathe
      let a := (greg l i.ra).toNat
      let k := latheSlice i.lathe
      let w := shmWord s k (a / 8)
      let g := arbUse s 0xE2 (16 * k + a / 8 % 16) (i.lathe % 6) i.cycles
      runsOn i s [i.ra, i.rb] 6 r = true → inWindow r a = true → s.lat.badShm.contains (2 ^ 18 * k + a / 8) = false →
      exec (.fadd i) s = .next (retired s r (setRd (putShm g.1 k (a / 8) (w + greg l i.rb)) i w) { i with imm := 0 } 6 (nextPc r) g.2)) ∧
  (∀ (i : LInsn) (s : State) (r : Run),
      let l := getLathe s i.lathe
      let a := (greg l i.ra).toNat
      let k := latheSlice i.lathe
      let w := shmWord s k (a / 8)
      let g := arbUse s 0xE2 (16 * k + a / 8 % 16) (i.lathe % 6) i.cycles
      runsOn i s [i.rd, i.ra, i.rb] 6 r = true → inWindow r a = true →
      s.lat.badShm.contains (2 ^ 18 * k + a / 8) = false →
      exec (.cas i) s =
        .next (retired s r (setRd (if w = greg l i.rd then putShm g.1 k (a / 8) (greg l i.rb) else g.1) i w)
          { i with imm := 0 } 6 (nextPc r) g.2)) ∧
  (∀ (i : LInsn) (s : State) (r : Run),
      let l := getLathe s i.lathe
      let a := (greg l i.ra).toNat
      let k := latheSlice i.lathe
      let w := shmWord s k (a / 8)
      let g := arbUse s 0xE2 (16 * k + a / 8 % 16) (i.lathe % 6) i.cycles
      runsOn i s [i.ra, i.rb] 6 r = true → inWindow r a = true → s.lat.badShm.contains (2 ^ 18 * k + a / 8) = false →
      exec (.swap i) s = .next (retired s r (setRd (putShm g.1 k (a / 8) (greg l i.rb)) i w) { i with imm := 0 } 6 (nextPc r) g.2))

/-- HVL and HVS read HV0 to HV63 and write HV8 to HV63; PBL and PBS read and write 1 to 8 frame bytes; HEDIT, once in a
program, inserts up to 128 bytes (free: not stated) or removes them; DGET and DSET read and write a field of the
decision record; LKUP answers the action data of the key's entry and sets its hit bit, with a request to move its
station where the table asks for it (08 R290), and a miss leaves RD free;
BCOPY copies frame bytes into local memory, or back; CRC continues a CRC-32C over frame bytes; SHA reads a block of
local memory, its result free (not stated); EXIT ends the program, whose result goes to the reorder stage. Each takes
its microcycles, in which its microwords run, and the next word follows; nothing else changes. -/
def Obligations.PacketInstructionsRun : Prop :=
  (∀ (i : LInsn) (s : State) (r : Run),
      runsOn i s [] 2 r = true → i.sel < 64 →
      exec (.hvl i) s = .next (retired s r (setRd s i ((hvOf r.dealt.pkt i.sel).setWidth 64)) i 2 (nextPc r))) ∧
  (∀ (i : LInsn) (s : State) (r : Run),
      let l := getLathe s i.lathe
      runsOn i s [i.rd] 2 r = true → 8 ≤ i.sel → i.sel < 64 →
      exec (.hvs i) s =
        .next (retired s r
          (updRunPkt s i.lathe fun p => { p with hv := p.hv.set i.sel ((greg l i.rd).setWidth 32) })
          i 2 (nextPc r))) ∧
  (∀ (i : LInsn) (s : State) (r : Run),
      let l := getLathe s i.lathe
      let a := addrOf i l
      let f := r.dealt.pkt.frame
      runsOn i s [i.ra] 3 r = true → 1 ≤ i.width → i.width ≤ 8 → a + i.width ≤ f.length →
      exec (.pbl i) s = .next (retired s r (setRd s i (BitVec.ofNat 64 (beNat (slice f a i.width)))) i 3 (nextPc r))) ∧
  (∀ (i : LInsn) (s : State) (r : Run),
      let l := getLathe s i.lathe
      let a := addrOf i l
      let f := r.dealt.pkt.frame
      runsOn i s [i.rd, i.ra] 3 r = true → 1 ≤ i.width → i.width ≤ 8 → a + i.width ≤ f.length →
      exec (.pbs i) s =
        .next (retired s r
          (updRunPkt s i.lathe fun p => { p with frame := putBytes p.frame a p.frame.length (bytesBE i.width (greg l i.rd).toNat) })
          i 3 (nextPc r))) ∧
  (∀ (i : LInsn) (s : State) (r : Run),
      let l := getLathe s i.lathe
      let a := (greg l i.ra).toNat
      let f := r.dealt.pkt.frame
      let n := i.width
      let g := if i.flag then f.take a ++ freeBytes s n ++ f.drop a else f.take a ++ f.drop (a + n)
      let m := if i.flag then f.length + n else f.length - n
      runsOn i s [i.ra] 12 r = true → r.edited = false → n ≤ 128 → a < 256 → a ≤ f.length →
      (i.flag = true ∨ a + n ≤ f.length) → 64 ≤ m → m ≤ 16384 →
      exec (.hedit i) s =
        .next (retired s r
          (updRunPkt (updRun (if i.flag then s.drawn else s) i.lathe fun x => { x with edited := true }) i.lathe fun p => { p with frame := g })
          i 12 (nextPc r))) ∧
  (∀ (i : LInsn) (s : State) (r : Run),
      runsOn i s [] 2 r = true → i.sel < 10 →
      exec (.dget i) s =
        .next (retired s r (setRd s i (BitVec.ofNat 64 (decField r.dealt.pkt.dec i.sel))) i 2 (nextPc r))) ∧
  (∀ (i : LInsn) (s : State) (r : Run) (d : Decision),
      let l := getLathe s i.lathe
      runsOn i s [i.rd] 2 r = true → decSet r.dealt.pkt.dec i.sel (greg l i.rd).toNat = some d →
      exec (.dset i) s = .next (retired s r (updRunPkt s i.lathe fun p => { p with dec := d }) i 2 (nextPc r))) ∧
  (∀ (i : LInsn) (s : State) (r : Run),
      let l := getLathe s i.lathe
      let k := latheSlice i.lathe
      let v := r.dealt.pkt.ver
      let u := (arbUse s 0xE1 (4 * (k / 8) + k % 8 / 2) (6 * (k % 2) + i.lathe % 6) i.cycles).1
      let b := tableKeyBits u 1 i.sel v
      let key := BitVec.ofNat 128 (((greg l i.rb).toNat * 2 ^ 64 + (greg l i.ra).toNat) % 2 ^ b * 2 ^ (128 - b))
      runsOn i s [i.ra, i.rb] 4 r = true → i.sel < 16 →
      exec (.lkup i) s =
        match if tableExists u 1 i.sel v then emLookup u i.sel v key else none with
        | some (n, c) =>
          let w := hitEm u n (c.hits ||| BitVec.ofNat 4 (2 ^ (k / 8)))
          let x := if (learnSet w i.sel).moveUpdate && c.learned && fld c.ad 0 9 != r.dealt.pkt.port then
              learnRequest w ⟨true, i.sel, key, r.dealt.pkt.port⟩ else w
          .next (retired s r (setRd x i c.ad) i 4 (nextPc r) i.stall true)
        | none => .next (retired s r (setRdFree u i) i 4 (nextPc r) i.stall)) ∧
  ((∀ (i : LInsn) (s : State) (r : Run),
      let l := getLathe s i.lathe
      let n := (greg l i.rb).toNat
      let a := (greg l i.ra).toNat
      let d := (greg l i.rd).toNat
      runsOn i s [i.rd, i.ra, i.rb] (bcopyCost n) r = true → a + n ≤ r.dealt.pkt.frame.length → d + n ≤ 65536 → i.flag = true →
      exec (.bcopy i) s =
        .next (retired s r (updLathe s i.lathe fun x => putLocals x d (slice r.dealt.pkt.frame a n)) i (bcopyCost n) (nextPc r))) ∧
    (∀ (i : LInsn) (s : State) (r : Run),
      let l := getLathe s i.lathe
      let n := (greg l i.rb).toNat
      let a := (greg l i.ra).toNat
      let d := (greg l i.rd).toNat
      runsOn i s [i.rd, i.ra, i.rb] (bcopyCost n) r = true → a + n ≤ r.dealt.pkt.frame.length → d + n ≤ 65536 →
      i.flag = false → badLocal l d n = none →
      exec (.bcopy i) s =
        .next (retired s r (updRunPkt s i.lathe fun p =>
          { p with frame := putBytes p.frame a p.frame.length (localBytes l d n) }) i (bcopyCost n) (nextPc r)))) ∧
  (∀ (i : LInsn) (s : State) (r : Run),
      let l := getLathe s i.lathe
      let n := (greg l i.rb).toNat
      let a := (greg l i.ra).toNat
      let f := r.dealt.pkt.frame
      runsOn i s [i.rd, i.ra, i.rb] (crcCost n) r = true → a + n ≤ f.length →
      exec (.crc i) s =
        .next (retired s r
          (setRd s i (BitVec.ofNat 64 (crcRefl 0x82F63B78 (fld (greg l i.rd) 0 32) (slice f a n))))
          i (crcCost n) (nextPc r))) ∧
  (∀ (i : LInsn) (s : State) (r : Run),
      let l := getLathe s i.lathe
      let a := (greg l i.ra).toNat
      runsOn i s [i.ra] 72 r = true → a + 64 ≤ 65536 → badLocal l a 64 = none →
      exec (.sha i) s = .next (retired s r (setRdFree s i) i 72 (nextPc r))) ∧
  (∀ (i : LInsn) (s : State) (r : Run),
      runsOn i s [] 4 r = true →
      exec (.exit i) s =
        .next (offerResult (updLathe (retired s r s i 4 (nextPc r) 0 false true) i.lathe fun l => { l with packets := l.packets + 1 })
          i.lathe))

/-- A doorbell with a new index within its ring moves the HOST index (on a completion ring the completions held for it then go
out, on an event ring EVENTS_LOST first), and any other posts DOORBELL_INVALID; a write of RING_CTRL enables a ring with
its indices at zero, its space returned, or changes it; a DMA error stops a ring; a vector fires TIME_US after its first
entry; reads return the register, clear its RC fields and take the snapshots of fingerprints and of DT, whatever bytes
of it are read, a read that touches two registers otherwise returning zero and doing nothing, and on M0 words are read in
turn; 32-bit words written go to their registers in turn: a global register acts for the owner and is otherwise counted
as refused, one of the master's own acts, and a narrower or misaligned write is ignored; a payload that arrives runs its
order. What else could change stays as it was. -/
def Obligations.HostRegisterAccessesTakeEffect : Prop :=
  ((∀ (m : Master) (page : Nat) (v : BitVec 64) (s : State),
      let n := fld v 0 8
      let x := BitVec.ofNat 16 (fld v 16 16)
      m ≠ .m0 → barOk s m = true → n / 16 = page → doorbellOk (getRing s m n) v.toNat x = true →
      (getRing s m n).type ≠ 1 → (getRing s m n).type ≠ 2 →
      exec (.doorbellWrite m page v true) s = .next (updRing s m n fun q => { q with host := x })) ∧
    (∀ (m : Master) (page : Nat) (v : BitVec 64) (s : State),
      let n := fld v 0 8
      let x := BitVec.ofNat 16 (fld v 16 16)
      m ≠ .m0 → barOk s m = true → n / 16 = page → doorbellOk (getRing s m n) v.toNat x = true → (getRing s m n).type = 1 →
      exec (.doorbellWrite m page v true) s =
        .next (releaseHeld s.host.held
          ((updRing s m n fun q => { q with host := x }).updHost fun h => { h with held := [] }) m n)) ∧
    (∀ (m : Master) (page : Nat) (v : BitVec 64) (s : State),
      let n := fld v 0 8
      let x := BitVec.ofNat 16 (fld v 16 16)
      m ≠ .m0 → barOk s m = true → n / 16 = page → doorbellOk (getRing s m n) v.toNat x = true → (getRing s m n).type = 2 →
      exec (.doorbellWrite m page v true) s = .next (eventsLost (updRing s m n fun q => { q with host := x }) m n)) ∧
    (∀ (m : Master) (page : Nat) (v : BitVec 64) (s : State),
      let n := fld v 0 8
      let x := BitVec.ofNat 16 (fld v 16 16)
      m ≠ .m0 → barOk s m = true → (n / 16 ≠ page ∨ doorbellOk (getRing s m n) v.toNat x = false) →
      exec (.doorbellWrite m page v true) s = .next (postTo s 0x0206 0 v.toNat m))) ∧
  ((∀ (m : Master) (n : Nat) (v : Word) (s : State),
      let r := getRing s m n
      let q : Ring := { r with type := fld v 1 3, size := fld v 4 4, cmpl := if fld v 1 3 = 0 then fld v 8 8 else 0,
                               vector := fld v 16 6, irqEn := bit v 22, slot := fld v 24 2 }
      barOk s m = true → n < ringCount m → r.enable = false → bit v 0 = true → enableOk s m q = true →
      exec (.ringCtrlWrite m n v) s =
        .next (spaceReturned (updRing s m n fun _ =>
          { q with enable := true, dev := 0, host := 0, stopped := false, phase := true,
                   evLost := if q.type = 2 then r.evLost else 0, ownLast := false }) m n q.type)) ∧
    (∀ (m : Master) (n : Nat) (v : Word) (s : State),
      let r := getRing s m n
      let q : Ring := { r with type := fld v 1 3, size := fld v 4 4, cmpl := if fld v 1 3 = 0 then fld v 8 8 else 0,
                               vector := fld v 16 6, irqEn := bit v 22, slot := fld v 24 2 }
      barOk s m = true → n < ringCount m → r.enable = false → (bit v 0 = false ∨ enableOk s m q = false) →
      exec (.ringCtrlWrite m n v) s = .next (updRing s m n fun _ => q)) ∧
    (∀ (m : Master) (n : Nat) (v : Word) (s : State),
      let r := getRing s m n
      barOk s m = true → n < ringCount m → r.enable = true → bit v 0 = false → r.type = 1 → namedByCommand s m n = true →
      exec (.ringCtrlWrite m n v) s = .next s) ∧
    (∀ (m : Master) (n : Nat) (v : Word) (s : State),
      let r := getRing s m n
      barOk s m = true → n < ringCount m → r.enable = true → (bit v 0 = true ∨ r.type ≠ 1 ∨ namedByCommand s m n = false) →
      exec (.ringCtrlWrite m n v) s =
        .next (updRing s m n fun q => { q with enable := bit v 0, vector := fld v 16 6, irqEn := bit v 22 }))) ∧
  ((∀ (m : Master) (n : Nat) (s : State),
      let t := updRing s m n fun r => { r with fault := true, stopped := true }
      (getRing s m n).enable = true → (getRing s m n).type ≠ 2 →
      exec (.ringFault m n) s = .next (postTo t 0x0207 0 n m)) ∧
    (∀ (m : Master) (n : Nat) (s : State),
      let t := updRing s m n fun r => { r with fault := true, stopped := true }
      (getRing s m n).enable = true → (getRing s m n).type = 2 →
      exec (.ringFault m n) s = .next t)) ∧
  (∀ (m : Master) (v : Nat) (s : State) (t : Nat),
      let x := getVec s m v
      x.since = some t → x.timeUs ≠ 0 → t + x.timeUs * 1000 ≤ s.tb.now →
      exec (.msixModerationTimer m v) s = .next (fire s m v)) ∧
  ((∀ (m : Master) (a : RegAcc) (s : State),
      exec (.portInfoRead m a) s = .next (busRead s m 0x0200 a) ∧ exec (.fpActive0Read m a) s = .next (busRead s m 0x40 a) ∧
      exec (.fpCommit0Read m a) s = .next (busRead s m 0x50 a) ∧
      exec (.dtSnap0Read m a) s = .next (busRead s m 0x1084 a) ∧
      (∀ n, n < 256 → exec (.ringStatusRead m n a) s = .next (busRead s m (0x2010 + 32 * n) a))) ∧
    (∀ (m : Master) (off : Nat) (a : RegAcc) (s : State), barOk s m = false → busRead s m off a = s) ∧
    (∀ (m : Master) (off : Nat) (s : State), barOk s m = true → m ≠ .m0 →
      busRead s m off .word = regSide (readOut s m off (regValue s m off)) m off ∧
      (∀ byte len, byte + len ≤ 4 → busRead s m off (.part byte len) =
        regSide (readOut s m (off + byte) (regValue s m off / 2 ^ (8 * byte) % 2 ^ (8 * len))) m off) ∧
      (∀ byte len, 4 < byte + len → busRead s m off (.part byte len) = readOut s m (off + byte) 0) ∧
      busRead s m off .wide = readWord (readWord s m (off / 8 * 8)) m (off / 8 * 8 + 4)) ∧
    (∀ (off n : Nat) (s : State), barOk s .m0 = true → busRead s .m0 off (.words n) =
      (readWords s .m0 off n).updHost fun h => { h with m0Off := BitVec.ofNat 16 (off + 4 * n) }) ∧
    (∀ (m : Master) (off n : Nat) (s : State), readWords s m off 0 = s ∧
      readWords s m off (n + 1) = readWords (readWord s m off) m (off + 4) n)) ∧
  (∀ (m : Master) (s : State),
      m ≠ .m0 → barOk s m = true →
      exec (.portInfoRead m .word) s =
        .next (updPort (readOut s m 0x0200 (portInfo s m)) m fun p => { p with missed := 0, refused := 0 })) ∧
  (∀ (m : Master) (n : Nat) (s : State),
      let t := readOut s m (0x2010 + 32 * n) (ringStatus (getRing s m n))
      m ≠ .m0 → barOk s m = true → n < ringCount m →
      exec (.ringStatusRead m n .word) s = .next (updRing t m n fun r => { r with lost := 0 })) ∧
  (∀ (m : Master) (s : State),
      m ≠ .m0 → barOk s m = true → s.mode.mode ≠ .dormant →
      exec (.fpActive0Read m .word) s =
        .next ((readOut s m 0x40 (fld s.fp.active 0 32)).updFp fun p =>
               { p with snapActive := p.snapActive.set (mIdx m) p.active })) ∧
  (∀ (m : Master) (s : State),
      m ≠ .m0 → barOk s m = true → s.mode.mode ≠ .dormant →
      exec (.fpCommit0Read m .word) s =
        .next ((readOut s m 0x50 (fld s.fp.committed 0 32)).updFp fun p =>
               { p with snapCommit := p.snapCommit.set (mIdx m) p.committed })) ∧
  (∀ (m : Master) (s : State),
      m ≠ .m0 → barOk s m = true → s.mode.mode ≠ .dormant →
      exec (.dtSnap0Read m .word) s =
        .next ((readOut s m 0x1084 (fld (dtWord s.tb.dt) 0 32)).updTb fun b =>
               { b with snap := b.snap.set (mIdx m) (dtWord b.dt) })) ∧
  ((∀ (m : Master) (off : Nat) (ws : List Word) (s : State),
      barOk s m = true → off % 4 = 0 → (m = .m0 ∨ ws.length = 1 ∨ (ws.length = 2 ∧ off % 8 = 0)) →
      exec (.registerWrite m off ws true) s =
        .next (if m = .m0 then (wordWrites s m off ws).updHost fun h => { h with m0Off := BitVec.ofNat 16 (off + 4 * ws.length) }
          else wordWrites s m off ws)) ∧
    (∀ (m : Master) (off : Nat) (v : Word) (ws : List Word) (s : State), wordWrites s m off [] = s ∧
      wordWrites s m off (v :: ws) = wordWrites (wordWrite s m off v) m (off + 4) ws) ∧
    (∀ (m : Master) (off : Nat) (v : Word) (s : State),
      barOk s m = true → globalReg off = true → s.own.owner = some m → off ≠ 0x0108 → off ≠ 0x010C →
      wordWrite s m off v = globalWrite s off v) ∧
    (∀ (m : Master) (off : Nat) (v : Word) (s : State),
      barOk s m = true → globalReg off = true → s.own.owner ≠ some m → off ≠ 0x0108 → off ≠ 0x010C →
      wordWrite s m off v = updPort s m fun p => { p with refused := satAdd 16 p.refused 1 }) ∧
    (∀ (m : Master) (off : Nat) (v : Word) (s : State),
      globalReg off = false → off ≠ 0x0108 → off ≠ 0x010C →
      wordWrite s m off v = localWrite s m off v) ∧
    (∀ (m : Master) (v : Word) (s : State), wordWrite s m 0x0108 v = claimWrite s m v ∧
      wordWrite s m 0x010C v = renewWrite s m v) ∧
    (∀ (m : Master) (off : Nat) (ws : List Word) (s : State),
      (barOk s m = false ∨ off % 4 ≠ 0 ∨ (m ≠ .m0 ∧ ws.length ≠ 1 ∧ ¬ (ws.length = 2 ∧ off % 8 = 0))) →
      exec (.registerWrite m off ws true) s = .next s) ∧
    (∀ (m : Master) (off : Nat) (ws : List Word) (s : State), exec (.registerWrite m off ws false) s = .next s)) ∧
  (∀ (i : Nat) (data : PtrData) (s : State) (e : Running),
      s.host.awaiting[i]? = some e → payloadOf s e.order data ≠ .later →
      ∃ t, runOpcode e.opcode { e.order with data := payloadOf s e.order data } 0 s = .next t ∧
        exec (.payloadDmaDone i data) s =
          .next (retryStarts (t.updHost fun h => { h with awaiting := h.awaiting.erase e })))

/-- On H0 and H1, PERST_N and the loss of a link reset the port (its rings and vectors disabled, completions held for it
dropped); a link comes up once the rails are in regulation, H1's only where STRAP2 allows it; a write of the configuration
space sets or clears bus mastering, Memory Space Enable, MSI-X Enable, Function Mask and D3hot. On M0, while VAUX is present, ENTDAA and SETDASA (to the strapped static
address) assign an address where there is none, RSTDAA takes it away, ENEC and DISEC enable and disable in-band
interrupts, and GETPID, GETBCR, GETDCR and GETSTATUS answer an attached master with the part's identities (opaque
constants: log entry 1 says where). Nothing else changes. -/
def Obligations.PortsAndManagementBusTakeEffect : Prop :=
  (∀ (m : Master) (s : State),
      m ≠ .m0 →
      exec (.perstNAssert m) s = .next (portReset s m true)) ∧
  (∀ (m : Master) (s : State),
      m ≠ .m0 → (s.host.ports.get m).linkUp ≠ false →
      exec (.pcieLinkDown m) s = .next (portReset s m (s.host.ports.get m).perst)) ∧
  (∀ (m : Master) (rate width : Nat) (s : State),
      m ≠ .m0 → s.mode.mode ≠ .dormant → (m ≠ .h1 ∨ bit s.pin.straps 2 ≠ true) →
      exec (.pcieLinkUp m rate width) s =
        .next (updPort s m fun p => { p with linkUp := true, perst := false, rate := rate % 8, width := width % 8 })) ∧
  (∀ (m : Master) (c : CfgSpace) (s : State),
      m ≠ .m0 → (s.host.ports.get m).linkUp ≠ false →
      exec (.busMasterEnableSet m c) s =
        .next (shadowPortLost (pendingMsix (updPort s m fun p =>
          { p with busMaster := true, memEn := c.mse, msixEn := c.msixEn, funcMask := c.funcMask, d3hot := c.d3hot }) m) m)) ∧
  (∀ (m : Master) (c : CfgSpace) (s : State),
      m ≠ .m0 → (s.host.ports.get m).linkUp ≠ false →
      exec (.busMasterEnableClear m c) s =
        .next (shadowPortLost (pendingMsix (updPort s m fun p =>
          { p with busMaster := false, memEn := c.mse, msixEn := c.msixEn, funcMask := c.funcMask, d3hot := c.d3hot }) m) m)) ∧
  (∀ (a : BitVec 7) (s : State),
      s.pin.vaux = true → s.host.m0Addr.isNone = true →
      exec (.entdaa a) s = .next (s.updHost fun h => { h with m0Addr := some a })) ∧
  (∀ (target a : BitVec 7) (s : State),
      s.pin.vaux = true → s.host.m0Addr.isNone = true → target = m0Static s →
      exec (.setdasa target a) s = .next (s.updHost fun h => { h with m0Addr := some a })) ∧
  (∀ s : State,
      s.pin.vaux = true →
      exec .rstdaa s = .next (s.updHost fun h => { h with m0Addr := none })) ∧
  (∀ s : State,
      s.pin.vaux = true → s.host.m0Addr.isSome = true →
      exec .getpid s = .next (s.emit (.i3c false (Config.i3cPid false).toNat))) ∧
  (∀ s : State,
      s.pin.vaux = true → s.host.m0Addr.isSome = true →
      exec .getbcr s = .next (s.emit (.i3c false Config.i3cBcr.toNat))) ∧
  (∀ s : State,
      s.pin.vaux = true → s.host.m0Addr.isSome = true →
      exec .getdcr s = .next (s.emit (.i3c false Config.i3cDcr.toNat))) ∧
  (∀ s : State,
      s.pin.vaux = true → s.host.m0Addr.isSome = true →
      exec .getstatus s = .next (s.emit (.i3c false (Config.i3cStatus false).toNat))) ∧
  (∀ s : State,
      s.pin.vaux = true →
      exec .enec s = .next (s.updHost fun h => { h with m0Ibi := true })) ∧
  (∀ s : State,
      s.pin.vaux = true →
      exec .disec s = .next (s.updHost fun h => { h with m0Ibi := false }))

/-- VAUX lost leaves a machine at its reset values but for the epoch (18 R564); VAUX back samples the straps and the
inputs; the input sense out of its range, or PWRGOOD lost, takes the device to DORMANT, and in range it counts towards
the conditions; once they have held 10 ms the rails ramp, and in regulation a new epoch's cold start begins;
SYSRESET_N resets the bus, the registers and any start, and its end samples the straps. The TAP's instructions select
and shift as 18 R567 says (EXTEST, CLAMP and HIGHZ act in DORMANT with STRAP3 set, else they are decoded as BYPASS); a GPIO's
change of level sets its edge bit. -/
def Obligations.PowerPinsResetsAndTestPortTakeEffect : Prop :=
  ((∀ s : State, exec .vauxLost s = .next (vauxOff s)) ∧
    (∀ s : State,
      let t := vauxOff s
      t.pin.vaux = false ∧ t.own = OwnSt.reset ∧ t.mode = State.reset.mode ∧ t.host = State.reset.host ∧ t.fp = State.reset.fp ∧
      t.log.epoch = s.log.epoch ∧ t.log.blocks = [] ∧ t.tb.now = s.tb.now ∧ t.tb.dt = 0)) ∧
  (∀ (straps : BitVec 4) (flowBad trayBad pwrBad : Bool) (s : State),
      let b := (vauxOff s).updPin fun p => { p with vaux := true, straps := straps }
      let t := inAtPower (inAtPower (inAtPower b 0 flowBad) 1 trayBad) 2 pwrBad
      let t1 := if flowBad then setLatch t 1 false else t
      let t2 := if trayBad then setLatch t1 2 false else t1
      exec (.vauxPowerUp straps flowBad trayBad pwrBad) s = .next (conditions b t2)) ∧
  (∀ (cv : Nat) (s : State),
      (cv < 3800 ∨ 6200 < cv) →
      exec (.v48InputLost cv) s = .next (toDormant (conditions s (s.updPwr fun p => { p with vinCv := cv })))) ∧
  (∀ (cv : Nat) (s : State),
      s.pin.vaux = true → 4000 ≤ cv → cv ≤ 6000 →
      exec (.v48InputInRange cv) s = .next (conditions s (s.updPwr fun p => { p with vinCv := cv }))) ∧
  (∀ (chatter : Bool) (s : State),
      let t := inFault s 2 chatter
      let t1 := if s.riv.pwrgoodSeen && !s.riv.pwrgood.fault then setLatch t 3 chatter else t
      s.pin.vaux = true →
      exec (.pwrgoodLost chatter) s = .next (toDormant (conditions s t1))) ∧
  (∀ (s : State) (t : Nat),
      s.mode.condSince = some t → s.mode.mode = .dormant → s.mode.ramp = false → t + 10000000 ≤ s.tb.now →
      exec .powerConditionsHeld s = .next (s.updMode fun m => { m with ramp := true })) ∧
  (∀ (s : State),
      let t := s.updMode fun m => { m with ramp := false, condSince := none, dormantHeld := false }
      let t1 := t.updLog fun l => { l with epoch := l.epoch + 1 }
      let t2 := t1.updRiv fun r => { r with heartbeatAt := s.tb.now }
      s.mode.ramp = true →
      exec .railsInRegulation s = .next (beginStart t2 false 1 none)) ∧
  (∀ (s : State),
      let t := refreshEls (registerReset (abortStart (busReset s) 3))
      let t1 := if awake t && t.mode.mode != .halt && !t.mode.haltEntry then beginStart t false 2 none else t
      s.pin.vaux = true → s.pin.sysreset = false →
      exec .sysresetN s = .next (conditions s t1)) ∧
  (∀ (straps : BitVec 4) (s : State),
      s.pin.sysreset = true →
      exec (.sysresetDeassert straps) s =
        let t := s.updPin fun p => { p with straps := straps, sysreset := false }
        .next (if bit straps 2 then portReset t .h1 s.host.ports.h1.perst else t)) ∧
  (∀ s : State,
      s.pin.vaux = true →
      exec .tapReset s = .next (s.updPin fun p => { p with tap := .idcode })) ∧
  (∀ (s : State),
      s.pin.vaux = true →
      exec .idcode s = .next ((setTap s .idcode).emit (.tdo 0x10204A4B))) ∧
  (∀ s : State,
      s.pin.vaux = true →
      exec .bypass s = .next (s.updPin fun p => { p with tap := .bypass })) ∧
  (∀ (sample load : List Bool) (s : State),
      s.pin.vaux = true →
      exec (.samplePreload sample load) s =
        .next (((setTap s .samplePreload).updPin fun p => { p with boundary := load }).emit (.tdo (bitsNat sample))
          )) ∧
  ((∀ s : State,
      s.pin.vaux = true →
      exec .extest s = .next (s.updPin fun p => { p with tap := .extest })) ∧
    (∀ s : State, (s.pin.tap = .extest ∨ s.pin.tap = .clamp ∨ s.pin.tap = .highz) →
      bit s.pin.straps 3 = true → s.mode.mode = .dormant → tapDecoded s = s.pin.tap) ∧
    (∀ s : State, (s.pin.tap = .extest ∨ s.pin.tap = .clamp ∨ s.pin.tap = .highz) →
      (bit s.pin.straps 3 = false ∨ s.mode.mode ≠ .dormant) → tapDecoded s = .bypass)) ∧
  (∀ s : State,
      s.pin.vaux = true →
      exec .clamp s = .next (s.updPin fun p => { p with tap := .clamp })) ∧
  (∀ s : State,
      s.pin.vaux = true →
      exec .highz s = .next (s.updPin fun p => { p with tap := .highz })) ∧
  (∀ (i : Nat) (driven : Bool) (s : State),
      let level := if bit s.pin.gpioDir i then bit s.pin.gpioOut i else driven
      s.pin.vaux = true → i < 8 → bit s.pin.gpioIn i ≠ level →
      exec (.gpioEdgeDetect i driven) s =
        .next (s.updPin fun p =>
               { p with gpioIn := putBit p.gpioIn i level, gpioRise := if level then putBit p.gpioRise i true else p.gpioRise,
                        gpioFall := if level then p.gpioFall else putBit p.gpioFall i true }))

/-- FLOWFAIL_N or TRAYSTOP_N accepted as faulted sets its latch and begins HALT entry; an input's filter gives unfaulted
or ends its chatter; the owner's write of 1 clears FLOW_LATCH, TRAYSTOP_LATCH and CRITTEMP_LATCH once the input has
been clean for 100 ms (and not before), FATAL_LATCH once the record has been read, TRAY_BUS_FAULT, and each named
LASER_ALARM latch once in range for 100 ms, while another master's write is counted as refused; the tray bus assigns,
clears and answers by its common command codes, and writes its registers (HEARTBEAT among them); a bus fault and a
condition held for 1 s post their advisories. Nothing else changes. -/
def Obligations.TrayAndLatchesTakeEffect : Prop :=
  (∀ (c : Bool) (s : State),
      s.pin.vaux = true →
      exec (.flowfailFault c) s = .next (enterHalt (conditions s (setLatch (inFault s 0 c) 1 c)))) ∧
  (∀ (c : Bool) (s : State),
      s.pin.vaux = true →
      exec (.traystopFault c) s = .next (enterHalt (conditions s (setLatch (inFault s 1 c) 2 c)))) ∧
  (∀ (i : Nat) (s : State),
      s.pin.vaux = true → i ≤ 2 → (getIn s.riv i).chatter = false →
      exec (.rivelInputUnfaulted i) s = .next (conditions s (inClean s i))) ∧
  ((∀ (i : Nat) (faulted : Bool) (s : State),
      s.pin.vaux = true → i ≤ 2 → (getIn s.riv i).chatter = true → faulted = true →
      exec (.chatterEnd i faulted) s = .next (updIn s i fun x => { x with chatter := false })) ∧
    (∀ (i : Nat) (faulted : Bool) (s : State),
      s.pin.vaux = true → i ≤ 2 → (getIn s.riv i).chatter = true → faulted = false →
      exec (.chatterEnd i faulted) s = .next (conditions s (inClean s i)))) ∧
  ((∀ (m : Master) (s : State),
      barOk s m = true → s.own.owner = some m → s.riv.flowLatch = true → s.riv.flow.fault = false → s.riv.flow.chatter = false →
      longClean s s.riv.flow.cleanSince = true →
      exec (.flowLatchClear m) s = .next (afterClear s (s.updRiv fun r => { r with flowLatch := false }) 1)) ∧
    (∀ (m : Master) (s : State),
      barOk s m = true → s.own.owner = some m → longClean s s.riv.flow.cleanSince = false → exec (.flowLatchClear m) s = .next s) ∧
    (∀ (m : Master) (s : State),
      barOk s m = true → s.own.owner ≠ some m →
      exec (.flowLatchClear m) s = .next (updPort s m fun p => { p with refused := satAdd 16 p.refused 1 }))) ∧
  (∀ (m : Master) (s : State),
      barOk s m = true → s.own.owner = some m → s.riv.trayLatch = true → s.riv.tray.fault = false → s.riv.tray.chatter = false →
      longClean s s.riv.tray.cleanSince = true →
      exec (.traystopLatchClear m) s = .next (afterClear s (s.updRiv fun r => { r with trayLatch := false }) 2)) ∧
  (∀ (m : Master) (s : State),
      barOk s m = true → s.own.owner = some m → s.riv.critLatch = true → awake s = true → longClean s s.riv.critCleanSince = true →
      exec (.crittempLatchClear m) s =
        .next (afterClear s (s.updRiv fun r =>
          { r with critLatch := false, thermtrip := r.thermtrip && decide (s.tb.now < r.thermtripUntil) }) 4)) ∧
  (∀ (m : Master) (s : State),
      barOk s m = true → s.own.owner = some m → s.riv.busFault = true →
      exec (.trayBusFaultClear m) s = .next (postAdvisory (noteTray s (s.updRiv fun r => { r with busFault := false })) 4 false)) ∧
  (∀ (m : Master) (s : State),
      barOk s m = true → s.own.owner = some m → s.err.fatalLatch = true → s.err.fatalRead = true →
      exec (.fatalLatchClear m) s =
        .next (noteTray s (s.updErr fun e =>
          { e with fatalLatch := false, fatalRead := false, fatal := { e.fatal with opened := false } }))) ∧
  ((∀ (m : Master) (v : Word) (s : State),
      barOk s m = true → s.own.owner = some m →
      exec (.laserAlarmClear m v) s = .next (((List.range 32).filter fun e => bit v e).foldl clearLaser s)) ∧
    (∀ (s : State) (e t : Nat),
      let g := getEng s e
      (g.lowLatch || g.highLatch) = true → g.clearSince = some t → t + 100000000 ≤ s.tb.now →
      clearLaser s e = (enginePorts (updEng s e fun g => { g with lowLatch := false, highLatch := false }) e).foldl refreshLf
        (postAll (updEng s e fun g => { g with lowLatch := false, highLatch := false }) 0x0405 0 e)) ∧
    (∀ (s : State) (e : Nat), (getEng s e).clearSince = none → clearLaser s e = s)) ∧
  (∀ (target a : BitVec 7) (s : State),
      s.pin.vaux = true → s.riv.trayAddr.isNone = true → target = 0x2A →
      exec (.traySetdasa target a) s = .next (s.updRiv fun r => { r with trayAddr := some a })) ∧
  (∀ (a : BitVec 7) (s : State),
      s.pin.vaux = true → s.riv.trayAddr.isNone = true →
      exec (.trayEntdaa a) s = .next (s.updRiv fun r => { r with trayAddr := some a })) ∧
  (∀ s : State,
      s.pin.vaux = true →
      exec .trayRstdaa s = .next (s.updRiv fun r => { r with trayAddr := none })) ∧
  (∀ s : State,
      trayBusOn s = true →
      exec .trayGetpid s = .next (s.emit (.i3c true (Config.i3cPid true).toNat))) ∧
  (∀ s : State,
      trayBusOn s = true →
      exec .trayGetstatus s = .next (s.emit (.i3c true (Config.i3cStatus true).toNat))) ∧
  (∀ s : State,
      s.pin.vaux = true →
      exec .trayEnec s = .next (s.updRiv fun r => { r with trayIbi := true })) ∧
  (∀ s : State,
      s.pin.vaux = true →
      exec .trayDisec s = .next (s.updRiv fun r => { r with trayIbi := false })) ∧
  (∀ (index : Byte) (data : List Byte) (reads : Nat) (s : State),
      let t := advRefresh (trayBytes s index.toNat data)
      let i := t.riv.trayIndex
      trayBusOn s = true →
      exec (.trayRegisterWrite index data reads) s =
        .next (if reads = 0 then t else
          (t.emit (.i3c true (packN ((List.range reads).map fun k => (8 * k, 8, trayReg t ((i + k) % 256)))))).updRiv
            fun r => { r with trayIndex := (i + reads) % 256 })) ∧
  (∀ (v : Byte) (s : State),
      trayBusOn s = true →
      exec (.heartbeat v) s = .next (trayBytes s 0x14 [v])) ∧
  (∀ (s : State),
      s.pin.vaux = true → s.riv.busFault = false →
      exec .trayBusFault s = .next (postAdvisory (noteTray s (s.updRiv fun r => { r with busFault := true })) 4 true)) ∧
  ((∀ s : State,
      s.pin.vaux = true → heldSecond s s.riv.advFlowAt = true →
      exec (.trayAdvisory 1) s =
        .next (postAdvisory (s.updRiv fun r => { r with advFlow := !r.advFlow, advFlowAt := none }) 1 (!s.riv.advFlow))) ∧
    (∀ s : State,
      s.pin.vaux = true → heldSecond s s.riv.advInletAt = true →
      exec (.trayAdvisory 2) s =
        .next (postAdvisory (s.updRiv fun r => { r with advInlet := !r.advInlet, advInletAt := none }) 2 (!s.riv.advInlet))) ∧
    (∀ s : State,
      s.pin.vaux = true → awake s = true → s.riv.advHeart = false → s.riv.heartbeatAt + 1000000000 ≤ s.tb.now →
      exec (.trayAdvisory 3) s = .next (postAdvisory (s.updRiv fun r => { r with advHeart := true }) 3 true)))

/-- During a start and outside HALT entry, a finished step of the sequence moves it on (or ends the start, when it
failed), and the end of step 8, which runs beside steps 5 to 7, records its calibrations and moves on only from step
8; a critical temperature asserts THERMTRIP_N for 100 ms, sets its latch and begins HALT entry; HALT entry ends in
HALT with packets discarded, the open block closed and HALT_NOTICE posted; its block is signed; DRAM self-refreshes;
and the rails restored, the cold start that waited begins. Nothing else changes. -/
def Obligations.StartsAndHaltTakeEffect : Prop :=
  ((∀ (lanes : Bool) (fail : Option Nat) (cals : List (Nat × LaneCal)) (test : SelfTest) (s : State),
      let t := (laneWork s cals).updMode fun m => { m with laneDone := true }
      s.mode.active = true → s.mode.haltEntry = false → lanes = true → s.mode.laneDone = false → 5 ≤ s.mode.step →
      s.mode.step ≤ 8 → s.mode.step = 8 →
      exec (.startStepDone lanes fail cals test) s = .next (sequenceStep t none test)) ∧
    (∀ (lanes : Bool) (fail : Option Nat) (cals : List (Nat × LaneCal)) (test : SelfTest) (s : State),
      let t := (laneWork s cals).updMode fun m => { m with laneDone := true }
      s.mode.active = true → s.mode.haltEntry = false → lanes = true → s.mode.laneDone = false → 5 ≤ s.mode.step →
      s.mode.step ≤ 8 → s.mode.step ≠ 8 →
      exec (.startStepDone lanes fail cals test) s = .next t) ∧
    (∀ (lanes : Bool) (fail : Option Nat) (cals : List (Nat × LaneCal)) (test : SelfTest) (s : State),
      s.mode.active = true → s.mode.haltEntry = false → lanes = false → s.mode.step ≠ 8 → stepReady s = true →
      exec (.startStepDone lanes fail cals test) s = .next (sequenceStep s fail test))) ∧
  (∀ (s : State),
      let t := s.updRiv fun r => { r with thermtrip := true, thermtripUntil := s.tb.now + 100000000, critCleanSince := none }
      awake s = true →
      exec .crittempTrip s = .next (enterHalt (setLatch t 4 false))) ∧
  (∀ (s : State),
      let t := darkLanes (discardPackets (endOrders s dataPlaneOrder))
      let t1 := closeBlock ((t.updTb fun b => { b with ppsOut := false }).updTbl fun x => { x with gone := true }) 5
      let t2 := setMode (t1.updMode fun m => { m with haltEntry := false, ready := false }) .halt
      let t3 := postAll t2 0x1001 0 (packN [(0, 1, b2n t2.riv.flowLatch), (1, 1, b2n t2.riv.trayLatch),
        (2, 1, b2n t2.riv.critLatch), (3, 1, b2n t2.err.fatalLatch)])
      s.mode.haltEntry = true →
      exec .haltEntryDone s = .next (retryStarts t3)) ∧
  (∀ (s : State) (b : Block),
      let sg := ecSign Config.deviceKey (bytesBE 128 b.header.toNat) (fun k => freeNat s / 2 ^ (384 * k)) 4
      let t := s.drawn.updLog fun l =>
        { l with blocks := l.blocks.map fun x => if x.number = b.number then { x with sig := some sg } else x }
      (s.log.blocks.find? fun x => x.sig.isNone && x.why == 5) = some b →
      exec .haltBlockSigned s = .next (finishReads t.host.running t b.number (blockBytes b sg))) ∧
  (∀ (s : State),
      s.mode.mode = .halt →
      exec .dramSelfRefresh s = .next (s.updPwr fun p => { p with dramSelfRefresh := true })) ∧
  (∀ (s : State) (o : Order),
      let joined := s.mode.joined
      let t := s.updPwr fun p => { p with dramSelfRefresh := false }
      s.mode.mode = .halt → s.mode.restore = some o →
      exec .haltRailsRestored s =
        .next ((beginStart t false (if o.b 0 then 5 else 3) (some o)).updMode fun m => { m with joined := joined }
          ))

/-- A microsecond of the controller takes its readings and shares the budget (in DORMANT it only reads the sense); 100 ns
move the slope limit; a rail above its limit gates, counts, and is fatal where 16 R503 says; a request is granted what
the headroom allows (PRERAMP_SHORT when less), its ramp is reported when the ballast covers the grants, and it is
withdrawn after its time with its share of the ballast; a pending phase takes effect at its instant and the change of
operating point ends; a sample sets TJ_MAX and HOTWARN, and a millisecond steps the thermal reduction. Nothing else
changes. -/
def Obligations.PowerAndThermalControlTakesEffect : Prop :=
  ((∀ (vin inputW loadW : Nat) (demand floors rails : List Nat) (s : State),
      s.pin.vaux = true → awake s = true →
      exec (.powerControlTick vin inputW loadW demand floors rails) s =
        .next (setPower s (controlTick vin inputW loadW demand floors rails))) ∧
    (∀ (vin inputW loadW : Nat) (demand floors rails : List Nat) (s : State),
      let t := s.updPwr fun p => { p with vinCv := vin }
      s.pin.vaux = true → awake s = false →
      exec (.powerControlTick vin inputW loadW demand floors rails) s =
        .next (if s.mode.ramp then t else conditions s t))) ∧
  (∀ (want : Nat) (s : State),
      awake s = true →
      exec (.slopeTick want) s = .next (setPower s (slopeTick want))) ∧
  (∀ (j current : Nat) (held : Bool) (s : State),
      let t := setPower s fun p =>
        { p with railA := p.railA.set j current, railEv := p.railEv.modify j fun k => (k + 1) % 65536,
                 gateRail := p.gateRail || j != 5 }
      let t1 := winEvent t 0x1006 j j 32 32 1
      j < 6 → railLimit j < current → (awake s = true ∨ j = 5) → s.pin.vaux = true →
      exec (.railLimitExceeded j current held) s =
        .next (if j = 5 || held || decide (railLimit j * 125 < current * 100) then fatalError t1 0x0D j current else t1)) ∧
  (∀ (s : State) (r : PreRamp),
      let p := s.pwr
      let room := loadBudget p + p.ballastDw / 10 - p.loadW - grants p
      let g := if p.prerampEn then min r.askW room else 0
      let t := s.updPwr fun q => { q with requests := receive (fun _ => g) q.requests }
      (s.pwr.requests.find? fun r => !r.received) = some r →
      exec .prerampRequest s =
        .next (if p.prerampEn && decide (g < r.askW) then
            postAll t 0x1007 0 (packN [(0, 4, r.unit), (4, 11, r.askW), (15, 11, g)])
          else t)) ∧
  (∀ (n : Nat) (s : State),
      let mine := fun (r : PreRamp) => r.ctx == n && r.received && !r.done
      let t := s.updPwr fun p => { p with requests := p.requests.map fun r => if mine r then { r with done := true } else r }
      s.pwr.prerampEn = true → s.pwr.requests.any mine = true → 10 * grants s.pwr ≤ s.pwr.ballastDw →
      exec (.rampComplete n) s = .next (if (getCtx t n).relWait && !rampHolds t n then ownRelease t n else t)) ∧
  (∀ (n : Nat) (s : State),
      let due := fun (r : PreRamp) => r.ctx == n && (match r.relAt with
        | some t => decide (t + 100000 ≤ s.tb.now)
        | none => decide (r.sentAt + 10000000 ≤ s.tb.now))
      exec (.prerampWithdraw n) s =
        .next (s.updPwr fun p =>
            let rest := p.requests.filter fun r => !due r
            let total := sumN (p.requests.map fun r => r.grantW)
            let left := p.ballastDw * sumN (rest.map fun r => r.grantW) / max total 1
            { p with requests := rest, ballastDw := left, estimateDw := p.estimateDw - (p.ballastDw - left) })) ∧
  (∀ (n : Nat) (s : State),
      (getCtx s n).relWait = true → rampHolds s n = false →
      exec (.rampWaitExpiry n) s = .next (ownRelease s n)) ∧
  (∀ (s : State) (x : PendPhase),
      let t := s.updPwr fun p => { p with pend := none }
      s.pwr.pend = some x → awake s = true → x.tp ≤ s.tb.dt →
      exec .phaseTakesEffect s = .next (postPhase (enforcePhase t x.phase (getPhase t.pwr x.phase)) s.pwr.phase x.tp true)) ∧
  (∀ (s : State),
      s.pwr.oppMoving = true →
      exec .oppChangeDone s = .next (s.updPwr fun p => { p with opp := p.oppTarget, oppMoving := false })) ∧
  (∀ (temps : List Int) (s : State),
      let l := (List.range 64).map fun i => (i, temps.getD i 0)
      let h := hottest l
      let hot := decide (1600 ≤ h.2) || (s.pwr.hotwarn && decide (1552 ≤ h.2))
      let t := s.updPwr fun p =>
        { p with sensors := l.filter fun x => x.2 != 0, tjMax := h.2, tjSensor := h.1, hotwarn := hot }
      let t1 := t.updRiv fun r =>
        { r with critCleanSince := if h.2 < 1552 then some (r.critCleanSince.getD s.tb.now) else none,
                 thermtrip := r.thermtrip && (r.critLatch || decide (s.tb.now < r.thermtripUntil)) }
      let t2 := noteTray s t1
      awake s = true →
      exec (.tempSample temps) s = .next (if hot = s.pwr.hotwarn then t2 else postHot t2)) ∧
  (∀ (s : State),
      awake s = true →
      exec .thermalCapStep s =
        .next (setPower s fun p =>
               let cap := (phaseNow p).capW
               let step := cap * p.thermStepPct / 100
               let w :=
                 if 1600 ≤ p.tjMax then min p.thermW (max (floorCap p) (p.thermW - step))
                 else if p.tjMax < 1552 then min cap (p.thermW + step)
                 else p.thermW
               { p with thermW := w, gateThermal := decide (w < cap), capEff := capOf { p with thermW := w } }))

/-- A far-end signal takes a lane that awaited it to C6, and is otherwise only noted; the end of C6 writes the record and
makes the lane ready, or fails it, or (the spare) begins its time in lock, or (the lane that was
replaced) counts its lock; a recalibration writes its record, fails the lane or leaves it awaiting a signal, and
completes its order; a calliper's point goes into the scan, and the last one completes EYE_SCAN; a laser sample
updates the engine's power, warning and alarms with their events, and a new alarm abandons a sparing under way.
Nothing else changes. -/
def Obligations.LanesTakeEffect : Prop :=
  ((∀ (p : Nat) (power : Int) (s : State),
      let l := getLane s p
      l.role ≠ 0 → l.role ≠ 6 → l.state = 2 →
      exec (.laneSignalPresent p power) s =
        .next (refreshLane (updLane s p fun l => { l with signal := true, power := some power, state := 3 }) p)) ∧
    (∀ (p : Nat) (power : Int) (s : State),
      let l := getLane s p
      (l.role = 0 ∨ l.role = 6 ∨ l.state ≠ 2) →
      exec (.laneSignalPresent p power) s =
        .next (refreshLane (updLane s p fun l => { l with signal := true, power := some power }) p))) ∧
  ((∀ (p : Nat) (c : LaneCal) (s : State),
      let l := getLane s p
      let e := p / 17
      (getEng s e).spared = some p →
      exec (.laneAdaptDone p c) s =
        .next (updEng (updLane s p fun l =>
            if c.cause = 0 then { l with cdr := true, cdrAt := s.tb.now } else unlockLane s.tb.now l) e
          fun g => { g with revertLockSince := if c.cause = 0 then some s.tb.now else none })) ∧
    (∀ (p : Nat) (c : LaneCal) (s : State),
      let l := getLane s p
      let e := p / 17
      (getEng s e).spared ≠ some p → (l.state = 3 ∨ (l.role = 5 ∧ l.cdr = false)) → c.cause ≠ 0 →
      exec (.laneAdaptDone p c) s = .next (failLane s p c.cause)) ∧
    (∀ (p : Nat) (c : LaneCal) (s : State),
      let l := getLane s p
      let e := p / 17
      (getEng s e).spared ≠ some p → (l.state = 3 ∨ (l.role = 5 ∧ l.cdr = false)) → c.cause = 0 → p % 17 = 16 →
      l.role = 2 →
      exec (.laneAdaptDone p c) s =
        .next (updEng (gainCdr (updLane s p fun l => { writeCal s.tb.dt c l with state := readyState l }) p) e
          fun g => { g with spareLockSince := some s.tb.now })) ∧
    (∀ (p : Nat) (c : LaneCal) (s : State),
      let l := getLane s p
      let e := p / 17
      (getEng s e).spared ≠ some p → (l.state = 3 ∨ (l.role = 5 ∧ l.cdr = false)) → c.cause = 0 →
      (p % 17 ≠ 16 ∨ l.role ≠ 2) →
      exec (.laneAdaptDone p c) s =
        .next (gainCdr (updLane s p fun l => { writeCal s.tb.dt c l with state := readyState l }) p))) ∧
  (∀ (p : Nat) (c : LaneCal) (s : State),
      let l := getLane s p
      let t1 :=
        if c.cause ≠ 0 then failLane (updLane s p fun l => { l with recal := false, recalOrder := false }) p c.cause
        else refreshLane (updLane s p (recalibrated s p c)) p
      (getLane s p).recal = true →
      exec (.recalibrateDone p c) s =
        .next (if l.recalOrder then
            match findRunning t1 0x4403 fun o => o.inst == p with
            | some r => finishOrder t1 r (if c.cause = 0 ∧ c.awaiting then 0x0402 else stSuccess) c.cause
            | none => t1
          else t1)) ∧
  (∀ (p : Nat) (c : LaneCal) (s : State) (l : Lane),
      (c.awaiting = true →
        (recalibrated s p c l).cdr = l.cdr ∧ ((recalibrated s p c l).role ≠ 0 → (recalibrated s p c l).role ≠ 6 →
          (recalibrated s p c l).state = 2)) ∧
      (c.awaiting = false → (recalibrated s p c l).calValid = (writeCal s.tb.dt c l).calValid ∧
        (recalibrated s p c l).calCheck = (writeCal s.tb.dt c l).calCheck ∧
        ((recalibrated s p c l).role ≠ 0 → (recalibrated s p c l).cdr = true)) ∧
      (l.role ≠ 6 ∨ l.recalOrder = false ∨ (getEng s (p / 17)).spared = some p → (recalibrated s p c l).role = l.role) ∧
      (l.role = 6 → l.recalOrder = true → (getEng s (p / 17)).spared ≠ some p →
        (recalibrated s p c l).role = if (portOfPL s p).isSome then 1 else 0)) ∧
  (∀ (p errors compared : Nat) (s : State) (x : Scan) (pt : Nat × Int × Int) (rest : List (Nat × Int × Int)),
      let recs := x.done ++ [scanRecord pt x.valid errors compared]
      ((getEng s (p / 17)).scans.find? fun x => x.pl == p) = some x → x.points = pt :: rest →
      exec (.eyeScanPoint p errors compared) s =
        .next (if rest.isEmpty then
            let t := updEng s (p / 17) fun g => { g with scans := g.scans.filter fun y => y.pl != p }
            let bytes := padTo (up64 (16 * recs.length)) (recs.flatMap (bytesLE 16))
            let d := packN [(0, 32, recs.length), (32, 32, (s.tb.now - x.order.began) / 1000)]
            match findRunning t 0x0403 (· == x.order.order) with
            | some r => finishResult t r bytes d
            | none => t
          else updEng s (p / 17) fun g =>
            { g with scans := g.scans.map fun y => if y.pl == p then { y with points := rest, done := recs } else y })) ∧
  (∀ (e : Nat) (power temp : Int) (s : State),
      let g := getEng s e
      let low := decide (power < g.lowAlarm * 10)
      let high := decide (g.highAlarm * 10 < power)
      let warn := decide (power < g.lowWarn * 10)
      let hist := ((low, high) :: g.samples).take 32
      let lowA := alarmAccepted (hist.map Prod.fst)
      let highA := alarmAccepted (hist.map Prod.snd)
      let inRange := decide (g.lowAlarm * 10 + 100 ≤ power) && decide (power ≤ g.highAlarm * 10 - 100)
      let t := updEng s e fun g =>
        { g with power := power, temp := temp, samples := hist, warn := warn, lowLatch := g.lowLatch || lowA,
                 highLatch := g.highLatch || highA,
                 clearSince := if inRange then some (g.clearSince.getD s.tb.now) else none }
      let t1 := if warn && !g.warn then postLaser t e 1 power else t
      let t2 := if lowA && !g.lowLatch then postLaser t1 e 2 power else t1
      let t3 := if highA && !g.highLatch then postLaser t2 e 3 power else t2
      e < 32 →
      exec (.laserSample e power temp) s =
        .next (if (lowA && !g.lowLatch) || (highA && !g.highLatch) then
            let t3 := if g.hs.isSome then abandonSpare t3 e 5 else t3
            (enginePorts t3 e).foldl refreshLf t3
          else t3))

/-- The spare that has held lock for 10 ms stands by, and one that loses it leaves standby; a trigger of R140 that holds
begins a sparing on an engine that is ready for one (never on a part that gates this subject, code S: the model's
opaque Config.codeS says which part it is); a requester without an ACK for 1 ms abandons it; a crosspoint source that
loses its signal squelches its destinations, and one that has held lock for 1 ms, and no other, lets them transmit
again, each with its event. Nothing else changes. -/
def Obligations.SparingAndCrosspointTakeEffect : Prop :=
  (∀ (e : Nat) (s : State) (t : Nat),
      let g := getEng s e
      g.spareLockSince = some t → g.spareState = 1 → t + 10000000 ≤ s.tb.now →
      exec (.spareStandby e) s =
        .next (updLane (updEng s e fun g => { g with spareState := 2 }) (sparePL e) fun l => { l with state := 6 }
          )) ∧
  (∀ (e : Nat) (s : State),
      let g := getEng s e
      (g.spareState = 2 ∨ g.spareState = 1) →
      exec (.spareLockLost e) s =
        .next (updEng (updLane (spoilScans s (sparePL e)) (sparePL e) fun l => { unlockLane s.tb.now l with state := 3 }) e
          fun g => { g with spareState := 1, spareLockSince := none })) ∧
  (∀ (p cause : Nat) (s : State),
      let n := (portOfPL s p).getD 0
      triggerHolds s p cause = true → spareReady s (p / 17) p = true →
      exec (.spareTrigger p cause) s =
        .next (if Config.codeS then s else beginSpare s (p / 17) p (posOf s n p) cause false false)) ∧
  (∀ (e : Nat) (s : State) (h : Handshake),
      (getEng s e).hs = some h → h.requester = true → h.acked = false → h.taken = false → h.began + 1000000 ≤ s.tb.now →
      exec (.spareAckTimeout e) s = .next (abandonSpare s e 1)) ∧
  ((∀ (p : Nat) (s : State) (x : Xp),
      let t := updLane (spoilScans s p) p fun l => { unlockLane s.tb.now l with state := 2, signal := false, power := none }
      let t1 := x.dests.foldl (fun u d => (updLane u d fun l => { l with squelch := true }).emit (.squelch d true))
        (setXp t p (some { x with squelched := true }))
      getXp s p = some x → x.squelched = false →
      exec (.xpSourceLost p) s = .next (postAll t1 0x0406 0 (packN [(0, 10, p), (10, 1, 1)]))) ∧
    (∀ (p : Nat) (s : State) (x : Xp), getXp s p = some x → x.squelched = true →
      exec (.xpSourceLost p) s =
        .next (updLane (spoilScans s p) p fun l => { unlockLane s.tb.now l with state := 2, signal := false, power := none }))) ∧
  ((∀ (p : Nat) (s : State) (x : Xp),
      let t1 := x.dests.foldl (fun u d => (updLane u d fun l => { l with squelch := false }).emit (.squelch d false))
        (setXp s p (some { x with squelched := false }))
      getXp s p = some x → x.squelched = true → (getLane s p).cdr = true → (getLane s p).cdrAt + 1000000 ≤ s.tb.now →
      exec (.xpResume p) s = .next (postAll t1 0x0406 0 (packN [(0, 10, p)]))) ∧
    (∀ (p : Nat) (s : State) (x : Xp),
      getXp s p = some x → (x.squelched = false ∨ (getLane s p).cdr = false ∨ s.tb.now < (getLane s p).cdrAt + 1000000) →
      exec (.xpResume p) s = .next s))

/-- A marker sent goes out on the lanes that carry its position, its departure captured, and on position 0 of a native port
works the chain of 05 R163 and is followed by the structure with its time slot; SWITCH goes out in it when a sparing
asks for it; a marker pattern moves its lane's search, and one at its place in a lane in lock is taken as such; a missed
position moves the search too; a native port advertises once a millisecond; a valid structure that is no copy sets the
neighbour's advertisement, its slot and its sparing message, and any other is ignored; a neighbour that is silent for 3 ms goes stale; local and
remote faults begin and end with what the port sends; a defect sets or clears by its integration and posts; a HISER
window, a millisecond's counts and a monitored second go into their registers, and old bins become final. Nothing else
changes. -/
def Obligations.LinkMonitoringTakesEffect : Prop :=
  ((∀ (p : Nat) (s : State) (n : Nat),
      let t := updLane (s.emit (.alignMarker p)) p fun l =>
        { l with mcount := l.mcount + 1, txMark := some (l.mcount + 1, s.tb.dt - Config.laneDelay p true) }
      portOfPL s p = some n → isNative s n = false → switchNow s p = false →
      exec (.markerTransmit p) s = .next t) ∧
    (∀ (p : Nat) (s : State) (n : Nat),
      let t := updLane (sendMarker s n p) p fun l =>
        { l with mcount := l.mcount + 1, txMark := some (l.mcount + 1, s.tb.dt - Config.laneDelay p true) }
      portOfPL s p = some n → isNative s n = true →
      exec (.markerTransmit p) s =
        .next (if switchNow s p then
            advanceSpare (updEng t (p / 17) fun g => { g with hs := g.hs.map fun h => { h with sw := 2 } }) (p / 17)
          else t)) ∧
    (∀ (p : Nat) (s : State) (n : Nat),
      let l := getLane s p
      let t := (txLanes s p).foldl (fun u q => u.emit (.marker q (nextMarker s n p))) s
      (posOf s n p ≠ 0 → sendMarker s n p = t) ∧
      (posOf s n p = 0 → sendMarker s n p =
        (let t1 := lineWork t n fun w l => lineMarkers w l ((portPLs s n).map (nextMarker s n))
         let q := getLtt t1 n
         updLtt (sendIdle t1 n (timeSlot t1 n q.tx.head? q.rx.head?) false true) n fun x =>
           { x with tx := (⟨l.mcount + 1, s.tb.dt - Config.laneDelay p true, s.tb.now⟩ :: x.tx).take 4,
                    pathToSend := false })))) ∧
  ((∀ (p : Nat) (m : MarkerSeen) (s : State) (n : Nat) (c : PortCfg),
      let r := (getSearch s p m.pcsLane).seen (markerPeriod c) m.pos
      let t := setSearch s p m.pcsLane r.1
      markerPort s p = some n → getPort s n = some c → (getLane s p).cdr = true → patternSeen s n m = true →
      m.pcsLane < (getLane s p).search.length →
      exec (.markerReceived p m) s =
        .next (if r.2 = true ∧ (getLane t p).marker = true ∧ m.pcsLane = 0 then markerTaken t n p m else t)) ∧
    (∀ (p : Nat) (m : MarkerSeen) (s : State) (n : Nat), markerPort s p = some n →
      ((getLane s p).cdr = false ∨ patternSeen s n m = false ∨ (getLane s p).search.length ≤ m.pcsLane) →
      exec (.markerReceived p m) s = .next s)) ∧
  (∀ (p k pos : Nat) (s : State) (n : Nat) (c : PortCfg),
      markerPort s p = some n → getPort s n = some c → k < (getLane s p).search.length →
      exec (.markerPositionMiss p k pos) s = .next (setSearch s p k ((getSearch s p k).missed (markerPeriod c) pos))) ∧
  ((∀ (s : State),
      s.mode.mode ≠ .dormant → s.mode.mode ≠ .halt → s.tb.dt / dtMs ≠ s.pcs.advMs →
      exec .fpAdvertise s = .next (((portList s).filter (isNative s)).foldl (fun t n => sendIdle t n 0 true false)
        (s.updPcs fun p => { p with advMs := s.tb.dt / dtMs }))) ∧
    (∀ (s : State), s.tb.dt / dtMs = s.pcs.advMs → exec .fpAdvertise s = .next s)) ∧
  ((∀ (n k : Nat) (v : BitVec 1024) (s : State),
      let t := setRaw s n 6 false
      let t1 := updPcsPort t n fun p =>
        { p with lsipFor := none, taken := some (BitVec.ofNat 8 (fld v 1008 8), k),
                 nb := if bit v 575 then
                   { fingerprint := BitVec.ofNat 128 (fld v 592 128), version := BitVec.ofNat 16 (fld v 576 16),
                     diverged := bit v 573, committedValid := bit v 574, stale := false, never := false,
                     arrival := s.tb.dt, arrivedAt := s.tb.now }
                   else p.nb }
      let t2 := if fld v 720 256 = 0 then t1 else requalify (takeSlot t1 n (fld v 720 256))
      structOk s n k v = true → structCopy s n k v = false →
      exec (.linkIdleStructReceived n k v) s = .next (takeSpareMsg t2 n (fld v 976 32))) ∧
    (∀ (n k : Nat) (v : BitVec 1024) (s : State), (structOk s n k v = false ∨ structCopy s n k v = true) →
      exec (.linkIdleStructReceived n k v) s = .next s)) ∧
  (∀ (n : Nat) (s : State),
      let b := (getPcs s n).nb
      isNative s n = true → b.never = false → b.stale = false → b.arrivedAt + 3000000 ≤ s.tb.now →
      exec (.neighbourStale n) s = .next (updPcsPort s n fun p => { p with nb := { p.nb with stale := true } })) ∧
  (∀ (n src k : Nat) (power : Int) (s : State),
      portExists s n = true →
      exec (.localFaultOnset n src k power) s =
        .next (refreshLoam (match (rxPLs s n)[k]? with
          | some p => if src = 0 then updLane s p fun l => { l with power := some power }
              else if src = 1 then loseCdr s p else s
          | none => s) n)) ∧
  (∀ (n : Nat) (gone : BitVec 4) (power : Int) (ago : Nat) (s : State),
      let t := lanesBack s n gone power
      let t1 := if bit gone 3 && !(getPcs s n).hiser.headD false then setRaw t n 3 false else t
      let t2 := endedAgo s (refreshLoam t1 n) n ago
      let p := getPcs t2 n
      portExists s n = true →
      exec (.localFaultEnd n gone power ago) s =
        .next (if p.sendRf && !rxFault t2 n && ((List.range 4).all fun b =>
              let r := p.raw.getD b Raw.reset
              (b == 3 && !(getPcsSet t2 n).hiserFault) || r.ended == 0 || decide (r.ended + 10000 ≤ s.tb.now)) then
            pfcResume ((updPcsPort t2 n fun p => { p with sendRf := false }).emit (.remoteFault n false)) n
          else t2)) ∧
  ((∀ (n : Nat) (s : State),
      portExists s n = true → (getPcs s n).recvRf = false →
      exec (.remoteFaultReceived n) s =
        .next ((updPcsPort (setRaw (cutTx s n) n 5 true) n fun p => { p with recvRf := true }).emit (.idlesOnly n true))) ∧
    (∀ (n : Nat) (s : State),
      portExists s n = true → (getPcs s n).recvRf = true →
      exec (.remoteFaultReceived n) s = .next (setRaw s n 5 true))) ∧
  ((∀ (n : Nat) (s : State),
      portExists s n = true → (getPcs s n).recvRf = true →
      exec (.remoteFaultEnd n) s =
        .next (pfcResume ((updPcsPort (setRaw s n 5 false) n fun p => { p with recvRf := false }).emit (.idlesOnly n false)) n)) ∧
    (∀ (n : Nat) (s : State),
      portExists s n = true → (getPcs s n).recvRf = false →
      exec (.remoteFaultEnd n) s = .next (setRaw s n 5 false))) ∧
  (∀ (n b : Nat) (on : Bool) (s : State),
      let p := getPcs s n
      let m := BitVec.ofNat 7 (2 ^ b)
      let t := updPcsPort s n fun p =>
        { p with defects := if on then p.defects ||| m else p.defects &&& ~~~m,
                 seen := if on then p.seen ||| m else p.seen,
                 pm := { p.pm with sesDefect := p.pm.sesDefect || decide (b ≤ 4) } }
      portExists s n = true → b ≤ 6 → (b ≠ 6 ∨ isNative s n = true) → bit p.defects b ≠ on →
      (if on then defectSets s n b else defectClears s n b) = true →
      exec (.defect n b on) s =
        .next (let u := postAll t 0x0501 0 (packN [(0, 9, n), (9, 3, b), (12, 1, b2n on)])
          if on && b == 1 then lolUnspared u n else u)) ∧
  (∀ (n errs : Nat) (s : State),
      let bad := decide (417 < errs)
      let t := updPcsPort s n fun p => { p with hiser := (bad :: p.hiser).take 510 }
      portExists s n = true →
      exec (.hiserWindowEnd n errs) s = .next (refreshLf (setRaw t n 3 bad) n)) ∧
  (∀ (n : Nat) (c : MsCounts) (s : State),
      let syms := c.lanes.map fun x => x.1
      let t := updPcsPort s n fun p =>
        { p with codewords := p.codewords + BitVec.ofNat 64 c.codewords, corrCw := p.corrCw + BitVec.ofNat 64 c.corrected,
                 ucw := p.ucw + BitVec.ofNat 64 c.uncorrectable,
                 corrSym := p.corrSym + BitVec.ofNat 64 (syms.foldl (· + ·) 0),
                 laneSym := (List.range 8).map fun k => syms.getD k 0,
                 pm := { p.pm with cws := p.pm.cws + c.codewords, ucws := p.pm.ucws + c.uncorrectable } }
      portExists s n = true →
      exec (.serMsTick n c) s = .next (((portPLs t n).zip c.lanes).foldl (fun u x => serLane u x.1 x.2) t)) ∧
  (∀ (s : State),
      let cur := s.tb.dt / dtSec
      s.pcs.lastSec < cur →
      exec .pmSecondEnd s =
        .next (settleSes ((portList s).foldl (secondPort (cur - 1)) (s.updPcs fun x => { x with lastSec := cur })))) ∧
  (∀ s : State,
      exec .binFinal s =
        .next ((portList s).foldl (fun t p => updPcsPort t p fun q =>
          { q with pm := { q.pm with q15 := finalBins (s.tb.dt / dtSec) 900 q.pm.q15,
                                     h24 := finalBins (s.tb.dt / dtSec) 86400 q.pm.h24 } }) s))

/-- An edge of PPS_IN is accepted or not, a second with a rejected edge or two edges is bad, and under source 1 an accepted
edge is an evaluation; 1.5 s without one is a bad second; REF_IN qualifies or is lost; an evaluation against a qualified
native port, once a millisecond, acts as the servo's state says (locked: it slews, and the third beyond STEP_THRESHOLD
re-acquires); a PTP frame is taken with its shaving and acted on by the boundary clock, on its domain, or passed on by
the transparent clock; a PTP port that may send sends its Sync, Announce or Delay_Req at its rate, or what waits for it;
the slave state lost requalifies; holdover counts; PPS_OUT rises as DT passes its offset; a TB_ADJUST of the second acts
at its boundary, and a slew ends. Nothing else changes. -/
def Obligations.TimebaseEventsTakeEffect : Prop :=
  ((∀ (highNs : Nat) (freq : Int) (s : State),
      let t := s.updTb fun b => { ppsTouch b with ppsRise := some b.now, ppsSecEdges := (ppsTouch b).ppsSecEdges + 1 }
      s.mode.mode ≠ .dormant → ppsAccepts s.tb highNs = false →
      exec (.ppsInEdge highNs freq) s = .next (badSecond t)) ∧
    (∀ (highNs : Nat) (freq : Int) (s : State),
      let t := s.updTb fun b => { ppsTouch b with ppsRise := some b.now, ppsSecEdges := (ppsTouch b).ppsSecEdges + 1 }
      let u := if 2 ≤ t.tb.ppsSecEdges then badSecond (ppsAccepted t) else ppsAccepted t
      s.mode.mode ≠ .dormant → ppsAccepts s.tb highNs = true →
      exec (.ppsInEdge highNs freq) s =
        .next (if u.tb.set.source = 1 ∧ qualified u = true then evaluate u (ppsOffset u.tb.dt) freq else u)) ∧
    (∀ (s : State),
      let n := s.tb.ppsGood + 1
      let t := s.updTb fun b => { b with ppsAccepted := some b.now, ppsFrom := b.now, ppsGood := n }
      ppsAccepted s =
        if s.tb.ppsFault then
          if 10 ≤ n then
            requalify (postPps (t.updTb fun b => { b with ppsFault := false, ppsOk := true, ppsBad := 0 }) false)
          else t
        else requalify (t.updTb fun b => { b with ppsOk := true }))) ∧
  (∀ (s : State),
      s.mode.mode ≠ .dormant → s.tb.ppsFrom + 1500000000 ≤ s.tb.now →
      exec .ppsBadSecond s = .next (badSecond (s.updTb fun b => { ppsTouch b with ppsFrom := b.now }))) ∧
  (∀ (s : State),
      s.mode.mode ≠ .dormant →
      exec .refInQualified s = .next (requalify (s.updTb fun b => { b with refOk := true }))) ∧
  (∀ (s : State),
      exec .refInLost s = .next (requalify (s.updTb fun b => { b with refOk := false }))) ∧
  ((∀ (freq : Int) (s : State),
      s.tb.set.source = 3 → qualified s = true → s.tb.evalMs ≠ some (s.tb.now / 1000000) →
      exec (.servoEvaluation freq) s =
        .next (evaluate (s.updTb fun b => { b with evalMs := some (b.now / 1000000) })
          (meanOf ((getLtt s s.tb.set.sourcePort).samples.map Prod.snd)) freq)) ∧
    (∀ (off freq : Int) (s : State),
      let f := max (-50000000) (min 50000000 freq)
      let n := if beyondStep s.tb off then s.tb.badRun + 1 else 0
      let t := (s.updTb fun b => { b with offset := off }).updTb fun b =>
        { b with slew := off, badRun := n, freqPpt := f,
                 learned := (b.now, f) :: b.learned.filter fun x => decide (b.now ≤ x.1 + 1000000000000) }
      servoHeld s = false → s.tb.servo = .locked →
      evaluate s off freq = if 3 ≤ n then setServo t .acquiring else t)) ∧
  ((∀ (freq : Int) (s : State) (x : Pkt) (xs : List Pkt),
      let n := x.port
      let u := s.updFwd fun w => { w with ptpIn := xs }
      let u1 := countFlight (finalise (portEvent u n 60 1) x none 0 Finish.eaten) x.ver 0 1
      s.fwd.ptpIn = x :: xs →
      ((getPtp u1 n).role = 0 ∨ portExists u1 n = false ∨ ptpVersion x.frame ≠ 2) →
      exec (.ptpMessageReceived freq) s = .next u1) ∧
    (∀ (freq : Int) (s : State) (x : Pkt) (xs : List Pkt),
      let n := x.port
      let u := s.updFwd fun w => { w with ptpIn := xs }
      let u1 := countFlight (finalise (portEvent u n 60 1) x none 0 Finish.eaten) x.ver 0 1
      s.fwd.ptpIn = x :: xs → (getPtp u1 n).role ≠ 0 → portExists u1 n = true → ptpVersion x.frame = 2 →
      exec (.ptpMessageReceived freq) s =
        .next (if (getPtp u1 n).role = 1 ∧ ptpDomain x.frame = u1.tb.set.domain then ptpTake u1 n x.frame x.inDt freq
          else ptpPass u1 n x.frame x.inDt))) ∧
  ((∀ (n : Nat) (s : State),
      let r := getPtpRun s n
      portFree s n = true → clearOfProtected s n (psUnits (wirePs s n 64)) = true → ptpState s n = .master →
      since s r.syncAt 62500000 = true →
      exec (.ptpMessageTransmit n .sync) s =
        .next (ptpSend (updPtpRun s n fun r => { r with syncSeq := r.syncSeq + 1, syncAt := some s.tb.now }) n
          (syncFrame s n (r.syncSeq + 1) s.tb.dt))) ∧
    (∀ (n : Nat) (s : State),
      let r := getPtpRun s n
      portFree s n = true → clearOfProtected s n (psUnits (wirePs s n 82)) = true → ptpState s n = .master →
      since s r.annSent 125000000 = true →
      exec (.ptpMessageTransmit n .announce) s =
        .next (ptpSend (updPtpRun s n fun r => { r with annSeq := r.annSeq + 1, annSent := some s.tb.now }) n
          (announceFrame s n (r.annSeq + 1)))) ∧
    (∀ (n : Nat) (s : State),
      let r := getPtpRun s n
      portFree s n = true → clearOfProtected s n (psUnits (wirePs s n 64)) = true → ptpState s n = .slave →
      since s r.reqAt 62500000 = true →
      exec (.ptpMessageTransmit n .delayReq) s =
        .next (ptpSend (updPtpRun s n fun r =>
            { r with reqSeq := r.reqSeq + 1, reqAt := some s.tb.now, req := some (r.reqSeq + 1, s.tb.dt) }) n
          (delayReqFrame s n (r.reqSeq + 1)))) ∧
    (∀ (n : Nat) (s : State) (m : PtpMsg),
      portFree s n = true → (s.tb.ptpOut.find? fun m => m.port == n) = some m →
      clearOfProtected s n (psUnits (wirePs s n (m.frame.length + 4))) = true →
      exec (.ptpMessageTransmit n .queued) s =
        .next (ptpSend (s.updTb fun b => { b with ptpOut := b.ptpOut.erase m }) n (passedFrame s m s.tb.dt))) ∧
    (∀ (n : Nat) (f : List Byte) (s : State),
      ptpSend s n f = portEvent (startTx s n .mac (withFcs f) s.tb.dt) n 61 1)) ∧
  (∀ (s : State),
      exec .ptpSlaveStateLost s = .next (requalify s)) ∧
  (∀ (s : State),
      s.tb.servo = .holdover →
      exec .holdoverLimit s =
        .next (updTime s fun b => { b with holdS := min ((b.now - b.holdAt) / 1000000000) 65535 })) ∧
  (∀ (s : State),
      s.tb.set.ppsOutEn = true → s.mode.mode ≠ .dormant → s.mode.mode ≠ .halt → ppsPasses s.tb = true →
      exec .ppsOutEdge s =
        .next (s.updTb fun b => { b with ppsOut := true, ppsOutEnd := b.now + 1000000 })) ∧
  (∀ (s : State) (v : Nat) (sec : Nat),
      s.tb.setSec = some (v, sec) → sec < s.tb.dt / dtSec →
      exec .tbAdjustSecondBoundary s =
        .next (stepDtDue (s.updTb fun b => { b with setSec := none }) (v * dtSec + s.tb.dt % dtSec))) ∧
  (∀ (s : State),
      s.tb.ownerSlew = true → s.tb.slew = 0 →
      exec .tbSlewComplete s = .next (s.updTb fun b => { b with ownerSlew := false }))

/-- The log stores its oldest queued record, 40 ns after the last; the block filling closes CLOSE_MS after its first record;
the oldest closed block that has no signature is signed (ECDSA over P-384 with SHA-256 and the device's key, an opaque
constant; the numbers it draws are free, log entry 1) and the reads that waited for it complete; with none to sign nothing changes. Nothing else changes. -/
def Obligations.EvidenceLogEventsTakeEffect : Prop :=
  (∀ (m : DramUse) (s : State) (r : Rec) (rs : List Rec),
      s.log.queue = r :: rs → (∀ t, s.log.storedAt = some t → t + 40 ≤ s.tb.now) →
      exec (.evidenceRecordStore m) s =
        .next (logStore ((dramUse s 0 m).updLog fun l => { l with queue := rs, storedAt := some s.tb.now }) r)) ∧
  (∀ (s : State) (f : Filling),
      s.log.fill = some f → f.closeAt ≤ s.tb.now →
      exec .blockCloseTimer s = .next (closeBlock s 2)) ∧
  ((∀ (s : State) (b : Block),
      let sg := ecSign Config.deviceKey (bytesBE 128 b.header.toNat) (fun k => freeNat s / 2 ^ (384 * k)) 4
      let t := s.drawn.updLog fun l =>
        { l with blocks := l.blocks.map fun x => if x.number = b.number then { x with sig := some sg } else x }
      (s.log.blocks.find? fun x => x.sig.isNone && x.why != 5) = some b →
      exec .blockSigned s = .next (finishReads t.host.running t b.number (blockBytes b sg))) ∧
    (∀ s : State, (s.log.blocks.find? fun x => x.sig.isNone && x.why != 5) = none → exec .blockSigned s = .next s))

/-- At its instant a commit takes effect and completes; a version that may retire frees its slot; a copy no live version
sees returns to the free pool, in each of the four memories; the engine inserts a learned entry, moves a station,
visits an entry for ageing, and ends a flush, a fill of the shadow, its loss and a dump (by its last image or by its
timeout); the background compare goes on, and records its pass; a location under repair takes the majority's image, or
is lost, with its record, and one whose copies agree is only marked good. Nothing else changes. -/
def Obligations.VersionAndTableEventsTakeEffect : Prop :=
  (∀ (s : State) (p : PendCommit) (v : Nat),
      let t := commitNow s p v
      s.ver.pend = some p → stagedSeq s = some v → p.tc ≤ s.tb.dt →
      exec .commitInstant s =
        .next (match findRunning t 0x4705 fun _ => true with
          | some r =>
            finishOrder t r (if p.moved then 0x0701 else stSuccess)
              (packN [(0, 16, verNum v), (16, 16, verNum (activeSeq s)), (32, 32, fld (dtWord p.tc) 16 32)])
          | none => t)) ∧
  (∀ (s : State) (v : VSlot),
      s.ver.slots.find? (mayRetire s) = some v →
      exec .versionRetired s =
        .next (postAll (s.updVer fun x => { x with slots := x.slots.map fun w => if w = v then VSlot.free else w }) 0x0701 0
            (packN [(0, 16, verNum v.seq), (16, 48, s.tb.dt / dtSec)])
          )) ∧
  ((∀ (loc : Nat) (s : State) (c : EmCell),
      freeRuns s = true → getEm s loc = some c → liveSees s c.from_ c.to_ = false → exec (.copyFree 0 loc) s = .next (emStore s loc none)) ∧
    (∀ (loc : Nat) (s : State) (e : LpmEnt),
      let six := decide (s.tbl.lpm4.length ≤ loc)
      freeRuns s = true → lpmAt s loc = some e → (e.valid = false ∨ liveSees s e.from_ e.to_ = false) →
      memLocked s 1 = false →
      exec (.copyFree 1 loc) s =
        .next (setLpmThrough s six (lpmRemove (lpmList s six) (if six then 262143 - loc / 4 else loc)))) ∧
    (∀ (loc : Nat) (s : State) (c : AclRow),
      freeRuns s = true → getAcl s loc = some c → liveSees s c.from_ c.to_ = false → exec (.copyFree 2 loc) s = .next (aclStore s loc none)) ∧
    (∀ (loc : Nat) (s : State) (c : ActWord),
      freeRuns s = true → getAct s loc = some c → liveSees s c.from_ c.to_ = false →
      exec (.copyFree 3 loc) s = .next (actStore s loc none)) ∧
    (∀ (mem loc : Nat) (s : State), freeRuns s = false → exec (.copyFree mem loc) s = .next s)) ∧
  (∀ (s : State) (r : LearnReq) (rs : List LearnReq),
      let t := s.updTbl fun x => { x with learnQ := rs }
      s.tbl.learnQ = r :: rs → r.move = false → memLocked s 0 = false → learnRuns s = true → ownerAtWork s = false →
      exec .learnInsert s =
        .next (if (liveSeqs t).any fun v => (emFind t r.table v r.key).isSome then t
          else
            let c : EmCell := ⟨r.table, r.key, learnedAd (learnSet t r.table) r.port, true, 0, 0, none, s.tb.now⟩
            match emInsert t (tableQuota t 1 r.table (activeSeq t)) c with
            | .ok (u, _) => u
            | .error _ => learnDrop t r.table)) ∧
  (∀ (s : State) (r : LearnReq) (rs : List LearnReq),
      let t := s.updTbl fun x => { x with learnQ := rs }
      s.tbl.learnQ = r :: rs → r.move = true → learnRuns s = true → ownerAtWork s = false →
      exec .stationMove s =
        .next (match (liveSeqs t).findSome? fun v => (emFind t r.table v r.key).filter fun x => x.2.learned with
          | some (l, c) => emStore t l (some { c with ad := BitVec.ofNat 64 (c.ad.toNat / 512 * 512 + r.port % 512) })
          | none => t)) ∧
  (∀ (l : Nat) (hit : BitVec 4) (s : State) (c : EmCell),
      getEm s l = some c → c.learned = true → (learnSet s c.table).age = true → liveSees s c.from_ c.to_ = true →
      c.visit + s.tbl.agePeriod * 1000000 ≤ s.tb.now → learnRuns s = true → memLocked s 0 = false →
      ownerAtWork s = false → learnWaits s = false →
      exec (.agingVisit l hit) s =
        .next (if c.hits = 0 ∧ hit = 0 then
            emStore (s.updTbl fun x => { x with aged := (x.aged + 1) % 2 ^ 64 }) l none
          else setEm s l (some { c with hits := hit, visit := s.tb.now }))) ∧
  (∀ (s : State) (f : Flush) (fs : List Flush),
      let locs := (s.tbl.em.filter fun kv => match kv.2 with | some c => flushes f c | none => false).map fun kv => kv.1
      let t := locs.foldl (fun u l => emStore u l none) (s.updTbl fun x => { x with flushes := fs })
      s.tbl.flushes = f :: fs →
      exec .flushDone s =
        .next (match findRunning t 0x480A (· == f.order) with
          | some r => finishOrder t r stSuccess locs.length
          | none => t
          )) ∧
  (∀ (s : State),
      let t := (s.emit (.shadowFill (shadowMaster s) s.tbl.shadowAddr (shadowImages s))).updTbl fun x => { x with shadow := .valid }
      let t1 := postAll t 0x0805 0 t.tbl.shadowPort
      s.tbl.shadow = .filling →
      exec .shadowFillDone s =
        .next (match findRunning t1 0x4809 fun _ => true with
          | some r => finishOrder t1 r stSuccess 0
          | none => t1)) ∧
  (∀ (cause : Nat) (s : State),
      let on := s.tbl.shadow == .valid || s.tbl.shadow == .filling
      on = true → (cause = 1 ∨ (cause = 2 ∧ attached s (shadowMaster s) = false)) →
      exec (.shadowFault cause) s = .next (shadowLost s cause)) ∧
  (∀ (parity : BitVec 4) (differ : Bool) (s : State),
      let k := compareAt s.tbl.comparePos
      let t := s.updTbl fun x =>
        { x with bad := SMap.put (fun _ => (0 : BitVec 5)) x.bad (badKey k.1 k.2)
                   (BitVec.ofNat 5 (parity.toNat + 16 * b2n differ)) }
      (modeOk s = true ∨ s.mode.mode = .prepare) → spareSlot s = true →
      exec (.backgroundCompare parity differ) s =
        .next (if s.tbl.comparePos + 1 < compareTotal then t.updTbl fun x => { x with comparePos := x.comparePos + 1 }
          else t.updTbl fun x => { x with comparePos := 0, compareDt := s.tb.dt, compareDone := x.compareDone + 1 }
          )) ∧
  ((∀ (mem loc : Nat) (quads : List (Option Nat)) (shadow : Option Nat) (s : State),
      let key := repairKey mem
      let qs := (quads.filterMap id).map key
      let sh := if s.tbl.shadow = .valid then shadow.map key else none
      let all := qs ++ sh.toList
      let shadowBad := s.tbl.shadow == .valid && shadow.isNone
      let errs := packN (quads.zipIdx.map fun x => (x.2, 1, b2n x.1.isNone))
      let rec_ := fun (t : State) (level outcome : Nat) =>
        recordError t 16 0x01 mem level outcome
          (packN [(0, 23, loc), (23, 4, errs), (27, 1, b2n shadowBad)])
      quads.length = 4 → loc < memLocations mem → mem ≤ 3 →
      (qs.length ≠ 4 ∨ shadowBad = true ∨ all.all (fun x => some x == all.head?) = false) →
      exec (.tableRepair mem loc quads shadow) s =
        .next (match majority all with
          | some k =>
            let img := ((quads.filterMap id) ++ shadow.toList).find? fun v => key v == k
            let t := if some k = some (key (imageOf s mem loc false)) then s else putImage s mem loc (img.getD 0)
            let mask := packN (quads.zipIdx.map fun x => (x.2, 1, b2n ((x.1.map key) != some k)))
            let shw := s.tbl.shadow == .valid && (shadow.map key) != some k
            let t := if shw then writeThrough t mem loc else t
            let t := t.updTbl fun x => { x with repairs := (x.repairs + 1) % 2 ^ 32, bad := mend x.bad mem loc 1 }
            rec_ (postAll t 0x0801 0 (packN [(0, 2, mem), (2, 23, loc), (25, 4, mask), (29, 1, b2n shw),
              (30, 1, b2n ((majority qs).isNone && qs.any fun x => some x != qs.head?))])) 0 1
          | none => rec_ ((loseLocation s mem loc).updTbl fun x => { x with bad := mend x.bad mem loc 1 }) 1 3)) ∧
    (∀ (mem loc : Nat) (quads : List (Option Nat)) (shadow : Option Nat) (s : State),
      let key := repairKey mem
      let qs := (quads.filterMap id).map key
      let sh := if s.tbl.shadow = .valid then shadow.map key else none
      let all := qs ++ sh.toList
      quads.length = 4 → loc < memLocations mem → mem ≤ 3 → qs.length = 4 →
      (s.tbl.shadow == .valid && shadow.isNone) = false → all.all (fun x => some x == all.head?) = true →
      exec (.tableRepair mem loc quads shadow) s =
        .next (s.updTbl fun x => { x with bad := mend x.bad mem loc 1 }))) ∧
  (∀ (s : State) (d : Dump) (v1 : List Dump),
      s.tbl.dumps = d :: v1 →
      exec .tableDumpDone s =
        .next (match findRunning s 0x0804 (· == d.order) with
          | some r =>
            finishResult (maintain (endDump (drawGone s) d) (d.order.f 26 23)) r (dumpBytes s d.order (d.order.f 26 23)) 0
          | none => endDump s d
          )) ∧
  (∀ (n : Nat) (s : State) (d : Dump) (v1 : List Dump),
      let t := maintain (endDump (drawGone s) d) n
      let m := min n (d.order.f 26 23)
      let t1 := if m = 0 then t else memWrite t d.order.master d.order.resultAddr.toNat (dumpBytes s d.order m)
      s.tbl.dumps = d :: v1 → d.began + 50000000 ≤ s.tb.now →
      exec (.dumpTimeout n) s =
        .next (match findRunning t1 0x0804 (· == d.order) with
          | some r => finishOrder t1 r 0x8809 0
          | none => t1))

/-- A frame received on a port whose lanes hold marker lock is discarded and counted, or judged as MAC Control, or
accepted with its number; the oldest accepted frame becomes a packet and goes on (a drain marker to its receiver); the
oldest waiting packet is stored; a host copy is written or discarded; a gap of a spray context is skipped, a context
freed, a marker consumed, a drain's limit reached, and the last marker sent completes SPRAY_GROUP_SET; a copy's write
to DRAM ends and its billet goes, or is dropped on a CRC error; and the oldest copy comes back, if it kept its billet
or memory allows. Nothing else changes. -/
def Obligations.PacketPathEventsTakeEffect : Prop :=
  ((∀ (n : Nat) (f : List Byte) (k syms : Nat) (marked : Bool) (s : State),
      let started := s.tb.now - (s.tb.dt - ingressDt s n k syms) / 65536
      heard s n started = .none → exec (.frameReceived n f k syms marked) s = .next s) ∧
    (∀ (n : Nat) (f : List Byte) (k syms : Nat) (marked : Bool) (s : State),
      let started := s.tb.now - (s.tb.dt - ingressDt s n k syms) / 65536
      heard s n started = .lost →
      exec (.frameReceived n f k syms marked) s = .next (discarded s n fun p => { p with discUcw := p.discUcw + 1 })) ∧
    (∀ (n : Nat) (f : List Byte) (k syms : Nat) (marked : Bool) (s : State) (d : PcsPort → PcsPort),
      let started := s.tb.now - (s.tb.dt - ingressDt s n k syms) / 65536
      heard s n started = .whole → discardOf s n f marked started = some d →
      exec (.frameReceived n f k syms marked) s = .next (discarded s n d)) ∧
    (∀ (n : Nat) (f : List Byte) (k syms : Nat) (marked : Bool) (s : State),
      let inDt := ingressDt s n k syms
      let started := s.tb.now - (s.tb.dt - inDt) / 65536
      let t := frameEvents (bwAdd s n false inDt f.length) n 0 6 f
      let q := SMap.get (fun _ => 0) t.fwd.arrSeq n + 1
      heard s n started = .whole → discardOf s n f marked started = none → isControl f = false → probeHit t n f = none →
      exec (.frameReceived n f k syms marked) s =
        .next (t.updFwd fun w =>
          { w with arrSeq := SMap.put (fun _ => 0) w.arrSeq n q,
                   accepted := w.accepted ++ [⟨n, f, inDt, q, !tbLocked t.tb⟩] }))) ∧
  (∀ (n : Nat) (f : List Byte) (k syms : Nat) (marked : Bool) (s : State),
      let inDt := ingressDt s n k syms
      let started := s.tb.now - (s.tb.dt - inDt) / 65536
      heard s n started = .whole → discardOf s n f marked started = none → isControl f = true →
      exec (.pfcFrameReceived n f k syms marked) s = .next (macControl (bwAdd s n false inDt f.length) n f)) ∧
  (∀ (n : Nat) (s : State) (a : Accepted),
      let p := packetOf s a
      let t := s.updFwd fun w => { w with accepted := w.accepted.erase a, nextId := w.nextId + 1 }
      let t1 := countFlight t p.ver 1 0
      (s.fwd.accepted.find? fun a => a.port == n) = some a →
      exec (.packetIngress n) s =
        .next (match p.rx with
          | some sh => if sh.kind = 1 then t1.updFwd fun w => { w with markersIn := w.markersIn ++ [p] } else ingress t1 p
          | none => ingress t1 p)) ∧
  (∀ (req : Nat) (upset : GrantUpset) (s : State) (w : Waiting),
      let c := claimCycle s
      nextClaim c req = some w → claimTurn c = some req →
      exec (.packetStore req upset) s = .next (pfcTryAll (storePacket (grantUpset (countClaim c req) upset) w))) ∧
  (∀ (crcOk : Bool) (u : BilletUpset) (s : State) (c : HostCopy) (cs : List HostCopy) (x : Stored),
      let t := s.updFwd fun w => { w with hostCopies := cs }
      let dead := !crcOk && x.ptr.isSome
      let r := if dead then (countDrop (crcFailed t c.pkt x.pkt.port) x.pkt.port 0x93, false) else hostWrite t c x.pkt
      let t1 := if r.2 && c.whole then finaliseStored r.1 c.pkt Finish.eaten else r.1
      let t2 := if dead && c.whole then updStored t1 c.pkt fun y => { y with cause := 0x93 } else t1
      s.fwd.hostCopies = c :: cs → getStored t c.pkt = some x →
      exec (.hostSlotWrite crcOk u) s =
        .next (pfcTryAll (match c.carrier with | some k => carriedDone t2 k u | none => endRef t2 c.pkt u))) ∧
  (∀ (sender flow : Nat) (s : State) (c : SprayCtx),
      let since := c.held.foldl (fun a h => min a h.at_) s.tb.now
      let r := skipGap s c
      findCtx s sender flow = some c → c.held.isEmpty = false →
      since + s.fwd.spraySet.rxTimeoutUs * 1000 ≤ s.tb.now → skipSuspended s c = false →
      exec (.sprayRxTimeout sender flow) s = .next (updCtxOf r.1 r.2)) ∧
  (∀ (sender flow : Nat) (s : State) (c : SprayCtx),
      findCtx s sender flow = some c → c.lastAt + 1000000 ≤ s.tb.now →
      exec (.sprayContextFree sender flow) s =
        .next ((skipAll c.held.length s c).updFwd fun w =>
            { w with ctxs := w.ctxs.filter fun x => !(x.sender == sender && x.flow == flow) }
          )) ∧
  (∀ (s : State) (p : Pkt) (ps : List Pkt),
      let t := s.updFwd fun w => { w with markersIn := ps }
      let t1 := countFlight (finalise t p none 0 Finish.eaten) p.ver 0 1
      s.fwd.markersIn = p :: ps →
      exec .sprayDrainMarkerReceived s =
        .next (match p.rx with
          | none => t1
          | some sh =>
            let g := sh.flow / 1024
            (drainSeen t1 sh.sender g sh.epoch).updFwd fun w =>
              { w with drains := w.drains.map fun d =>
                  if d.sender = sh.sender ∧ d.group = g ∧ d.epoch = sh.epoch then { d with got := d.got + 1, paths := sh.paths }
                  else d })) ∧
  (∀ (sender group : Nat) (s : State),
      exec (.sprayDrainLimit sender group) s =
        .next (s.updFwd fun w =>
            { w with drains := w.drains.filter fun d =>
                !(d.sender == sender && d.group == group &&
                  decide (d.since + s.fwd.spraySet.drainLimitUs * 1000 ≤ s.tb.now)) })) ∧
  (∀ (g : Nat) (s : State),
      let x := getGroup s g
      let t := updGroup s g fun y => { y with waits := false }
      x.waits = true → x.markers = 0 →
      exec (.sprayMarkersSent g) s =
        .next (match findRunning t 0x470A fun o => o.inst == g with
          | some r => finishOrder t r stSuccess (x.epoch % 16)
          | none => t
          )) ∧
  ((∀ (q : Nat) (crcOk : Bool) (u : BilletUpset) (m : DramUse) (s : State) (d : DramCopy),
      let len := copyLen s d.copy
      let t := leaveBillet (dramUse s 2 m) d.copy.pkt u
      ((getQueue s q).dram.find? fun d => !d.written) = some d → crcOk = true →
      exec (.overflowWriteDone q crcOk u m) s =
        .next (pfcTryAll ((updDram t q d.copy.id fun e => { e with written := true }).updBuf fun b =>
            { b with ovfBytes := b.ovfBytes + len })
          )) ∧
    (∀ (q : Nat) (crcOk : Bool) (u : BilletUpset) (m : DramUse) (s : State) (d : DramCopy),
      let t := crcFailed (takeDram s q d.copy.id) d.copy.pkt (q / 16)
      ((getQueue s q).dram.find? fun d => !d.written) = some d → crcOk = false →
      exec (.overflowWriteDone q crcOk u m) s = .next (pfcTryAll (wdRefresh (dropRef t d.copy.pkt (q / 16) 0x93 u) q)))) ∧
  ((∀ (q : Nat) (fault : Option (Nat × Nat)) (crcOk : Bool) (upset : GrantUpset) (m : DramUse) (s : State) (d : DramCopy)
      (v1 : List DramCopy),
      (getQueue s q).dram = d :: v1 → d.written = true → resident s d = true →
      exec (.overflowReturn q fault crcOk upset m) s =
        .next (returnDie (updQueue s q fun x => { x with resv := x.resv - d.copy.bytes }) q d.copy)) ∧
    (∀ (q : Nat) (fault : Option (Nat × Nat)) (crcOk : Bool) (upset : GrantUpset) (m : DramUse) (s : State) (d : DramCopy)
      (v1 : List DramCopy),
      let t0 := dramUse (countClaim (claimCycle s) 32) 3 m
      let len := copyLen t0 d.copy
      let out := fun (t : State) => t.updBuf fun b => { b with ovfBytes := b.ovfBytes - len }
      let lost := fun (t : State) =>
        wdRefresh (dropRef (crcFailed (takeDram (out t) q d.copy.id) d.copy.pkt (q / 16)) d.copy.pkt (q / 16) 0x93 .none) q
      (getQueue s q).dram = d :: v1 → d.written = true → resident s d = false →
      returnable s q = true → claimTurn (claimCycle s) = some 32 →
      exec (.overflowReturn q fault crcOk upset m) s =
        .next (match fault with
          | some f => lost (recordError t0 17 0x0A (f.1 % 8) 1 3 (packN [(0, 3, 3), (8, 56, f.2)]))
          | none =>
            if !crcOk then lost t0 else
            match claim (grantUpset t0 upset) len, getStored t0 d.copy.pkt with
            | (t, some ptr), some x =>
              let b := billetBytes (ptrPool ptr)
              let g := 8 * x.pkt.port + x.pkt.dec.queue / 2
              let t := writeBillet (out t) ptr 1 x.pkt.frame (bridgeOf x.pkt)
              let t := updStored t d.copy.pkt fun y =>
                { y with ptr := some ptr, bytes := b, pg := if x.pkt.origin.isNone then some g else none }
              let t := if x.pkt.origin.isNone then pgCharge t g b else t
              pfcTryAll (returnDie t q { d.copy with bytes := b })
            | r, _ => r.1)))

/-- A slice deals a stranded packet again, else the first of its admission queue, else the next arrival; with no lathe
free an arrival joins the admission queue, or is dropped when that holds 256. A drain marker leaves its lathe and the
last one completes DEAL_SET. The oldest result of a bucket is released with its decision; a packet that has waited
longer than the timeout is skipped with its event. A bank's load ends ready or failed; a restore readmits the lathe
(its registers and memory free) where its test passed and the mandrel store's signature agrees, or fails; a bank's reload goes from A to B and completes; a recovery ends well, or
isolates the lathe on causes 4 to 6. Nothing else changes. -/
def Obligations.LatheEventsTakeEffect : Prop :=
  ((∀ (slice i : Nat) (s : State) (e : Nat × Dealt),
      let t := updLathe s (6 * slice + e.1) fun l => { l with queue := l.queue.erase (.packet e.2) }
      strayed s slice = some e → nextLathe s slice = some i →
      exec (.latheDeal slice) s =
        .next (pushItem (updSlice t slice fun y => { y with last := i }) (6 * slice + i)
          (.packet { e.2 with pkt := { e.2.pkt with lathe := i } }))) ∧
    (∀ (slice i : Nat) (s : State) (p : Pkt) (ps : List Pkt),
      strayed s slice = none → nextLathe s slice = some i → (getSlice s slice).admission = p :: ps →
      exec (.latheDeal slice) s = .next (dealTo (updSlice s slice fun y => { y with admission := ps }) slice i p)) ∧
    (∀ (slice i : Nat) (s : State) (p : Pkt) (ps : List Pkt),
      strayed s slice = none → nextLathe s slice = some i → (getSlice s slice).admission = [] →
      (getSlice s slice).arrivals = p :: ps →
      exec (.latheDeal slice) s = .next (dealTo (updSlice s slice fun y => { y with arrivals := ps }) slice i p)) ∧
    (∀ (slice : Nat) (s : State) (p : Pkt) (ps : List Pkt),
      nextLathe s slice = none → (getSlice s slice).admission.length < 256 → (getSlice s slice).arrivals = p :: ps →
      exec (.latheDeal slice) s =
        .next (updSlice (updSlice s slice fun y => { y with arrivals := ps }) slice fun y =>
          { y with admission := y.admission ++ [p] })) ∧
    (∀ (slice : Nat) (s : State) (p : Pkt) (ps : List Pkt),
      nextLathe s slice = none → 256 ≤ (getSlice s slice).admission.length → (getSlice s slice).arrivals = p :: ps →
      exec (.latheDeal slice) s = .next (dropUnstored (updSlice s slice fun y => { y with arrivals := ps }) p 0x82))) ∧
  ((∀ (k : Nat) (s : State) (q : List LItem) (w : DealWait),
      let l := getLathe s k
      let slice := latheSlice k
      let t := updLathe s k fun x => { x with queue := q }
      let w' : DealWait := { w with lathes := w.lathes.erase k }
      l.queue = .marker :: q → l.cur = none →
      ((getSlice t slice).dealWaits.find? fun w => w.lathes.contains k) = some w → w'.lathes.isEmpty = true →
      exec (.dealDrainMarkerDone k) s =
        .next (finishThis (updSlice t slice fun x => { x with dealWaits := x.dealWaits.erase w }) 0x4708 w.order stSuccess 0
          )) ∧
    (∀ (k : Nat) (s : State) (q : List LItem) (w : DealWait),
      let l := getLathe s k
      let slice := latheSlice k
      let t := updLathe s k fun x => { x with queue := q }
      let w' : DealWait := { w with lathes := w.lathes.erase k }
      l.queue = .marker :: q → l.cur = none →
      ((getSlice t slice).dealWaits.find? fun w => w.lathes.contains k) = some w → w'.lathes.isEmpty = false →
      exec (.dealDrainMarkerDone k) s =
        .next (updSlice t slice fun x => { x with dealWaits := x.dealWaits.replace w w' }))) ∧
  (∀ (slice bucket : Nat) (s : State) (v1 : BitVec 16) (v2 k : Nat) (p : Pkt) (os : List Outst),
      let t := updBucket s slice bucket fun x => { x with out := os }
      let t1 := updSlice t slice fun x => { x with results := x.results - 1 }
      (getBucket s slice bucket).out = ⟨v1, v2, some p, k⟩ :: os → earlierResult s slice k = false →
      exec (.latheResultRelease slice bucket) s =
        .next (offerAll (fixDecision t1 { p with dec := { p.dec with lathe := 0 } }) slice)) ∧
  (∀ (slice bucket : Nat) (s : State) (q : BitVec 16) (at_ k : Nat) (os : List Outst),
      let x := getSlice s slice
      let recent := s.tb.now :: x.skips.filter fun t => decide (s.tb.now < t + 1000000)
      let first := match x.stallAt with | some t => decide (t + 1000000 ≤ s.tb.now) | none => true
      let t := updBucket s slice bucket fun y => { y with out := os }
      let t1 := updSlice t slice fun y => { y with skips := recent, stallAt := if first then some s.tb.now else y.stallAt }
      let t2 := match findDealt s slice bucket q with | some p => dropUnstored t1 p 0x83 | none => t1
      (getBucket s slice bucket).out = ⟨q, at_, none, k⟩ :: os → at_ + x.timeoutUs * 1000 < s.tb.now →
      exec (.latheTimeoutSkip slice bucket) s =
        .next (if first then
            postAll t2 0x0702 0 (packN [(0, 5, slice), (8, 8, min recent.length 255), (16, 48, x.lateResults)])
          else t2)) ∧
  ((∀ (b ok : Bool) (s : State) (r : Running) (bs : List Byte),
      (findRunning s 0x4A01 fun o => orderBank o == b) = some r → r.order.data = .bytes bs → ok = true →
      exec (.imageLoadDone b ok) s =
        .next (finishOrder (postBank (bankElementChange (updBank s b fun _ => imageBank bs) b 0 (imageDigest bs)) b 2) r stSuccess
            (leNat ((bytesBE 32 (imageDigest bs).toNat).take 8))
          )) ∧
    (∀ (b ok : Bool) (s : State) (r : Running) (bs : List Byte),
      (findRunning s 0x4A01 fun o => orderBank o == b) = some r → r.order.data = .bytes bs → ok = false →
      exec (.imageLoadDone b ok) s =
        .next (finishOrder (postBank (updBank s b fun x => { x with state := 3 }) b 3) r 0x8A07 0))) ∧
  ((∀ (k res : Nat) (s : State) (r : Running),
      let t := updLathe s k fun l => loadBoth { marched s.freeCtr l with iso := 0, testing := false, recent := [] }
      let t1 := { t with freeCtr := t.freeCtr + 8224 }
      let t2 := t1.updLat fun x => { x with isoRegs := x.isoRegs &&& ~~~(BitVec.ofNat 192 (2 ^ k)) }
      let failed := updLathe s k fun l => { l with testing := false }
      (findRunning s 0x4A05 fun o => o.inst == k) = some r → (getLathe s k).testing = true → res = 0 →
      exec (.latheRestoreDone k res) s =
        .next (if mandrelSignature = Config.fusedSignature then finishOrder (postIso t2 k 0 false) r stSuccess 0
          else finishOrder failed r 0x8A06 0)) ∧
    (∀ (k res : Nat) (s : State) (r : Running),
      let t := updLathe s k fun l => { l with testing := false }
      (findRunning s 0x4A05 fun o => o.inst == k) = some r → (getLathe s k).testing = true → res ≠ 0 →
      exec (.latheRestoreDone k res) s =
        .next (finishOrder (if res = 3 then testCheck t k else t) r (if res = 2 then 0x8A07 else 0x8A06) 0))) ∧
  ((∀ (slice : Nat) (bad : BitVec 6) (s : State) (b : Bool) (o : Option Order),
      let t := (List.range 6).foldl (fun u i =>
        if bit bad i then
          isolateLathe (latheDrop (updLathe u (6 * slice + i) fun l => { l with redirect := none }) (6 * slice + i) 0xA3)
            (6 * slice + i) 1
        else updLathe u (6 * slice + i) (reloaded b)) (updSlice s slice fun x => { x with reload := none })
      (getSlice s slice).reload = some (b, o) → bad = 0 → b = false →
      exec (.latheRedirectDone slice bad) s = .next (beginReload t slice true o)) ∧
    (∀ (slice : Nat) (bad : BitVec 6) (s : State) (b : Bool) (o : Option Order),
      let t := (List.range 6).foldl (fun u i =>
        if bit bad i then
          isolateLathe (latheDrop (updLathe u (6 * slice + i) fun l => { l with redirect := none }) (6 * slice + i) 0xA3)
            (6 * slice + i) 1
        else updLathe u (6 * slice + i) (reloaded b)) (updSlice s slice fun x => { x with reload := none })
      (getSlice s slice).reload = some (b, o) → (bad ≠ 0 ∨ b ≠ false) →
      exec (.latheRedirectDone slice bad) s =
        .next (match o with
          | some r => finishThis t 0x4A06 r (if bad = 0 then stSuccess else 0x8A07) 0
          | none => t))) ∧
  ((∀ (k cause : Nat) (s : State) (r : Recovery),
      let l := getLathe s k
      let g := groupOfSlice (latheSlice k)
      let t := recordError s g 0x06 k 2 4 (packN [(0, 3, cause), (3, 1, b2n r.bank), (4, 13, r.word)])
      let t1 := updLathe t k fun y => { y with mchecks := y.mchecks + 1, lastMcheckDt := s.tb.dt }
      l.recovery = some r → (r.boot = true ∨ reloading s k (!r.bank) = false) → 4 ≤ cause → cause ≤ 6 →
      exec (.mcheckRecoveryDone k cause) s =
        .next (injectDone (isolateLathe (postMcheck t1 k cause 3 r.bank r.word) k 1) k 3)) ∧
    (∀ (k cause : Nat) (s : State) (r : Recovery),
      let l := getLathe s k
      let g := groupOfSlice (latheSlice k)
      let outcome := if r.boot then 2 else 1
      let t := updLathe s k fun y =>
        if r.boot then { loadBoth y with recovery := none }
        else
          let y := setCs { y with recovery := none, flips := y.flips.filter fun e => e.1 / 8192 != b2n r.bank } r.bank true
          if r.bank then { y with digestB := y.digestA } else { y with digestA := y.digestB }
      let t1 := recoverError t g 0x06 k 0 1
      l.recovery = some r → (r.boot = true ∨ reloading s k (!r.bank) = false) → (cause < 4 ∨ 6 < cause) →
      exec (.mcheckRecoveryDone k cause) s =
        .next (injectDone (postMcheck t1 k r.cause outcome r.bank r.word) k outcome)))

/-- At a change of the entry in force, with no list due, the port's gate index follows; a pending list that is due takes
over with its event; a pause timer that has run out ends the pause; half of TX_QUANTA after the last PFC frame a port
that pauses asks for another; W brought up to now, and at WD_US, puts a queue in storm; RESTORE_MS without a pause
takes it out; a free port starts the frame of the queue it picks, with its egress stages and drops, after the MAC's
own frames, or drops what its CRC shows bad; a transmission whose time has passed ends, counted in error where a local
fault marked it, and ends the copy it carried. Nothing else changes. -/
def Obligations.EgressEventsTakeEffect : Prop :=
  (∀ (n : Nat) (s : State),
      (∀ g, getPend s n = some g → s.tb.dt < g.takeover) →
      exec (.gateEntryChange n) s = .next (updSched s n fun p => { p with gateIndex := (gatesNow s n).1 })) ∧
  (∀ (n : Nat) (s : State) (g : Gcl),
      let t := setPend (setOper s n (if g.disable then none else some g)) n none
      getPend s n = some g → g.takeover ≤ s.tb.dt →
      exec (.gclTakeover n) s =
        .next (postAll (updSched t n fun p => { p with gateIndex := 0 }) 0x0B01 0 (packN [(0, 9, n), (9, 1, b2n g.moved),
          (10, 1, b2n g.disable), (32, 32, fld (dtWord g.takeover) 16 32)]))) ∧
  (∀ (n g : Nat) (s : State),
      (getPfc s n).pauseUntil.getD g 0 ≤ s.tb.now * 1000 →
      exec (.pfcPauseExpiry n g) s = .next (setPause s n g 0)) ∧
  (∀ (n : Nat) (s : State),
      (txPaused s n).isEmpty = false → (getPfc s n).sentPs + halfQuantaPs s n ≤ s.tb.now * 1000 →
      exec (.pfcRefresh n) s = .next (pfcTry (updPfc s n fun f => { f with due := true }) n)) ∧
  (∀ (q : Nat) (s : State),
      let t := wdRefresh s q
      let f := getPfc t (q / 16)
      exec (.pfcStormEnter q) s =
        .next (if f.wdEn && !(getQs t q).storm && decide (f.wdUs * 1000 ≤ (getQs t q).w) then
            postAll (updQs t q fun d => { d with storm := true }) 0x0B02 0 (packN [(0, 13, q), (13, 1, 1)])
          else t)) ∧
  (∀ (q : Nat) (s : State),
      (getQs s q).storm = true → (getQs s q).quietFrom + (getPfc s (q / 16)).restoreMs * 1000000 ≤ s.tb.now →
      exec (.stormRestoreTimer q) s = .next (stormLeave s q 1)) ∧
  (∀ (n : Nat) (crcOk : Bool) (u : BilletUpset) (s : State),
      let s1 := pfcTry (takeover s n) n
      portFree s1 n = true →
      exec (.egressFrameStart n crcOk u) s =
        .next (match pickQueue s1 n with
          | (_, none) => s1
          | (t, some e) =>
            let q := 16 * n + e.1
            match headOf t q with
            | none => s1
            | some h =>
              let c := h.1
              let x := h.2
              if !crcOk && x.ptr.isSome then
                pfcTryAll (seqLeft (dropRef (crcFailed (popHead t q false) c.pkt n) c.pkt n 0x93 u) c)
              else if x.kind != .packet then beginFrame t n q c x x.pkt.frame
              else
                let r := runEgress t x.pkt n
                let t := egressCopies r.1 n c x r.2
                match r.2.drop with
                | some cause =>
                  let t := updStored (countEgressDrop (popHead t q false) n cause) c.pkt fun y => { y with cause := cause }
                  pfcTryAll (seqLeft (endCopy t c.pkt c.id u) c)
                | none => beginFrame t n q c x (wireFrame t q x r.2.frame))) ∧
  (∀ (n : Nat) (u : BilletUpset) (s : State) (x : Tx),
      let ended := decide (x.startNs * 1000 + x.wirePs ≤ s.tb.now * 1000)
      let fan := match x.kind with | .fanout _ _ _ => true | _ => false
      let t := updSched s n fun p =>
        { p with tx := none, freeDt := min s.tb.dt (x.startDt + psUnits x.wirePs), lastFan := fan }
      let t1 := match x.kind with
        | .mac => if x.bad then portEvent t n 21 1 else t
        | .queue c => endOfCopy (txCounted t n x.bytes x.bad) c u
        | .fanout _ id c => endCopy (txCounted t n x.bytes x.bad) id c u
      (getSched s n).tx = some x → ended = true →
      exec (.transmissionEnd n u) s = .next (pfcTryAll (pfcTry t1 n)))

/-- A waiting set takes effect at its instant with its record, and completes or drains the group; the first packet in key
order that is due is presented to its gateway's queue, at most four in a fabric cycle, with its record where RECORD asks; a fan-out copy is fetched
and prepared (or lost), released at its instant (or it waits, or is dropped on a faulted port), and is stale 4 ms
after; a delay line moves one step a microsecond towards its target and at it the waiting orders complete; a measurement's next
probe is sent with a free nonce (log entry 1), and one whose probes are missing 1 ms after the last completes with its
status. Nothing else changes. -/
def Obligations.GroupAndTrimEventsTakeEffect : Prop :=
  (∀ (g : Nat) (s : State) (p : SeqPend) (ps : List SeqPend),
      let x := getSeq s g
      let was := (seqNow x).enable
      let t := updSeq s g fun y =>
        { y with pend := ps, cfgs := (p.ts, p.cfg) :: y.cfgs, presented := if p.cfg.enable && !was then 0 else y.presented,
                 maxTransit := if p.cfg.enable && !was then 0 else y.maxTransit,
                 drain := if was && !p.cfg.enable then some p.order else y.drain }
      let t1 := configRecord t false g p.ts p.ts p.cfg.enable p.cfg.payload
      x.pend = p :: ps → p.ts ≤ s.tb.dt →
      exec (.seqGroupChange g) s =
        .next (if was && !p.cfg.enable then seqDrained t1 g
          else finishThis t1 0x4C01 p.order (if p.moved then 0x0C01 else stSuccess) (fld (dtWord p.ts) 16 32))) ∧
  (∀ (g : Nat) (s : State) (h : SeqHeld) (hs : List SeqHeld) (c : Nat × SeqCfg) (k : Stored),
      let x := getSeq s g
      let q := 16 * c.2.gateway + c.2.queue
      let t := updSeq s g fun y =>
        { y with held := hs, queued := y.queued + 1, presented := y.presented + 1, lastDt := s.tb.dt,
                 cyc := elapsedCycle s, inCyc := inCycle s y + 1 }
      let r := freshId t
      let t1 := enqueue r.2 q ⟨r.1, h.pkt, k.bytes, occOf (getQueue s q), some g⟩ k.pkt.frame.length
      let rec_ := (seqAt x h.inDt).record
      x.held = h :: hs → (x.cfgs.find? fun c => c.2.enable) = some c → modeOk s = true → h.due ≤ s.tb.dt →
      inCycle s x < 4 →
      getStored s h.pkt = some k →
      exec (.seqPresent g) s =
        .next (if rec_ = 2 ∨ (rec_ = 1 ∧ h.late = true) then
            logOffer t1 0x10 g h.late false t1.tb.dt (seqBody k.pkt h.rank (x.presented + 1).toNat)
          else t1)) ∧
  (∀ (g port : Nat) (crcOk : Bool) (u : BilletUpset) (s : State) (k : FanPkt) (c : FanCopy) (x : Stored),
      (fanFind (getFan s g) port fun k c => c.ready.isNone && !c.done && decide (k.sched ≤ s.tb.dt + dtUs)) = some (k, c) →
      getStored s k.pkt = some x →
      exec (.fanoutCopyPrepare g port crcOk u) s =
        .next (if !crcOk && x.ptr.isSome then fanLose (countDrop (crcFailed s k.pkt port) port 0x93) g k c 3 0x93 u else
          let f := freshId s
          let c' := { c with id := f.1 }
          let r := runEgress f.2 x.pkt port
          let t := egressCopies r.1 port ⟨f.1, k.pkt, 0, 0, none⟩ x r.2
          match r.2.drop with
          | some cause => fanLose (countEgressDrop t port cause) g k c' 3 cause u
          | none => updCopy t g k.pkt port fun y => { y with id := f.1, ready := some (refcs r.2.frame, s.tb.dt) })) ∧
  (∀ (g port : Nat) (u : BilletUpset) (s : State) (k : FanPkt) (c : FanCopy),
      let wait := fun (fan : Bool) => updCopy s g k.pkt port fun y => { y with tried := true, blocked := y.blocked || fan }
      (fanFind (getFan s g) port fun k c => !c.done && decide (copyDue s k port ≤ s.tb.dt)) = some (k, c) →
      exec (.fanoutCopyRelease g port u) s =
        .next (if linkFault s port && !c.tried then fanLose (countDrop s port 0xC7) g k c 2 0xC7 u
          else match c.ready with
            | none => wait false
            | some r =>
              match (getSched s port).tx with
              | some x => wait (match x.kind with | .fanout _ _ _ => true | _ => false)
              | none =>
                let start := max (copyDue s k port) (max r.2 (getSched s port).freeDt)
                if !portFree s port then wait false
                else if lowerClaims s g port start (psUnits (wirePs s port r.1.length)) then wait true
                else fanBegin s g port k c r.1 r.2)) ∧
  (∀ (g port : Nat) (u : BilletUpset) (s : State) (k : FanPkt) (c : FanCopy),
      (fanFind (getFan s g) port fun k c => !c.done && decide (copyDue s k port + 4 * dtMs ≤ s.tb.dt)) = some (k, c) →
      exec (.fanoutStale g port u) s = .next (fanLose (countDrop s port 0xC6) g k c 4 0xC6 u)) ∧
  (∀ (n : Nat) (s : State),
      let x := getTrim s n
      let c := if x.cur < x.target then x.cur + 1 else if x.target < x.cur then x.cur - 1 else x.cur
      (x.cur ≠ x.target ∨ x.orders.isEmpty ≠ true) → x.stepAt + 1000 ≤ s.tb.now →
      exec (.trimStep n) s =
        .next (if c = x.target then
            let t := trimRecord (updTrim s n fun y => { y with cur := c, began := c, orders := [], stepAt := s.tb.now }) n x.began c
            x.orders.foldl (fun u o => finishThis u 0x4C03 o stSuccess (trimField x.began)) t
          else updTrim s n fun y => { y with cur := c, stepAt := s.tb.now })) ∧
  (∀ (n : Nat) (s : State) (m : TrimMeas),
      let nonce := freeBits s 32
      let t := startTx s.drawn n .mac (probeFrame n nonce) s.tb.dt
      measOf s n = some m → m.sent < 16 → (m.sent = 0 ∨ m.lastAt + 10000 ≤ s.tb.now) →
      (portFree s n && clearOfProtected s n (psUnits (wirePs s n 64))) = true →
      exec (.trimProbeSend n) s =
        .next (setMeas (portEvent t n 22 1) n
            (some { m with sent := m.sent + 1, out := m.out ++ [(BitVec.ofNat 32 nonce, s.tb.dt)], lastAt := s.tb.now })
          )) ∧
  (∀ (n : Nat) (s : State) (m : TrimMeas),
      let t := setMeas s n none
      measOf s n = some m → m.sent = 16 → m.lastAt + 1000000 ≤ s.tb.now →
      exec (.trimMeasureTimeout n) s =
        .next (match findRunning t 0x4C04 fun o => o.inst == n with
          | some r => finishOrder t r 0x8C05 0
          | none => t
          ))

/-- A contribution, an ARRIVE or a parent's RESULT or RELEASE at its unit is judged (13 R443) and, when it passes,
contributes to its chunk, adds to its barrier (a second arrival of a contributor is dropped as a duplicate; the last
one releases), or completes the chunk or barrier, held while its ramp runs; one that fails is dropped with its cause.
A recomputation ends in the chunk's result with its record, or in its fault; the oldest chunk or a barrier that has waited
TIMEOUT_MS faults its context with the event; a changed CREDIT is noticed after 100 us; a move ends at its marker, or
releases what it holds at its timeout. Nothing else changes. -/
def Obligations.CollectiveEventsTakeEffect : Prop :=
  ((∀ (u : Nat) (ok : Bool) (up : BilletUpset) (s : State) (id : Nat) (x : Stored) (t : State) (h : Nat) (pl : List Byte),
      let n := x.pkt.dec.id
      modeOk s = true → s.mode.haltEntry = false → takeInput s u = some (id, x, t) →
      ¬ kindOf s x.pkt.frame ∈ [1, 2, 3] → collHome s n x.pkt.frame = u → collJudge t (getCtx t n) x.pkt = .ok (h, pl) →
      exec (.collContributionArrival u ok up) s = .next (pfcTryAll (contribute t n u id x.pkt h pl ok up))) ∧
    (∀ (u : Nat) (ok : Bool) (up : BilletUpset) (s : State) (id : Nat) (x : Stored) (t : State) (c : Nat),
      let n := x.pkt.dec.id
      modeOk s = true → s.mode.haltEntry = false → takeInput s u = some (id, x, t) →
      ¬ kindOf s x.pkt.frame ∈ [1, 2, 3] → collHome s n x.pkt.frame = u → collJudge t (getCtx t n) x.pkt = .error c →
      exec (.collContributionArrival u ok up) s = .next (pfcTryAll (collDrop t n id x.pkt c up)))) ∧
  ((∀ (u : Nat) (up : BilletUpset) (s : State) (id : Nat) (x : Stored) (t : State) (h : Nat) (pl : List Byte),
      let n := x.pkt.dec.id
      let y := preramp (updCtx (collConsume t id up) n fun y =>
        { y with arrived := y.arrived ++ [contribOf h id], lastAt := (collConsume t id up).tb.now,
                 arrivedAt := if y.arrived.isEmpty then (collConsume t id up).tb.now else y.arrivedAt }) n
      modeOk s = true → s.mode.haltEntry = false → takeInput s u = some (id, x, t) → kindOf s x.pkt.frame = 2 →
      collHome s n x.pkt.frame = u → collJudge t (getCtx t n) x.pkt = .ok (h, pl) → chunkOf h = (getCtx t n).base →
      ((getCtx t n).arrived.any fun a => a.contrib == nfld h 199 9) = false →
      exec (.barrierArrive u up) s =
        .next (pfcTryAll (if (getCtx t n).cfg.contributors ≤ (getCtx y n).arrived.length then barrierFull y n else y))) ∧
    (∀ (u : Nat) (up : BilletUpset) (s : State) (id : Nat) (x : Stored) (t : State) (h : Nat) (pl : List Byte),
      let n := x.pkt.dec.id
      modeOk s = true → s.mode.haltEntry = false → takeInput s u = some (id, x, t) → kindOf s x.pkt.frame = 2 →
      collHome s n x.pkt.frame = u → collJudge t (getCtx t n) x.pkt = .ok (h, pl) → chunkOf h = (getCtx t n).base →
      ((getCtx t n).arrived.any fun a => a.contrib == nfld h 199 9) = true →
      exec (.barrierArrive u up) s = .next (pfcTryAll (collDrop t n id x.pkt 0xD5 up)))) ∧
  ((∀ (u : Nat) (up : BilletUpset) (s : State) (id : Nat) (x : Stored) (t : State) (h : Nat) (pl : List Byte),
      let n := x.pkt.dec.id
      let c := chunkOf h
      modeOk s = true → s.mode.haltEntry = false → takeInput s u = some (id, x, t) →
      (kindOf s x.pkt.frame = 1 ∨ kindOf s x.pkt.frame = 3) → collHome s n x.pkt.frame = u →
      collJudge t (getCtx t n) x.pkt = .ok (h, pl) → (getCtx t n).cfg.barrier = false →
      ((getCtx t n).chunks.any fun k => k.num == c) = true →
      exec (.collParentResult u up) s =
        .next (pfcTryAll (sendResult (chunkDone (collConsume t id up) n c) n c (contribOf h id).pace (forwarded n h) pl))) ∧
    (∀ (u : Nat) (up : BilletUpset) (s : State) (id : Nat) (x : Stored) (t : State) (h : Nat) (pl : List Byte),
      let n := x.pkt.dec.id
      let y := updCtx (collConsume t id up) n fun y => { y with relHdr := some ((contribOf h id).pace, forwarded n h) }
      modeOk s = true → s.mode.haltEntry = false → takeInput s u = some (id, x, t) →
      (kindOf s x.pkt.frame = 1 ∨ kindOf s x.pkt.frame = 3) → collHome s n x.pkt.frame = u →
      collJudge t (getCtx t n) x.pkt = .ok (h, pl) → (getCtx t n).cfg.barrier = true → chunkOf h = (getCtx t n).base →
      (getCtx t n).arrived.isEmpty = false →
      exec (.collParentResult u up) s =
        .next (pfcTryAll (if rampHolds y n then updCtx y n fun z => { z with relWait := true } else ownRelease y n)))) ∧
  (∀ (n : Nat) (badRead : Option Nat) (pass : Bool) (s : State) (k : Chunk),
      let x := getCtx s n
      let u := chunkHome x k.num
      let s1 := updUnit s u fun y => { y with recomputes := y.recomputes + 1 }
      let es := recompute s1 x.cfg k
      let wide := x.cfg.op == 0 && es.any fun e => accOver x.cfg.dtype e.acc
      (x.chunks.find? fun k => k.check) = some k →
      exec (.collRecompute n badRead pass) s =
        .next (match badRead.bind fun i => k.inputs[i]? with
          | some i =>
            let port := match getStored s1 i.pkt with | some y => y.pkt.port | none => 0
            pfcTryAll (chunkFault (crcFailed s1 i.pkt port) n u k.num)
          | none =>
            if pass && !wide then
              let t := chunkPass (updCtx s1 n fun y => { y with recomputes := y.recomputes + 1 }) n { k with elems := es } true
              let t := postAll t 0x0D03 0 (packN [(0, 12, n), (12, 4, u), (16, 32, k.num.toNat)])
              pfcTryAll (recordError t u 0x08 u 0 2 (packN [(0, 12, n), (12, 32, k.num.toNat)]))
            else pfcTryAll (chunkFault s1 n u k.num))) ∧
  (∀ (n : Nat) (s : State) (c : BitVec 32),
      let x := getCtx s n
      let due := fun (b : Nat) => decide (b + x.cfg.timeoutMs * 1000000 ≤ s.tb.now)
      let hit := if x.cfg.barrier then
          if !x.arrived.isEmpty && !x.relWait && due x.arrivedAt then some x.base else none
        else (x.chunks.foldl (fun (b : Option Chunk) k => match b with
          | some y => if k.began < y.began then some k else b
          | none => some k) none).bind fun k => if due k.began then some k.num else none
      hit = some c → x.enabled = true → x.faulted = false → modeOk s = true →
      exec (.collTimeout n) s =
        .next (pfcTryAll (postAll (ctxFault s n) 0x0D02 0 (packN [(0, 12, n), (16, 32, c.toNat)])))) ∧
  (∀ (n : Nat) (s : State),
      let x := getCtx s n
      let h := stampHeader s n x.home 0 (ctxHeader x 5 x.cfg.dtype n (freeContrib s) (freeNat s / 2 ^ 64) (freeCookie s) 0 0 false
        false false)
      x.enabled = true → x.faulted = false → modeOk s = true → creditOf s x ≠ x.sentCredit →
      x.sentAt + 100000 ≤ s.tb.now →
      exec (.collNotice n) s =
        .next (sendColl s n x.home x.cfg.resultKind x.cfg.group x.cfg.queue 0 false false x.cfg.tmpl h [])) ∧
  (∀ (n : Nat) (s : State) (m : CtxMove),
      let x := getCtx s n
      let open_ := x.enabled && !x.faulted && (if x.cfg.barrier then seqBefore x.base m.cut else
        x.chunks.any fun k => seqBefore k.num m.cut)
      let t := postAll (updCtx (releaseMove s n) n fun y => { y with move := none, oldHome := some (m.old, m.cut) }) 0x0D04 0 (packN [(0, 12, n), (12, 4, m.old), (16, 4, x.home), (20, 4, x.epoch)])
      x.move = some m → m.isolation = false → open_ = false →
      exec (.collMoveMarker n) s =
        .next (match m.order with
          | some o => finishThis t 0x4D02 o stSuccess x.epoch
          | none => t)) ∧
  (∀ (n : Nat) (s : State) (m : CtxMove),
      let x := getCtx s n
      x.move = some m → m.released = false → m.began + x.cfg.timeoutMs * 1000000 ≤ s.tb.now →
      exec (.moveHoldTimeout n) s = .next (releaseMove s n))

/-- A SEL_CTRL acts at its instant; a reducer's snapshot completes its read (and clears it for READ_CLEAR); a bandwidth
window is brought up to now; a full or late batch is sent; a capture copy is written with its shaving, and a drained
ring restarts; at T_a the arbiters take their shadow settings and ARB_COMMIT completes; a collective unit's memory
error is recorded and isolates it, its moves end and CU_ISOLATE completes, its test ends and CU_RESTORE completes; a
disagreement of machine-check logic, a parity error of the record store and the loss of an island's clock are fatal
errors. Nothing else changes. -/
def Obligations.TelemetryArbiterAndErrorEventsTakeEffect : Prop :=
  (∀ (s : State) (w : SelWait),
      (s.tel.selWaits.find? fun w => decide (w.due ≤ s.tb.dt)) = some w →
      exec .selCtrlInstant s = .next (selApply (s.updTel fun q => { q with selWaits := q.selWaits.erase w }) w)) ∧
  ((∀ (s : State) (r : Running),
      let i := r.order.inst
      let clear := r.opcode == 0x4F03
      (s.host.running.find? fun r =>
          (r.opcode == 0x0F03 || r.opcode == 0x0F04 || r.opcode == 0x4F03) && decide (r.dt + 2 * dtUs ≤ s.tb.dt)) = some r →
      r.order.kind = 0xF4 →
      exec .reducerSnapshot s =
        .next (finishResult (if clear then putHist s i (getHist s i).clear else s) r (histBytes (getHist s i)) 0
          )) ∧
    (∀ (s : State) (r : Running),
      let i := r.order.inst
      let clear := r.opcode == 0x4F03
      (s.host.running.find? fun r =>
          (r.opcode == 0x0F03 || r.opcode == 0x0F04 || r.opcode == 0x4F03) && decide (r.dt + 2 * dtUs ≤ s.tb.dt)) = some r →
      r.order.kind ≠ 0xF4 →
      exec .reducerSnapshot s =
        .next (finishResult (if clear then putSketch s i (getSketch s i).clear else s) r (sketchBytes (getSketch s i)) 0))) ∧
  (∀ (n : Nat) (s : State),
      exec (.bwWindowEnd n) s = .next (updBw s n fun b => bwRoll (s.tb.dt / (b.windowNs * dtNs)) b)) ∧
  (∀ (i : Nat) (upset : GrantUpset) (s0 : State),
      let s := grantUpset s0 upset
      let x := getExport s i
      (batchSize s x ≤ x.batch.length ∨ (x.batch.isEmpty = false ∧ x.since + x.flushUs * 1000 ≤ s.tb.now)) →
      exec (.exportBatchFlush i upset) s0 = .next (sendBatch s i)) ∧
  (∀ (crcOk : Bool) (fault : Option (Nat × Nat)) (u : BilletUpset) (m : DramUse) (s : State) (c : CapCopy) (x : Stored),
      let ready := fun (c : CapCopy) => match getStored s c.pkt with | some x => x.final || decide (x.refs ≤ 1) | none => true
      let t := updCap s fun q => { q with waiting := q.waiting.erase c }
      let t1 := finaliseStored t c.pkt (Finish.dropped x.cause)
      let dead := !crcOk && x.ptr.isSome
      let t2 :=
        if dead then countDrop (crcFailed t1 c.pkt x.pkt.port) x.pkt.port 0x93
        else
          let shav := match getStored t1 c.pkt with | some y => y.shav | none => []
          let n := (64 + c.bytes.length + 63) / 64 * 64
          capWrite (dramUse t1 4 m) c.cls (padTo n (padTo 64 shav ++ c.bytes))
      let t3 := match c.carrier with | some k => carriedDone t2 k u | none => endRef t2 c.pkt u
      let t4 :=
        if t3.tel.cap.wrap then t3
        else match fault, t3.tel.cap.recs with
          | some f, r :: rs =>
            let v := recordError t3 17 0x0A (f.1 % 8) 1 3 (packN [(0, 3, 5), (8, 56, f.2)])
            capLost (updCap v fun q => { q with recs := rs }) r.cls
          | _, _ => deliverAll t3.tel.cap.recs.length t3
      s.tel.cap.waiting.find? ready = some c → getStored t c.pkt = some x →
      exec (.captureRecordWrite crcOk fault u m) s = .next (pfcTryAll t4)) ∧
  (∀ (m : DramUse) (s : State),
      let t := deliverAll s.tel.cap.recs.length (dramUse s 5 m)
      let t1 := t.tel.cap.recs.foldl (fun v r => capLost v r.cls) t
      let n := t1.tel.cap.delivered
      let t2 := updCap t1 fun c => { c with recs := [], state := 0, delivered := 0 }
      s.tel.cap.state = 2 → s.mode.mode ≠ .halt →
      exec (.captureDrainDone m) s =
        .next (match findRunning t2 0x4F0C fun _ => true with
          | some r => finishOrder t2 r stSuccess n
          | none => t2)) ∧
  (∀ (s : State) (ta : Nat),
      let t := s.updArb fun a =>
        { a with banks := a.banks.map fun kv => (kv.1, arbLive kv.2), drams := a.drams.map fun kv => (kv.1, arbLive kv.2),
                 pend := none }
      s.arb.pend = some ta → ta ≤ s.tb.dt →
      exec .arbCommitInstant s =
        .next (match findRunning t 0x4E02 fun _ => true with
          | some r => finishOrder t r stSuccess (fld (dtWord ta) 16 32)
          | none => t)) ∧
  (∀ (u addr : Nat) (s : State),
      u < 16 → awake s = true → s.mode.mode ≠ .halt →
      exec (.cuMemoryError u addr) s = .next (isolateUnit (recordError s u 0x09 u 2 4 (addr % 2 ^ 24)) u)) ∧
  (∀ (u : Nat) (s : State),
      let y := getUnit s u
      let l := (s.coll.ctxs.filter fun kv => match kv.2.move with | some m => m.isolation && m.old == u | none => false).map
        fun kv => kv.1
      let t := updUnit (l.foldl endIsolationMove s) u fun z => { z with isolating := false }
      y.isolating = true →
      exec (.cuIsolationDone u) s =
        .next (match findRunning t 0x5102 fun o => o.inst == u with
          | some r => finishOrder t r stSuccess (packN [(0, 12, y.moved), (12, 12, y.movedFaults)])
          | none => t)) ∧
  (∀ (u : Nat) (ok : Bool) (s : State),
      let t := updUnit s u fun y => { y with testing := false, faultsAt := if ok then [] else y.faultsAt }
      let t1 := if ok then t.updErr fun e => { e with cuIsolated := e.cuIsolated &&& ~~~(BitVec.ofNat 16 (2 ^ u)) } else t
      (getUnit s u).testing = true →
      exec (.cuRestoreDone u ok) s =
        .next ((t1.host.running.filter fun r => r.opcode.toNat == 0x5103 && r.order.inst == u).foldl
            (fun v r => finishOrder v r (if ok then stSuccess else 0x9103) 0) t1)) ∧
  (∀ (unit : Nat) (s : State),
      awake s = true → (unit < 32 ∨ (0x100 ≤ unit ∧ unit < 0x110)) →
      exec (.mcheckLogicMismatch unit) s = .next (fatalError s 0x0B unit 0)) ∧
  (∀ (group slot : Nat) (s : State),
      s.pin.vaux = true → group < 20 → slot < 16 →
      exec (.recordStoreParity group slot) s = .next (fatalError s 0x0C group slot)) ∧
  (∀ (island : Nat) (pll : Bool) (s : State),
      awake s = true → island < 123 →
      exec (.islandClockLoss island pll) s = .next (fatalError s 0x0E island (b2n pll)))

/-- For every state, bank and image: when the bank takes the image's contents (what a good IMAGE_LOAD puts into it), the
bank's digest is the image's last 32 bytes, first byte most significant; whenever the bank's state is 0 (empty), 1
(loading) or 3 (failed), its digest is zero; and the element of a selected bank is the first 16 bytes of the SHA-256
of the byte 0x0F followed by the 32 bytes of that digest. -/
def Obligations.BankDigestIsTheImagesTrailer : Prop :=
  (∀ (s : State) (b : Bool) (bs : List Byte), 32 ≤ bs.length →
    bankDigest (updBank s b fun _ => imageBank bs) b = BitVec.ofNat 256 (beNat (bs.drop (bs.length - 32)))) ∧
  (∀ (s : State) (b : Bool), (bankOf s b).state = 0 ∨ (bankOf s b).state = 1 ∨ (bankOf s b).state = 3 → bankDigest s b = 0) ∧
  (∀ (s : State) (b : Bool), selDigest s (some b) = bankDigest s b ∧ bankElement (selDigest s (some b)) =
    BitVec.ofNat 128 (fld (sha256 (0x0F :: bytesBE 32 (bankDigest s b).toNat)) 128 128))

/-- For every state whose ACL memory is in its canonical form, every table, version, key width of at most 640 bits and
key: the lookup returns row r exactly where some index holds r, r matches, and no row of a lower index matches; and it
returns nothing exactly where no row matches. A row matches where not all its copies are in error (R310), its table is the lookup's, the version lies in its
interval, and at every bit of the table's key (the first KEY_BITS bits of the aligned key, by R300) where MASK is 1
the key has KEY's bit. -/
def Obligations.AclLookupTakesTheLowestRow : Prop :=
  ∀ (s : State) (table v kb : Nat) (key : BitVec 640), kb ≤ 640 → SMap.wf (fun _ => none) s.tbl.acl = true →
    let good : Nat → AclRow → Prop := fun i r =>
      unreadable s 2 i = false ∧ r.table = table ∧ r.from_ ≤ v ∧ (∀ t, r.to_ = some t → v < t) ∧
        ∀ i, i < kb → r.mask.getMsbD i = true → key.getMsbD i = r.key.getMsbD i
    (∀ r, aclFind s table v kb key = some r ↔
      ∃ i, getAcl s i = some r ∧ good i r ∧ ∀ j q, j < i → getAcl s j = some q → ¬ good j q) ∧
    (aclFind s table v kb key = none ↔ ∀ i r, getAcl s i = some r → ¬ good i r)

/-- For every state in which learning runs, no earlier source of the engine is at work and nothing locks the memory, with a new key first in the queue that no live
version sees: LEARN_INSERT inserts, as a learned entry seen by every version, the key with its table's LEARN_AD where
PORT_IN_AD is clear, and with LEARN_AD's bits [63:9] and the ingress port in bits [8:0] where it is set. (Where the
insert finds no place or no quota, the learn is dropped.) -/
def Obligations.LearnedEntryCarriesTheLearnWord : Prop :=
  (∀ (s : State) (r : LearnReq) (rs : List LearnReq),
    let t := s.updTbl fun x => { x with learnQ := rs }
    let ad := learnedAd (learnSet t r.table) r.port
    s.tbl.learnQ = r :: rs → r.move = false → memLocked s 0 = false → learnRuns s = true → ownerAtWork s = false →
    ((liveSeqs t).any fun v => (emFind t r.table v r.key).isSome) = false →
    exec .learnInsert s = .next (match emInsert t (tableQuota t 1 r.table (activeSeq t))
        ⟨r.table, r.key, ad, true, 0, 0, none, s.tb.now⟩ with
      | .ok (u, _) => u
      | .error _ => learnDrop t r.table)) ∧
  (∀ (l : LearnSet) (port : Nat), l.portInAd = false → learnedAd l port = l.ad) ∧
  (∀ (l : LearnSet) (port : Nat), l.portInAd = true → port < 512 →
    fld (learnedAd l port) 0 9 = port ∧ fld (learnedAd l port) 9 55 = fld l.ad 9 55)

/-- For every state in which a cold start runs step 6 and nothing ends it: when that step is done, whatever the active
fingerprint was, it is the sum, modulo 2^128, of the first 16 bytes of the SHA-256 of 0x0E followed by two zero bytes
and the first 16 bytes of the SHA-256 of 0x0F followed by 32 zero bytes. -/
def Obligations.ColdStartSetsTheFingerprint : Prop :=
  ∀ (s : State) (cals : List (Nat × LaneCal)) (test : SelfTest), s.mode.active = true → s.mode.haltEntry = false → s.mode.warm = false →
    s.mode.step = 6 → s.mode.pendCold = none →
    ∃ t, exec (.startStepDone false none cals test) s = .next t ∧
      t.fp.active = BitVec.ofNat 128 (fld (sha256 [0x0E, 0, 0]) 128 128) +
        BitVec.ofNat 128 (fld (sha256 (0x0F :: List.replicate 32 0)) 128 128)

/-- In every state whose last step of DT is 1 us past, bit 2 of CONTRACT_STATUS is 1 exactly where SERVO is LOCKED, or
HOLDOVER with HOLD_S below HOLD_LIMIT. After a step of DT to any value, in any state, the bit is 0, and stays 0 in
every later state of the timebase that is less than 1,000 ns past the step, whatever its servo does. -/
def Obligations.TimebaseLockedFollowsTheServo : Prop :=
  (∀ s : State, s.tb.unlockUntil ≤ s.tb.now →
    ((contractStatus s).testBit 2 = true ↔
      s.tb.servo = .locked ∨ (s.tb.servo = .holdover ∧ s.tb.holdS < s.tb.set.holdLimit))) ∧
  (∀ (s : State) (new : Nat), (contractStatus (stepDt s new)).testBit 2 = false ∧
    (stepDt s new).tb.unlockUntil = s.tb.now + 1000 ∧ (stepDt s new).tb.dt = new) ∧
  (∀ (s : State) (new : Nat) (u : State), u.tb.unlockUntil = (stepDt s new).tb.unlockUntil → u.tb.now < s.tb.now + 1000 →
    (contractStatus u).testBit 2 = false)

/-- With M0's registers accessible: a written value that names a ring above 3, whose KIND does not suit the ring's type,
that has a reserved bit, whose ring is disabled or would become more than full by its INDEX, is ignored and posts
DOORBELL_INVALID (0x0206) to M0; every other write gives the ring its INDEX: of a command ring, of a completion ring
(whose held completions are then written), and of an event ring (whose lost events are then reported). -/
def Obligations.M0DoorbellIsADoorbell : Prop :=
  ∀ (v : Word) (s : State),
    let n := fld v 0 8
    let x := BitVec.ofNat 16 (fld v 16 16)
    let r := getRing s .m0 n
    let t := updRing s .m0 n fun q => { q with host := x }
    let full := (r.type = 0 ∧ ringSize r - 1 < (x - r.dev).toNat) ∨ (r.type ≠ 0 ∧ ringSize r - 1 < (r.dev - x).toNat)
    barOk s .m0 = true →
    ((4 ≤ n ∨ kindSuits (fld v 8 1) r = false ∨ fld v 9 7 ≠ 0 ∨ r.enable = false ∨ full) →
      exec (.m0Doorbell v) s = .next (postTo s 0x0206 0 v.toNat .m0)) ∧
    (n < 4 → kindSuits (fld v 8 1) r = true → fld v 9 7 = 0 → r.enable = true → ¬ full →
      exec (.m0Doorbell v) s = .next (
        if r.type = 1 then releaseHeld t.host.held (t.updHost fun h => { h with held := [] }) .m0 n
        else if r.type = 2 then eventsLost t .m0 n
        else t))

/-- With VAUX on, ALERT_N (bit 8 of RIVEL_STATUS) is driven exactly while FLOW_LATCH, TRAYSTOP_LATCH, the critical-
temperature latch, PWRGOOD_LOST_SEEN or TRAY_BUS_FAULT is set, CAP_UNREACHABLE is set, or the advisory of flow, of the
inlet or of the heartbeat is open (the fourth advisory, a tray-bus fault, is open while TRAY_BUS_FAULT is set). When
VAUX is lost the outputs are released: ALERT_N is not driven. -/
def Obligations.AlertIsHeldWhileAnyCauseIs : Prop :=
  (∀ s : State, s.pin.vaux = true →
    ((rivelStatus s).testBit 8 = true ↔
      s.riv.flowLatch = true ∨ s.riv.trayLatch = true ∨ s.riv.critLatch = true ∨ s.riv.pwrLostSeen = true ∨
        s.riv.busFault = true ∨ s.pwr.capUnreach = true ∨ s.riv.advFlow = true ∨ s.riv.advInlet = true ∨
        s.riv.advHeart = true)) ∧
  (∀ s : State, ∃ t, exec .vauxLost s = .next t ∧ alertLow t = false ∧ t.riv.thermtrip = false ∧ t.pwr.hotwarn = false)
end

