-- ==== Sys2Proof/Laws/State.lean ====
section
/-! SUPPORT. One lemma for each field under each named update of the state, true by rfl. -/

namespace Sys2Proof.Machine.State

@[simp] theorem updHost_host (s : State) (f : HostSt → HostSt) : (s.updHost f).host = f s.host := rfl
@[simp] theorem updHost_own (s : State) (f : HostSt → HostSt) : (s.updHost f).own = s.own := rfl
@[simp] theorem updHost_mode (s : State) (f : HostSt → HostSt) : (s.updHost f).mode = s.mode := rfl
@[simp] theorem updHost_fp (s : State) (f : HostSt → HostSt) : (s.updHost f).fp = s.fp := rfl
@[simp] theorem updHost_opt (s : State) (f : HostSt → HostSt) : (s.updHost f).opt = s.opt := rfl
@[simp] theorem updHost_pcs (s : State) (f : HostSt → HostSt) : (s.updHost f).pcs = s.pcs := rfl
@[simp] theorem updHost_tb (s : State) (f : HostSt → HostSt) : (s.updHost f).tb = s.tb := rfl
@[simp] theorem updHost_log (s : State) (f : HostSt → HostSt) : (s.updHost f).log = s.log := rfl
@[simp] theorem updHost_pwr (s : State) (f : HostSt → HostSt) : (s.updHost f).pwr = s.pwr := rfl
@[simp] theorem updHost_riv (s : State) (f : HostSt → HostSt) : (s.updHost f).riv = s.riv := rfl
@[simp] theorem updHost_err (s : State) (f : HostSt → HostSt) : (s.updHost f).err = s.err := rfl
@[simp] theorem updHost_pin (s : State) (f : HostSt → HostSt) : (s.updHost f).pin = s.pin := rfl
@[simp] theorem updHost_ver (s : State) (f : HostSt → HostSt) : (s.updHost f).ver = s.ver := rfl
@[simp] theorem updHost_tbl (s : State) (f : HostSt → HostSt) : (s.updHost f).tbl = s.tbl := rfl
@[simp] theorem updHost_lat (s : State) (f : HostSt → HostSt) : (s.updHost f).lat = s.lat := rfl
@[simp] theorem updHost_fwd (s : State) (f : HostSt → HostSt) : (s.updHost f).fwd = s.fwd := rfl
@[simp] theorem updHost_buf (s : State) (f : HostSt → HostSt) : (s.updHost f).buf = s.buf := rfl
@[simp] theorem updHost_egr (s : State) (f : HostSt → HostSt) : (s.updHost f).egr = s.egr := rfl
@[simp] theorem updHost_grp (s : State) (f : HostSt → HostSt) : (s.updHost f).grp = s.grp := rfl
@[simp] theorem updHost_coll (s : State) (f : HostSt → HostSt) : (s.updHost f).coll = s.coll := rfl
@[simp] theorem updHost_arb (s : State) (f : HostSt → HostSt) : (s.updHost f).arb = s.arb := rfl
@[simp] theorem updHost_tel (s : State) (f : HostSt → HostSt) : (s.updHost f).tel = s.tel := rfl
@[simp] theorem updHost_freeCtr (s : State) (f : HostSt → HostSt) : (s.updHost f).freeCtr = s.freeCtr := rfl
@[simp] theorem updHost_out (s : State) (f : HostSt → HostSt) : (s.updHost f).out = s.out := rfl
@[simp] theorem updHost_pending (s : State) (f : HostSt → HostSt) : (s.updHost f).pending = s.pending := rfl

@[simp] theorem updOwn_host (s : State) (f : OwnSt → OwnSt) : (s.updOwn f).host = s.host := rfl
@[simp] theorem updOwn_own (s : State) (f : OwnSt → OwnSt) : (s.updOwn f).own = f s.own := rfl
@[simp] theorem updOwn_mode (s : State) (f : OwnSt → OwnSt) : (s.updOwn f).mode = s.mode := rfl
@[simp] theorem updOwn_fp (s : State) (f : OwnSt → OwnSt) : (s.updOwn f).fp = s.fp := rfl
@[simp] theorem updOwn_opt (s : State) (f : OwnSt → OwnSt) : (s.updOwn f).opt = s.opt := rfl
@[simp] theorem updOwn_pcs (s : State) (f : OwnSt → OwnSt) : (s.updOwn f).pcs = s.pcs := rfl
@[simp] theorem updOwn_tb (s : State) (f : OwnSt → OwnSt) : (s.updOwn f).tb = s.tb := rfl
@[simp] theorem updOwn_log (s : State) (f : OwnSt → OwnSt) : (s.updOwn f).log = s.log := rfl
@[simp] theorem updOwn_pwr (s : State) (f : OwnSt → OwnSt) : (s.updOwn f).pwr = s.pwr := rfl
@[simp] theorem updOwn_riv (s : State) (f : OwnSt → OwnSt) : (s.updOwn f).riv = s.riv := rfl
@[simp] theorem updOwn_err (s : State) (f : OwnSt → OwnSt) : (s.updOwn f).err = s.err := rfl
@[simp] theorem updOwn_pin (s : State) (f : OwnSt → OwnSt) : (s.updOwn f).pin = s.pin := rfl
@[simp] theorem updOwn_ver (s : State) (f : OwnSt → OwnSt) : (s.updOwn f).ver = s.ver := rfl
@[simp] theorem updOwn_tbl (s : State) (f : OwnSt → OwnSt) : (s.updOwn f).tbl = s.tbl := rfl
@[simp] theorem updOwn_lat (s : State) (f : OwnSt → OwnSt) : (s.updOwn f).lat = s.lat := rfl
@[simp] theorem updOwn_fwd (s : State) (f : OwnSt → OwnSt) : (s.updOwn f).fwd = s.fwd := rfl
@[simp] theorem updOwn_buf (s : State) (f : OwnSt → OwnSt) : (s.updOwn f).buf = s.buf := rfl
@[simp] theorem updOwn_egr (s : State) (f : OwnSt → OwnSt) : (s.updOwn f).egr = s.egr := rfl
@[simp] theorem updOwn_grp (s : State) (f : OwnSt → OwnSt) : (s.updOwn f).grp = s.grp := rfl
@[simp] theorem updOwn_coll (s : State) (f : OwnSt → OwnSt) : (s.updOwn f).coll = s.coll := rfl
@[simp] theorem updOwn_arb (s : State) (f : OwnSt → OwnSt) : (s.updOwn f).arb = s.arb := rfl
@[simp] theorem updOwn_tel (s : State) (f : OwnSt → OwnSt) : (s.updOwn f).tel = s.tel := rfl
@[simp] theorem updOwn_freeCtr (s : State) (f : OwnSt → OwnSt) : (s.updOwn f).freeCtr = s.freeCtr := rfl
@[simp] theorem updOwn_out (s : State) (f : OwnSt → OwnSt) : (s.updOwn f).out = s.out := rfl
@[simp] theorem updOwn_pending (s : State) (f : OwnSt → OwnSt) : (s.updOwn f).pending = s.pending := rfl

@[simp] theorem updMode_host (s : State) (f : ModeSt → ModeSt) : (s.updMode f).host = s.host := rfl
@[simp] theorem updMode_own (s : State) (f : ModeSt → ModeSt) : (s.updMode f).own = s.own := rfl
@[simp] theorem updMode_mode (s : State) (f : ModeSt → ModeSt) : (s.updMode f).mode = f s.mode := rfl
@[simp] theorem updMode_fp (s : State) (f : ModeSt → ModeSt) : (s.updMode f).fp = s.fp := rfl
@[simp] theorem updMode_opt (s : State) (f : ModeSt → ModeSt) : (s.updMode f).opt = s.opt := rfl
@[simp] theorem updMode_pcs (s : State) (f : ModeSt → ModeSt) : (s.updMode f).pcs = s.pcs := rfl
@[simp] theorem updMode_tb (s : State) (f : ModeSt → ModeSt) : (s.updMode f).tb = s.tb := rfl
@[simp] theorem updMode_log (s : State) (f : ModeSt → ModeSt) : (s.updMode f).log = s.log := rfl
@[simp] theorem updMode_pwr (s : State) (f : ModeSt → ModeSt) : (s.updMode f).pwr = s.pwr := rfl
@[simp] theorem updMode_riv (s : State) (f : ModeSt → ModeSt) : (s.updMode f).riv = s.riv := rfl
@[simp] theorem updMode_err (s : State) (f : ModeSt → ModeSt) : (s.updMode f).err = s.err := rfl
@[simp] theorem updMode_pin (s : State) (f : ModeSt → ModeSt) : (s.updMode f).pin = s.pin := rfl
@[simp] theorem updMode_ver (s : State) (f : ModeSt → ModeSt) : (s.updMode f).ver = s.ver := rfl
@[simp] theorem updMode_tbl (s : State) (f : ModeSt → ModeSt) : (s.updMode f).tbl = s.tbl := rfl
@[simp] theorem updMode_lat (s : State) (f : ModeSt → ModeSt) : (s.updMode f).lat = s.lat := rfl
@[simp] theorem updMode_fwd (s : State) (f : ModeSt → ModeSt) : (s.updMode f).fwd = s.fwd := rfl
@[simp] theorem updMode_buf (s : State) (f : ModeSt → ModeSt) : (s.updMode f).buf = s.buf := rfl
@[simp] theorem updMode_egr (s : State) (f : ModeSt → ModeSt) : (s.updMode f).egr = s.egr := rfl
@[simp] theorem updMode_grp (s : State) (f : ModeSt → ModeSt) : (s.updMode f).grp = s.grp := rfl
@[simp] theorem updMode_coll (s : State) (f : ModeSt → ModeSt) : (s.updMode f).coll = s.coll := rfl
@[simp] theorem updMode_arb (s : State) (f : ModeSt → ModeSt) : (s.updMode f).arb = s.arb := rfl
@[simp] theorem updMode_tel (s : State) (f : ModeSt → ModeSt) : (s.updMode f).tel = s.tel := rfl
@[simp] theorem updMode_freeCtr (s : State) (f : ModeSt → ModeSt) : (s.updMode f).freeCtr = s.freeCtr := rfl
@[simp] theorem updMode_out (s : State) (f : ModeSt → ModeSt) : (s.updMode f).out = s.out := rfl
@[simp] theorem updMode_pending (s : State) (f : ModeSt → ModeSt) : (s.updMode f).pending = s.pending := rfl

@[simp] theorem updFp_host (s : State) (f : FpSt → FpSt) : (s.updFp f).host = s.host := rfl
@[simp] theorem updFp_own (s : State) (f : FpSt → FpSt) : (s.updFp f).own = s.own := rfl
@[simp] theorem updFp_mode (s : State) (f : FpSt → FpSt) : (s.updFp f).mode = s.mode := rfl
@[simp] theorem updFp_fp (s : State) (f : FpSt → FpSt) : (s.updFp f).fp = f s.fp := rfl
@[simp] theorem updFp_opt (s : State) (f : FpSt → FpSt) : (s.updFp f).opt = s.opt := rfl
@[simp] theorem updFp_pcs (s : State) (f : FpSt → FpSt) : (s.updFp f).pcs = s.pcs := rfl
@[simp] theorem updFp_tb (s : State) (f : FpSt → FpSt) : (s.updFp f).tb = s.tb := rfl
@[simp] theorem updFp_log (s : State) (f : FpSt → FpSt) : (s.updFp f).log = s.log := rfl
@[simp] theorem updFp_pwr (s : State) (f : FpSt → FpSt) : (s.updFp f).pwr = s.pwr := rfl
@[simp] theorem updFp_riv (s : State) (f : FpSt → FpSt) : (s.updFp f).riv = s.riv := rfl
@[simp] theorem updFp_err (s : State) (f : FpSt → FpSt) : (s.updFp f).err = s.err := rfl
@[simp] theorem updFp_pin (s : State) (f : FpSt → FpSt) : (s.updFp f).pin = s.pin := rfl
@[simp] theorem updFp_ver (s : State) (f : FpSt → FpSt) : (s.updFp f).ver = s.ver := rfl
@[simp] theorem updFp_tbl (s : State) (f : FpSt → FpSt) : (s.updFp f).tbl = s.tbl := rfl
@[simp] theorem updFp_lat (s : State) (f : FpSt → FpSt) : (s.updFp f).lat = s.lat := rfl
@[simp] theorem updFp_fwd (s : State) (f : FpSt → FpSt) : (s.updFp f).fwd = s.fwd := rfl
@[simp] theorem updFp_buf (s : State) (f : FpSt → FpSt) : (s.updFp f).buf = s.buf := rfl
@[simp] theorem updFp_egr (s : State) (f : FpSt → FpSt) : (s.updFp f).egr = s.egr := rfl
@[simp] theorem updFp_grp (s : State) (f : FpSt → FpSt) : (s.updFp f).grp = s.grp := rfl
@[simp] theorem updFp_coll (s : State) (f : FpSt → FpSt) : (s.updFp f).coll = s.coll := rfl
@[simp] theorem updFp_arb (s : State) (f : FpSt → FpSt) : (s.updFp f).arb = s.arb := rfl
@[simp] theorem updFp_tel (s : State) (f : FpSt → FpSt) : (s.updFp f).tel = s.tel := rfl
@[simp] theorem updFp_freeCtr (s : State) (f : FpSt → FpSt) : (s.updFp f).freeCtr = s.freeCtr := rfl
@[simp] theorem updFp_out (s : State) (f : FpSt → FpSt) : (s.updFp f).out = s.out := rfl
@[simp] theorem updFp_pending (s : State) (f : FpSt → FpSt) : (s.updFp f).pending = s.pending := rfl

@[simp] theorem updOpt_host (s : State) (f : OptSt → OptSt) : (s.updOpt f).host = s.host := rfl
@[simp] theorem updOpt_own (s : State) (f : OptSt → OptSt) : (s.updOpt f).own = s.own := rfl
@[simp] theorem updOpt_mode (s : State) (f : OptSt → OptSt) : (s.updOpt f).mode = s.mode := rfl
@[simp] theorem updOpt_fp (s : State) (f : OptSt → OptSt) : (s.updOpt f).fp = s.fp := rfl
@[simp] theorem updOpt_opt (s : State) (f : OptSt → OptSt) : (s.updOpt f).opt = f s.opt := rfl
@[simp] theorem updOpt_pcs (s : State) (f : OptSt → OptSt) : (s.updOpt f).pcs = s.pcs := rfl
@[simp] theorem updOpt_tb (s : State) (f : OptSt → OptSt) : (s.updOpt f).tb = s.tb := rfl
@[simp] theorem updOpt_log (s : State) (f : OptSt → OptSt) : (s.updOpt f).log = s.log := rfl
@[simp] theorem updOpt_pwr (s : State) (f : OptSt → OptSt) : (s.updOpt f).pwr = s.pwr := rfl
@[simp] theorem updOpt_riv (s : State) (f : OptSt → OptSt) : (s.updOpt f).riv = s.riv := rfl
@[simp] theorem updOpt_err (s : State) (f : OptSt → OptSt) : (s.updOpt f).err = s.err := rfl
@[simp] theorem updOpt_pin (s : State) (f : OptSt → OptSt) : (s.updOpt f).pin = s.pin := rfl
@[simp] theorem updOpt_ver (s : State) (f : OptSt → OptSt) : (s.updOpt f).ver = s.ver := rfl
@[simp] theorem updOpt_tbl (s : State) (f : OptSt → OptSt) : (s.updOpt f).tbl = s.tbl := rfl
@[simp] theorem updOpt_lat (s : State) (f : OptSt → OptSt) : (s.updOpt f).lat = s.lat := rfl
@[simp] theorem updOpt_fwd (s : State) (f : OptSt → OptSt) : (s.updOpt f).fwd = s.fwd := rfl
@[simp] theorem updOpt_buf (s : State) (f : OptSt → OptSt) : (s.updOpt f).buf = s.buf := rfl
@[simp] theorem updOpt_egr (s : State) (f : OptSt → OptSt) : (s.updOpt f).egr = s.egr := rfl
@[simp] theorem updOpt_grp (s : State) (f : OptSt → OptSt) : (s.updOpt f).grp = s.grp := rfl
@[simp] theorem updOpt_coll (s : State) (f : OptSt → OptSt) : (s.updOpt f).coll = s.coll := rfl
@[simp] theorem updOpt_arb (s : State) (f : OptSt → OptSt) : (s.updOpt f).arb = s.arb := rfl
@[simp] theorem updOpt_tel (s : State) (f : OptSt → OptSt) : (s.updOpt f).tel = s.tel := rfl
@[simp] theorem updOpt_freeCtr (s : State) (f : OptSt → OptSt) : (s.updOpt f).freeCtr = s.freeCtr := rfl
@[simp] theorem updOpt_out (s : State) (f : OptSt → OptSt) : (s.updOpt f).out = s.out := rfl
@[simp] theorem updOpt_pending (s : State) (f : OptSt → OptSt) : (s.updOpt f).pending = s.pending := rfl

@[simp] theorem updPcs_host (s : State) (f : PcsSt → PcsSt) : (s.updPcs f).host = s.host := rfl
@[simp] theorem updPcs_own (s : State) (f : PcsSt → PcsSt) : (s.updPcs f).own = s.own := rfl
@[simp] theorem updPcs_mode (s : State) (f : PcsSt → PcsSt) : (s.updPcs f).mode = s.mode := rfl
@[simp] theorem updPcs_fp (s : State) (f : PcsSt → PcsSt) : (s.updPcs f).fp = s.fp := rfl
@[simp] theorem updPcs_opt (s : State) (f : PcsSt → PcsSt) : (s.updPcs f).opt = s.opt := rfl
@[simp] theorem updPcs_pcs (s : State) (f : PcsSt → PcsSt) : (s.updPcs f).pcs = f s.pcs := rfl
@[simp] theorem updPcs_tb (s : State) (f : PcsSt → PcsSt) : (s.updPcs f).tb = s.tb := rfl
@[simp] theorem updPcs_log (s : State) (f : PcsSt → PcsSt) : (s.updPcs f).log = s.log := rfl
@[simp] theorem updPcs_pwr (s : State) (f : PcsSt → PcsSt) : (s.updPcs f).pwr = s.pwr := rfl
@[simp] theorem updPcs_riv (s : State) (f : PcsSt → PcsSt) : (s.updPcs f).riv = s.riv := rfl
@[simp] theorem updPcs_err (s : State) (f : PcsSt → PcsSt) : (s.updPcs f).err = s.err := rfl
@[simp] theorem updPcs_pin (s : State) (f : PcsSt → PcsSt) : (s.updPcs f).pin = s.pin := rfl
@[simp] theorem updPcs_ver (s : State) (f : PcsSt → PcsSt) : (s.updPcs f).ver = s.ver := rfl
@[simp] theorem updPcs_tbl (s : State) (f : PcsSt → PcsSt) : (s.updPcs f).tbl = s.tbl := rfl
@[simp] theorem updPcs_lat (s : State) (f : PcsSt → PcsSt) : (s.updPcs f).lat = s.lat := rfl
@[simp] theorem updPcs_fwd (s : State) (f : PcsSt → PcsSt) : (s.updPcs f).fwd = s.fwd := rfl
@[simp] theorem updPcs_buf (s : State) (f : PcsSt → PcsSt) : (s.updPcs f).buf = s.buf := rfl
@[simp] theorem updPcs_egr (s : State) (f : PcsSt → PcsSt) : (s.updPcs f).egr = s.egr := rfl
@[simp] theorem updPcs_grp (s : State) (f : PcsSt → PcsSt) : (s.updPcs f).grp = s.grp := rfl
@[simp] theorem updPcs_coll (s : State) (f : PcsSt → PcsSt) : (s.updPcs f).coll = s.coll := rfl
@[simp] theorem updPcs_arb (s : State) (f : PcsSt → PcsSt) : (s.updPcs f).arb = s.arb := rfl
@[simp] theorem updPcs_tel (s : State) (f : PcsSt → PcsSt) : (s.updPcs f).tel = s.tel := rfl
@[simp] theorem updPcs_freeCtr (s : State) (f : PcsSt → PcsSt) : (s.updPcs f).freeCtr = s.freeCtr := rfl
@[simp] theorem updPcs_out (s : State) (f : PcsSt → PcsSt) : (s.updPcs f).out = s.out := rfl
@[simp] theorem updPcs_pending (s : State) (f : PcsSt → PcsSt) : (s.updPcs f).pending = s.pending := rfl

@[simp] theorem updTb_host (s : State) (f : TbSt → TbSt) : (s.updTb f).host = s.host := rfl
@[simp] theorem updTb_own (s : State) (f : TbSt → TbSt) : (s.updTb f).own = s.own := rfl
@[simp] theorem updTb_mode (s : State) (f : TbSt → TbSt) : (s.updTb f).mode = s.mode := rfl
@[simp] theorem updTb_fp (s : State) (f : TbSt → TbSt) : (s.updTb f).fp = s.fp := rfl
@[simp] theorem updTb_opt (s : State) (f : TbSt → TbSt) : (s.updTb f).opt = s.opt := rfl
@[simp] theorem updTb_pcs (s : State) (f : TbSt → TbSt) : (s.updTb f).pcs = s.pcs := rfl
@[simp] theorem updTb_tb (s : State) (f : TbSt → TbSt) : (s.updTb f).tb = f s.tb := rfl
@[simp] theorem updTb_log (s : State) (f : TbSt → TbSt) : (s.updTb f).log = s.log := rfl
@[simp] theorem updTb_pwr (s : State) (f : TbSt → TbSt) : (s.updTb f).pwr = s.pwr := rfl
@[simp] theorem updTb_riv (s : State) (f : TbSt → TbSt) : (s.updTb f).riv = s.riv := rfl
@[simp] theorem updTb_err (s : State) (f : TbSt → TbSt) : (s.updTb f).err = s.err := rfl
@[simp] theorem updTb_pin (s : State) (f : TbSt → TbSt) : (s.updTb f).pin = s.pin := rfl
@[simp] theorem updTb_ver (s : State) (f : TbSt → TbSt) : (s.updTb f).ver = s.ver := rfl
@[simp] theorem updTb_tbl (s : State) (f : TbSt → TbSt) : (s.updTb f).tbl = s.tbl := rfl
@[simp] theorem updTb_lat (s : State) (f : TbSt → TbSt) : (s.updTb f).lat = s.lat := rfl
@[simp] theorem updTb_fwd (s : State) (f : TbSt → TbSt) : (s.updTb f).fwd = s.fwd := rfl
@[simp] theorem updTb_buf (s : State) (f : TbSt → TbSt) : (s.updTb f).buf = s.buf := rfl
@[simp] theorem updTb_egr (s : State) (f : TbSt → TbSt) : (s.updTb f).egr = s.egr := rfl
@[simp] theorem updTb_grp (s : State) (f : TbSt → TbSt) : (s.updTb f).grp = s.grp := rfl
@[simp] theorem updTb_coll (s : State) (f : TbSt → TbSt) : (s.updTb f).coll = s.coll := rfl
@[simp] theorem updTb_arb (s : State) (f : TbSt → TbSt) : (s.updTb f).arb = s.arb := rfl
@[simp] theorem updTb_tel (s : State) (f : TbSt → TbSt) : (s.updTb f).tel = s.tel := rfl
@[simp] theorem updTb_freeCtr (s : State) (f : TbSt → TbSt) : (s.updTb f).freeCtr = s.freeCtr := rfl
@[simp] theorem updTb_out (s : State) (f : TbSt → TbSt) : (s.updTb f).out = s.out := rfl
@[simp] theorem updTb_pending (s : State) (f : TbSt → TbSt) : (s.updTb f).pending = s.pending := rfl

@[simp] theorem updLog_host (s : State) (f : LogSt → LogSt) : (s.updLog f).host = s.host := rfl
@[simp] theorem updLog_own (s : State) (f : LogSt → LogSt) : (s.updLog f).own = s.own := rfl
@[simp] theorem updLog_mode (s : State) (f : LogSt → LogSt) : (s.updLog f).mode = s.mode := rfl
@[simp] theorem updLog_fp (s : State) (f : LogSt → LogSt) : (s.updLog f).fp = s.fp := rfl
@[simp] theorem updLog_opt (s : State) (f : LogSt → LogSt) : (s.updLog f).opt = s.opt := rfl
@[simp] theorem updLog_pcs (s : State) (f : LogSt → LogSt) : (s.updLog f).pcs = s.pcs := rfl
@[simp] theorem updLog_tb (s : State) (f : LogSt → LogSt) : (s.updLog f).tb = s.tb := rfl
@[simp] theorem updLog_log (s : State) (f : LogSt → LogSt) : (s.updLog f).log = f s.log := rfl
@[simp] theorem updLog_pwr (s : State) (f : LogSt → LogSt) : (s.updLog f).pwr = s.pwr := rfl
@[simp] theorem updLog_riv (s : State) (f : LogSt → LogSt) : (s.updLog f).riv = s.riv := rfl
@[simp] theorem updLog_err (s : State) (f : LogSt → LogSt) : (s.updLog f).err = s.err := rfl
@[simp] theorem updLog_pin (s : State) (f : LogSt → LogSt) : (s.updLog f).pin = s.pin := rfl
@[simp] theorem updLog_ver (s : State) (f : LogSt → LogSt) : (s.updLog f).ver = s.ver := rfl
@[simp] theorem updLog_tbl (s : State) (f : LogSt → LogSt) : (s.updLog f).tbl = s.tbl := rfl
@[simp] theorem updLog_lat (s : State) (f : LogSt → LogSt) : (s.updLog f).lat = s.lat := rfl
@[simp] theorem updLog_fwd (s : State) (f : LogSt → LogSt) : (s.updLog f).fwd = s.fwd := rfl
@[simp] theorem updLog_buf (s : State) (f : LogSt → LogSt) : (s.updLog f).buf = s.buf := rfl
@[simp] theorem updLog_egr (s : State) (f : LogSt → LogSt) : (s.updLog f).egr = s.egr := rfl
@[simp] theorem updLog_grp (s : State) (f : LogSt → LogSt) : (s.updLog f).grp = s.grp := rfl
@[simp] theorem updLog_coll (s : State) (f : LogSt → LogSt) : (s.updLog f).coll = s.coll := rfl
@[simp] theorem updLog_arb (s : State) (f : LogSt → LogSt) : (s.updLog f).arb = s.arb := rfl
@[simp] theorem updLog_tel (s : State) (f : LogSt → LogSt) : (s.updLog f).tel = s.tel := rfl
@[simp] theorem updLog_freeCtr (s : State) (f : LogSt → LogSt) : (s.updLog f).freeCtr = s.freeCtr := rfl
@[simp] theorem updLog_out (s : State) (f : LogSt → LogSt) : (s.updLog f).out = s.out := rfl
@[simp] theorem updLog_pending (s : State) (f : LogSt → LogSt) : (s.updLog f).pending = s.pending := rfl

@[simp] theorem updPwr_host (s : State) (f : PwrSt → PwrSt) : (s.updPwr f).host = s.host := rfl
@[simp] theorem updPwr_own (s : State) (f : PwrSt → PwrSt) : (s.updPwr f).own = s.own := rfl
@[simp] theorem updPwr_mode (s : State) (f : PwrSt → PwrSt) : (s.updPwr f).mode = s.mode := rfl
@[simp] theorem updPwr_fp (s : State) (f : PwrSt → PwrSt) : (s.updPwr f).fp = s.fp := rfl
@[simp] theorem updPwr_opt (s : State) (f : PwrSt → PwrSt) : (s.updPwr f).opt = s.opt := rfl
@[simp] theorem updPwr_pcs (s : State) (f : PwrSt → PwrSt) : (s.updPwr f).pcs = s.pcs := rfl
@[simp] theorem updPwr_tb (s : State) (f : PwrSt → PwrSt) : (s.updPwr f).tb = s.tb := rfl
@[simp] theorem updPwr_log (s : State) (f : PwrSt → PwrSt) : (s.updPwr f).log = s.log := rfl
@[simp] theorem updPwr_pwr (s : State) (f : PwrSt → PwrSt) : (s.updPwr f).pwr = f s.pwr := rfl
@[simp] theorem updPwr_riv (s : State) (f : PwrSt → PwrSt) : (s.updPwr f).riv = s.riv := rfl
@[simp] theorem updPwr_err (s : State) (f : PwrSt → PwrSt) : (s.updPwr f).err = s.err := rfl
@[simp] theorem updPwr_pin (s : State) (f : PwrSt → PwrSt) : (s.updPwr f).pin = s.pin := rfl
@[simp] theorem updPwr_ver (s : State) (f : PwrSt → PwrSt) : (s.updPwr f).ver = s.ver := rfl
@[simp] theorem updPwr_tbl (s : State) (f : PwrSt → PwrSt) : (s.updPwr f).tbl = s.tbl := rfl
@[simp] theorem updPwr_lat (s : State) (f : PwrSt → PwrSt) : (s.updPwr f).lat = s.lat := rfl
@[simp] theorem updPwr_fwd (s : State) (f : PwrSt → PwrSt) : (s.updPwr f).fwd = s.fwd := rfl
@[simp] theorem updPwr_buf (s : State) (f : PwrSt → PwrSt) : (s.updPwr f).buf = s.buf := rfl
@[simp] theorem updPwr_egr (s : State) (f : PwrSt → PwrSt) : (s.updPwr f).egr = s.egr := rfl
@[simp] theorem updPwr_grp (s : State) (f : PwrSt → PwrSt) : (s.updPwr f).grp = s.grp := rfl
@[simp] theorem updPwr_coll (s : State) (f : PwrSt → PwrSt) : (s.updPwr f).coll = s.coll := rfl
@[simp] theorem updPwr_arb (s : State) (f : PwrSt → PwrSt) : (s.updPwr f).arb = s.arb := rfl
@[simp] theorem updPwr_tel (s : State) (f : PwrSt → PwrSt) : (s.updPwr f).tel = s.tel := rfl
@[simp] theorem updPwr_freeCtr (s : State) (f : PwrSt → PwrSt) : (s.updPwr f).freeCtr = s.freeCtr := rfl
@[simp] theorem updPwr_out (s : State) (f : PwrSt → PwrSt) : (s.updPwr f).out = s.out := rfl
@[simp] theorem updPwr_pending (s : State) (f : PwrSt → PwrSt) : (s.updPwr f).pending = s.pending := rfl

@[simp] theorem updRiv_host (s : State) (f : RivSt → RivSt) : (s.updRiv f).host = s.host := rfl
@[simp] theorem updRiv_own (s : State) (f : RivSt → RivSt) : (s.updRiv f).own = s.own := rfl
@[simp] theorem updRiv_mode (s : State) (f : RivSt → RivSt) : (s.updRiv f).mode = s.mode := rfl
@[simp] theorem updRiv_fp (s : State) (f : RivSt → RivSt) : (s.updRiv f).fp = s.fp := rfl
@[simp] theorem updRiv_opt (s : State) (f : RivSt → RivSt) : (s.updRiv f).opt = s.opt := rfl
@[simp] theorem updRiv_pcs (s : State) (f : RivSt → RivSt) : (s.updRiv f).pcs = s.pcs := rfl
@[simp] theorem updRiv_tb (s : State) (f : RivSt → RivSt) : (s.updRiv f).tb = s.tb := rfl
@[simp] theorem updRiv_log (s : State) (f : RivSt → RivSt) : (s.updRiv f).log = s.log := rfl
@[simp] theorem updRiv_pwr (s : State) (f : RivSt → RivSt) : (s.updRiv f).pwr = s.pwr := rfl
@[simp] theorem updRiv_riv (s : State) (f : RivSt → RivSt) : (s.updRiv f).riv = f s.riv := rfl
@[simp] theorem updRiv_err (s : State) (f : RivSt → RivSt) : (s.updRiv f).err = s.err := rfl
@[simp] theorem updRiv_pin (s : State) (f : RivSt → RivSt) : (s.updRiv f).pin = s.pin := rfl
@[simp] theorem updRiv_ver (s : State) (f : RivSt → RivSt) : (s.updRiv f).ver = s.ver := rfl
@[simp] theorem updRiv_tbl (s : State) (f : RivSt → RivSt) : (s.updRiv f).tbl = s.tbl := rfl
@[simp] theorem updRiv_lat (s : State) (f : RivSt → RivSt) : (s.updRiv f).lat = s.lat := rfl
@[simp] theorem updRiv_fwd (s : State) (f : RivSt → RivSt) : (s.updRiv f).fwd = s.fwd := rfl
@[simp] theorem updRiv_buf (s : State) (f : RivSt → RivSt) : (s.updRiv f).buf = s.buf := rfl
@[simp] theorem updRiv_egr (s : State) (f : RivSt → RivSt) : (s.updRiv f).egr = s.egr := rfl
@[simp] theorem updRiv_grp (s : State) (f : RivSt → RivSt) : (s.updRiv f).grp = s.grp := rfl
@[simp] theorem updRiv_coll (s : State) (f : RivSt → RivSt) : (s.updRiv f).coll = s.coll := rfl
@[simp] theorem updRiv_arb (s : State) (f : RivSt → RivSt) : (s.updRiv f).arb = s.arb := rfl
@[simp] theorem updRiv_tel (s : State) (f : RivSt → RivSt) : (s.updRiv f).tel = s.tel := rfl
@[simp] theorem updRiv_freeCtr (s : State) (f : RivSt → RivSt) : (s.updRiv f).freeCtr = s.freeCtr := rfl
@[simp] theorem updRiv_out (s : State) (f : RivSt → RivSt) : (s.updRiv f).out = s.out := rfl
@[simp] theorem updRiv_pending (s : State) (f : RivSt → RivSt) : (s.updRiv f).pending = s.pending := rfl

@[simp] theorem updErr_host (s : State) (f : ErrSt → ErrSt) : (s.updErr f).host = s.host := rfl
@[simp] theorem updErr_own (s : State) (f : ErrSt → ErrSt) : (s.updErr f).own = s.own := rfl
@[simp] theorem updErr_mode (s : State) (f : ErrSt → ErrSt) : (s.updErr f).mode = s.mode := rfl
@[simp] theorem updErr_fp (s : State) (f : ErrSt → ErrSt) : (s.updErr f).fp = s.fp := rfl
@[simp] theorem updErr_opt (s : State) (f : ErrSt → ErrSt) : (s.updErr f).opt = s.opt := rfl
@[simp] theorem updErr_pcs (s : State) (f : ErrSt → ErrSt) : (s.updErr f).pcs = s.pcs := rfl
@[simp] theorem updErr_tb (s : State) (f : ErrSt → ErrSt) : (s.updErr f).tb = s.tb := rfl
@[simp] theorem updErr_log (s : State) (f : ErrSt → ErrSt) : (s.updErr f).log = s.log := rfl
@[simp] theorem updErr_pwr (s : State) (f : ErrSt → ErrSt) : (s.updErr f).pwr = s.pwr := rfl
@[simp] theorem updErr_riv (s : State) (f : ErrSt → ErrSt) : (s.updErr f).riv = s.riv := rfl
@[simp] theorem updErr_err (s : State) (f : ErrSt → ErrSt) : (s.updErr f).err = f s.err := rfl
@[simp] theorem updErr_pin (s : State) (f : ErrSt → ErrSt) : (s.updErr f).pin = s.pin := rfl
@[simp] theorem updErr_ver (s : State) (f : ErrSt → ErrSt) : (s.updErr f).ver = s.ver := rfl
@[simp] theorem updErr_tbl (s : State) (f : ErrSt → ErrSt) : (s.updErr f).tbl = s.tbl := rfl
@[simp] theorem updErr_lat (s : State) (f : ErrSt → ErrSt) : (s.updErr f).lat = s.lat := rfl
@[simp] theorem updErr_fwd (s : State) (f : ErrSt → ErrSt) : (s.updErr f).fwd = s.fwd := rfl
@[simp] theorem updErr_buf (s : State) (f : ErrSt → ErrSt) : (s.updErr f).buf = s.buf := rfl
@[simp] theorem updErr_egr (s : State) (f : ErrSt → ErrSt) : (s.updErr f).egr = s.egr := rfl
@[simp] theorem updErr_grp (s : State) (f : ErrSt → ErrSt) : (s.updErr f).grp = s.grp := rfl
@[simp] theorem updErr_coll (s : State) (f : ErrSt → ErrSt) : (s.updErr f).coll = s.coll := rfl
@[simp] theorem updErr_arb (s : State) (f : ErrSt → ErrSt) : (s.updErr f).arb = s.arb := rfl
@[simp] theorem updErr_tel (s : State) (f : ErrSt → ErrSt) : (s.updErr f).tel = s.tel := rfl
@[simp] theorem updErr_freeCtr (s : State) (f : ErrSt → ErrSt) : (s.updErr f).freeCtr = s.freeCtr := rfl
@[simp] theorem updErr_out (s : State) (f : ErrSt → ErrSt) : (s.updErr f).out = s.out := rfl
@[simp] theorem updErr_pending (s : State) (f : ErrSt → ErrSt) : (s.updErr f).pending = s.pending := rfl

@[simp] theorem updPin_host (s : State) (f : PinSt → PinSt) : (s.updPin f).host = s.host := rfl
@[simp] theorem updPin_own (s : State) (f : PinSt → PinSt) : (s.updPin f).own = s.own := rfl
@[simp] theorem updPin_mode (s : State) (f : PinSt → PinSt) : (s.updPin f).mode = s.mode := rfl
@[simp] theorem updPin_fp (s : State) (f : PinSt → PinSt) : (s.updPin f).fp = s.fp := rfl
@[simp] theorem updPin_opt (s : State) (f : PinSt → PinSt) : (s.updPin f).opt = s.opt := rfl
@[simp] theorem updPin_pcs (s : State) (f : PinSt → PinSt) : (s.updPin f).pcs = s.pcs := rfl
@[simp] theorem updPin_tb (s : State) (f : PinSt → PinSt) : (s.updPin f).tb = s.tb := rfl
@[simp] theorem updPin_log (s : State) (f : PinSt → PinSt) : (s.updPin f).log = s.log := rfl
@[simp] theorem updPin_pwr (s : State) (f : PinSt → PinSt) : (s.updPin f).pwr = s.pwr := rfl
@[simp] theorem updPin_riv (s : State) (f : PinSt → PinSt) : (s.updPin f).riv = s.riv := rfl
@[simp] theorem updPin_err (s : State) (f : PinSt → PinSt) : (s.updPin f).err = s.err := rfl
@[simp] theorem updPin_pin (s : State) (f : PinSt → PinSt) : (s.updPin f).pin = f s.pin := rfl
@[simp] theorem updPin_ver (s : State) (f : PinSt → PinSt) : (s.updPin f).ver = s.ver := rfl
@[simp] theorem updPin_tbl (s : State) (f : PinSt → PinSt) : (s.updPin f).tbl = s.tbl := rfl
@[simp] theorem updPin_lat (s : State) (f : PinSt → PinSt) : (s.updPin f).lat = s.lat := rfl
@[simp] theorem updPin_fwd (s : State) (f : PinSt → PinSt) : (s.updPin f).fwd = s.fwd := rfl
@[simp] theorem updPin_buf (s : State) (f : PinSt → PinSt) : (s.updPin f).buf = s.buf := rfl
@[simp] theorem updPin_egr (s : State) (f : PinSt → PinSt) : (s.updPin f).egr = s.egr := rfl
@[simp] theorem updPin_grp (s : State) (f : PinSt → PinSt) : (s.updPin f).grp = s.grp := rfl
@[simp] theorem updPin_coll (s : State) (f : PinSt → PinSt) : (s.updPin f).coll = s.coll := rfl
@[simp] theorem updPin_arb (s : State) (f : PinSt → PinSt) : (s.updPin f).arb = s.arb := rfl
@[simp] theorem updPin_tel (s : State) (f : PinSt → PinSt) : (s.updPin f).tel = s.tel := rfl
@[simp] theorem updPin_freeCtr (s : State) (f : PinSt → PinSt) : (s.updPin f).freeCtr = s.freeCtr := rfl
@[simp] theorem updPin_out (s : State) (f : PinSt → PinSt) : (s.updPin f).out = s.out := rfl
@[simp] theorem updPin_pending (s : State) (f : PinSt → PinSt) : (s.updPin f).pending = s.pending := rfl

@[simp] theorem updVer_host (s : State) (f : VerSt → VerSt) : (s.updVer f).host = s.host := rfl
@[simp] theorem updVer_own (s : State) (f : VerSt → VerSt) : (s.updVer f).own = s.own := rfl
@[simp] theorem updVer_mode (s : State) (f : VerSt → VerSt) : (s.updVer f).mode = s.mode := rfl
@[simp] theorem updVer_fp (s : State) (f : VerSt → VerSt) : (s.updVer f).fp = s.fp := rfl
@[simp] theorem updVer_opt (s : State) (f : VerSt → VerSt) : (s.updVer f).opt = s.opt := rfl
@[simp] theorem updVer_pcs (s : State) (f : VerSt → VerSt) : (s.updVer f).pcs = s.pcs := rfl
@[simp] theorem updVer_tb (s : State) (f : VerSt → VerSt) : (s.updVer f).tb = s.tb := rfl
@[simp] theorem updVer_log (s : State) (f : VerSt → VerSt) : (s.updVer f).log = s.log := rfl
@[simp] theorem updVer_pwr (s : State) (f : VerSt → VerSt) : (s.updVer f).pwr = s.pwr := rfl
@[simp] theorem updVer_riv (s : State) (f : VerSt → VerSt) : (s.updVer f).riv = s.riv := rfl
@[simp] theorem updVer_err (s : State) (f : VerSt → VerSt) : (s.updVer f).err = s.err := rfl
@[simp] theorem updVer_pin (s : State) (f : VerSt → VerSt) : (s.updVer f).pin = s.pin := rfl
@[simp] theorem updVer_ver (s : State) (f : VerSt → VerSt) : (s.updVer f).ver = f s.ver := rfl
@[simp] theorem updVer_tbl (s : State) (f : VerSt → VerSt) : (s.updVer f).tbl = s.tbl := rfl
@[simp] theorem updVer_lat (s : State) (f : VerSt → VerSt) : (s.updVer f).lat = s.lat := rfl
@[simp] theorem updVer_fwd (s : State) (f : VerSt → VerSt) : (s.updVer f).fwd = s.fwd := rfl
@[simp] theorem updVer_buf (s : State) (f : VerSt → VerSt) : (s.updVer f).buf = s.buf := rfl
@[simp] theorem updVer_egr (s : State) (f : VerSt → VerSt) : (s.updVer f).egr = s.egr := rfl
@[simp] theorem updVer_grp (s : State) (f : VerSt → VerSt) : (s.updVer f).grp = s.grp := rfl
@[simp] theorem updVer_coll (s : State) (f : VerSt → VerSt) : (s.updVer f).coll = s.coll := rfl
@[simp] theorem updVer_arb (s : State) (f : VerSt → VerSt) : (s.updVer f).arb = s.arb := rfl
@[simp] theorem updVer_tel (s : State) (f : VerSt → VerSt) : (s.updVer f).tel = s.tel := rfl
@[simp] theorem updVer_freeCtr (s : State) (f : VerSt → VerSt) : (s.updVer f).freeCtr = s.freeCtr := rfl
@[simp] theorem updVer_out (s : State) (f : VerSt → VerSt) : (s.updVer f).out = s.out := rfl
@[simp] theorem updVer_pending (s : State) (f : VerSt → VerSt) : (s.updVer f).pending = s.pending := rfl

@[simp] theorem updTbl_host (s : State) (f : TblSt → TblSt) : (s.updTbl f).host = s.host := rfl
@[simp] theorem updTbl_own (s : State) (f : TblSt → TblSt) : (s.updTbl f).own = s.own := rfl
@[simp] theorem updTbl_mode (s : State) (f : TblSt → TblSt) : (s.updTbl f).mode = s.mode := rfl
@[simp] theorem updTbl_fp (s : State) (f : TblSt → TblSt) : (s.updTbl f).fp = s.fp := rfl
@[simp] theorem updTbl_opt (s : State) (f : TblSt → TblSt) : (s.updTbl f).opt = s.opt := rfl
@[simp] theorem updTbl_pcs (s : State) (f : TblSt → TblSt) : (s.updTbl f).pcs = s.pcs := rfl
@[simp] theorem updTbl_tb (s : State) (f : TblSt → TblSt) : (s.updTbl f).tb = s.tb := rfl
@[simp] theorem updTbl_log (s : State) (f : TblSt → TblSt) : (s.updTbl f).log = s.log := rfl
@[simp] theorem updTbl_pwr (s : State) (f : TblSt → TblSt) : (s.updTbl f).pwr = s.pwr := rfl
@[simp] theorem updTbl_riv (s : State) (f : TblSt → TblSt) : (s.updTbl f).riv = s.riv := rfl
@[simp] theorem updTbl_err (s : State) (f : TblSt → TblSt) : (s.updTbl f).err = s.err := rfl
@[simp] theorem updTbl_pin (s : State) (f : TblSt → TblSt) : (s.updTbl f).pin = s.pin := rfl
@[simp] theorem updTbl_ver (s : State) (f : TblSt → TblSt) : (s.updTbl f).ver = s.ver := rfl
@[simp] theorem updTbl_tbl (s : State) (f : TblSt → TblSt) : (s.updTbl f).tbl = f s.tbl := rfl
@[simp] theorem updTbl_lat (s : State) (f : TblSt → TblSt) : (s.updTbl f).lat = s.lat := rfl
@[simp] theorem updTbl_fwd (s : State) (f : TblSt → TblSt) : (s.updTbl f).fwd = s.fwd := rfl
@[simp] theorem updTbl_buf (s : State) (f : TblSt → TblSt) : (s.updTbl f).buf = s.buf := rfl
@[simp] theorem updTbl_egr (s : State) (f : TblSt → TblSt) : (s.updTbl f).egr = s.egr := rfl
@[simp] theorem updTbl_grp (s : State) (f : TblSt → TblSt) : (s.updTbl f).grp = s.grp := rfl
@[simp] theorem updTbl_coll (s : State) (f : TblSt → TblSt) : (s.updTbl f).coll = s.coll := rfl
@[simp] theorem updTbl_arb (s : State) (f : TblSt → TblSt) : (s.updTbl f).arb = s.arb := rfl
@[simp] theorem updTbl_tel (s : State) (f : TblSt → TblSt) : (s.updTbl f).tel = s.tel := rfl
@[simp] theorem updTbl_freeCtr (s : State) (f : TblSt → TblSt) : (s.updTbl f).freeCtr = s.freeCtr := rfl
@[simp] theorem updTbl_out (s : State) (f : TblSt → TblSt) : (s.updTbl f).out = s.out := rfl
@[simp] theorem updTbl_pending (s : State) (f : TblSt → TblSt) : (s.updTbl f).pending = s.pending := rfl

@[simp] theorem updLat_host (s : State) (f : LatSt → LatSt) : (s.updLat f).host = s.host := rfl
@[simp] theorem updLat_own (s : State) (f : LatSt → LatSt) : (s.updLat f).own = s.own := rfl
@[simp] theorem updLat_mode (s : State) (f : LatSt → LatSt) : (s.updLat f).mode = s.mode := rfl
@[simp] theorem updLat_fp (s : State) (f : LatSt → LatSt) : (s.updLat f).fp = s.fp := rfl
@[simp] theorem updLat_opt (s : State) (f : LatSt → LatSt) : (s.updLat f).opt = s.opt := rfl
@[simp] theorem updLat_pcs (s : State) (f : LatSt → LatSt) : (s.updLat f).pcs = s.pcs := rfl
@[simp] theorem updLat_tb (s : State) (f : LatSt → LatSt) : (s.updLat f).tb = s.tb := rfl
@[simp] theorem updLat_log (s : State) (f : LatSt → LatSt) : (s.updLat f).log = s.log := rfl
@[simp] theorem updLat_pwr (s : State) (f : LatSt → LatSt) : (s.updLat f).pwr = s.pwr := rfl
@[simp] theorem updLat_riv (s : State) (f : LatSt → LatSt) : (s.updLat f).riv = s.riv := rfl
@[simp] theorem updLat_err (s : State) (f : LatSt → LatSt) : (s.updLat f).err = s.err := rfl
@[simp] theorem updLat_pin (s : State) (f : LatSt → LatSt) : (s.updLat f).pin = s.pin := rfl
@[simp] theorem updLat_ver (s : State) (f : LatSt → LatSt) : (s.updLat f).ver = s.ver := rfl
@[simp] theorem updLat_tbl (s : State) (f : LatSt → LatSt) : (s.updLat f).tbl = s.tbl := rfl
@[simp] theorem updLat_lat (s : State) (f : LatSt → LatSt) : (s.updLat f).lat = f s.lat := rfl
@[simp] theorem updLat_fwd (s : State) (f : LatSt → LatSt) : (s.updLat f).fwd = s.fwd := rfl
@[simp] theorem updLat_buf (s : State) (f : LatSt → LatSt) : (s.updLat f).buf = s.buf := rfl
@[simp] theorem updLat_egr (s : State) (f : LatSt → LatSt) : (s.updLat f).egr = s.egr := rfl
@[simp] theorem updLat_grp (s : State) (f : LatSt → LatSt) : (s.updLat f).grp = s.grp := rfl
@[simp] theorem updLat_coll (s : State) (f : LatSt → LatSt) : (s.updLat f).coll = s.coll := rfl
@[simp] theorem updLat_arb (s : State) (f : LatSt → LatSt) : (s.updLat f).arb = s.arb := rfl
@[simp] theorem updLat_tel (s : State) (f : LatSt → LatSt) : (s.updLat f).tel = s.tel := rfl
@[simp] theorem updLat_freeCtr (s : State) (f : LatSt → LatSt) : (s.updLat f).freeCtr = s.freeCtr := rfl
@[simp] theorem updLat_out (s : State) (f : LatSt → LatSt) : (s.updLat f).out = s.out := rfl
@[simp] theorem updLat_pending (s : State) (f : LatSt → LatSt) : (s.updLat f).pending = s.pending := rfl

@[simp] theorem updFwd_host (s : State) (f : FwdSt → FwdSt) : (s.updFwd f).host = s.host := rfl
@[simp] theorem updFwd_own (s : State) (f : FwdSt → FwdSt) : (s.updFwd f).own = s.own := rfl
@[simp] theorem updFwd_mode (s : State) (f : FwdSt → FwdSt) : (s.updFwd f).mode = s.mode := rfl
@[simp] theorem updFwd_fp (s : State) (f : FwdSt → FwdSt) : (s.updFwd f).fp = s.fp := rfl
@[simp] theorem updFwd_opt (s : State) (f : FwdSt → FwdSt) : (s.updFwd f).opt = s.opt := rfl
@[simp] theorem updFwd_pcs (s : State) (f : FwdSt → FwdSt) : (s.updFwd f).pcs = s.pcs := rfl
@[simp] theorem updFwd_tb (s : State) (f : FwdSt → FwdSt) : (s.updFwd f).tb = s.tb := rfl
@[simp] theorem updFwd_log (s : State) (f : FwdSt → FwdSt) : (s.updFwd f).log = s.log := rfl
@[simp] theorem updFwd_pwr (s : State) (f : FwdSt → FwdSt) : (s.updFwd f).pwr = s.pwr := rfl
@[simp] theorem updFwd_riv (s : State) (f : FwdSt → FwdSt) : (s.updFwd f).riv = s.riv := rfl
@[simp] theorem updFwd_err (s : State) (f : FwdSt → FwdSt) : (s.updFwd f).err = s.err := rfl
@[simp] theorem updFwd_pin (s : State) (f : FwdSt → FwdSt) : (s.updFwd f).pin = s.pin := rfl
@[simp] theorem updFwd_ver (s : State) (f : FwdSt → FwdSt) : (s.updFwd f).ver = s.ver := rfl
@[simp] theorem updFwd_tbl (s : State) (f : FwdSt → FwdSt) : (s.updFwd f).tbl = s.tbl := rfl
@[simp] theorem updFwd_lat (s : State) (f : FwdSt → FwdSt) : (s.updFwd f).lat = s.lat := rfl
@[simp] theorem updFwd_fwd (s : State) (f : FwdSt → FwdSt) : (s.updFwd f).fwd = f s.fwd := rfl
@[simp] theorem updFwd_buf (s : State) (f : FwdSt → FwdSt) : (s.updFwd f).buf = s.buf := rfl
@[simp] theorem updFwd_egr (s : State) (f : FwdSt → FwdSt) : (s.updFwd f).egr = s.egr := rfl
@[simp] theorem updFwd_grp (s : State) (f : FwdSt → FwdSt) : (s.updFwd f).grp = s.grp := rfl
@[simp] theorem updFwd_coll (s : State) (f : FwdSt → FwdSt) : (s.updFwd f).coll = s.coll := rfl
@[simp] theorem updFwd_arb (s : State) (f : FwdSt → FwdSt) : (s.updFwd f).arb = s.arb := rfl
@[simp] theorem updFwd_tel (s : State) (f : FwdSt → FwdSt) : (s.updFwd f).tel = s.tel := rfl
@[simp] theorem updFwd_freeCtr (s : State) (f : FwdSt → FwdSt) : (s.updFwd f).freeCtr = s.freeCtr := rfl
@[simp] theorem updFwd_out (s : State) (f : FwdSt → FwdSt) : (s.updFwd f).out = s.out := rfl
@[simp] theorem updFwd_pending (s : State) (f : FwdSt → FwdSt) : (s.updFwd f).pending = s.pending := rfl

@[simp] theorem updBuf_host (s : State) (f : BufSt → BufSt) : (s.updBuf f).host = s.host := rfl
@[simp] theorem updBuf_own (s : State) (f : BufSt → BufSt) : (s.updBuf f).own = s.own := rfl
@[simp] theorem updBuf_mode (s : State) (f : BufSt → BufSt) : (s.updBuf f).mode = s.mode := rfl
@[simp] theorem updBuf_fp (s : State) (f : BufSt → BufSt) : (s.updBuf f).fp = s.fp := rfl
@[simp] theorem updBuf_opt (s : State) (f : BufSt → BufSt) : (s.updBuf f).opt = s.opt := rfl
@[simp] theorem updBuf_pcs (s : State) (f : BufSt → BufSt) : (s.updBuf f).pcs = s.pcs := rfl
@[simp] theorem updBuf_tb (s : State) (f : BufSt → BufSt) : (s.updBuf f).tb = s.tb := rfl
@[simp] theorem updBuf_log (s : State) (f : BufSt → BufSt) : (s.updBuf f).log = s.log := rfl
@[simp] theorem updBuf_pwr (s : State) (f : BufSt → BufSt) : (s.updBuf f).pwr = s.pwr := rfl
@[simp] theorem updBuf_riv (s : State) (f : BufSt → BufSt) : (s.updBuf f).riv = s.riv := rfl
@[simp] theorem updBuf_err (s : State) (f : BufSt → BufSt) : (s.updBuf f).err = s.err := rfl
@[simp] theorem updBuf_pin (s : State) (f : BufSt → BufSt) : (s.updBuf f).pin = s.pin := rfl
@[simp] theorem updBuf_ver (s : State) (f : BufSt → BufSt) : (s.updBuf f).ver = s.ver := rfl
@[simp] theorem updBuf_tbl (s : State) (f : BufSt → BufSt) : (s.updBuf f).tbl = s.tbl := rfl
@[simp] theorem updBuf_lat (s : State) (f : BufSt → BufSt) : (s.updBuf f).lat = s.lat := rfl
@[simp] theorem updBuf_fwd (s : State) (f : BufSt → BufSt) : (s.updBuf f).fwd = s.fwd := rfl
@[simp] theorem updBuf_buf (s : State) (f : BufSt → BufSt) : (s.updBuf f).buf = f s.buf := rfl
@[simp] theorem updBuf_egr (s : State) (f : BufSt → BufSt) : (s.updBuf f).egr = s.egr := rfl
@[simp] theorem updBuf_grp (s : State) (f : BufSt → BufSt) : (s.updBuf f).grp = s.grp := rfl
@[simp] theorem updBuf_coll (s : State) (f : BufSt → BufSt) : (s.updBuf f).coll = s.coll := rfl
@[simp] theorem updBuf_arb (s : State) (f : BufSt → BufSt) : (s.updBuf f).arb = s.arb := rfl
@[simp] theorem updBuf_tel (s : State) (f : BufSt → BufSt) : (s.updBuf f).tel = s.tel := rfl
@[simp] theorem updBuf_freeCtr (s : State) (f : BufSt → BufSt) : (s.updBuf f).freeCtr = s.freeCtr := rfl
@[simp] theorem updBuf_out (s : State) (f : BufSt → BufSt) : (s.updBuf f).out = s.out := rfl
@[simp] theorem updBuf_pending (s : State) (f : BufSt → BufSt) : (s.updBuf f).pending = s.pending := rfl

@[simp] theorem updEgr_host (s : State) (f : EgrSt → EgrSt) : (s.updEgr f).host = s.host := rfl
@[simp] theorem updEgr_own (s : State) (f : EgrSt → EgrSt) : (s.updEgr f).own = s.own := rfl
@[simp] theorem updEgr_mode (s : State) (f : EgrSt → EgrSt) : (s.updEgr f).mode = s.mode := rfl
@[simp] theorem updEgr_fp (s : State) (f : EgrSt → EgrSt) : (s.updEgr f).fp = s.fp := rfl
@[simp] theorem updEgr_opt (s : State) (f : EgrSt → EgrSt) : (s.updEgr f).opt = s.opt := rfl
@[simp] theorem updEgr_pcs (s : State) (f : EgrSt → EgrSt) : (s.updEgr f).pcs = s.pcs := rfl
@[simp] theorem updEgr_tb (s : State) (f : EgrSt → EgrSt) : (s.updEgr f).tb = s.tb := rfl
@[simp] theorem updEgr_log (s : State) (f : EgrSt → EgrSt) : (s.updEgr f).log = s.log := rfl
@[simp] theorem updEgr_pwr (s : State) (f : EgrSt → EgrSt) : (s.updEgr f).pwr = s.pwr := rfl
@[simp] theorem updEgr_riv (s : State) (f : EgrSt → EgrSt) : (s.updEgr f).riv = s.riv := rfl
@[simp] theorem updEgr_err (s : State) (f : EgrSt → EgrSt) : (s.updEgr f).err = s.err := rfl
@[simp] theorem updEgr_pin (s : State) (f : EgrSt → EgrSt) : (s.updEgr f).pin = s.pin := rfl
@[simp] theorem updEgr_ver (s : State) (f : EgrSt → EgrSt) : (s.updEgr f).ver = s.ver := rfl
@[simp] theorem updEgr_tbl (s : State) (f : EgrSt → EgrSt) : (s.updEgr f).tbl = s.tbl := rfl
@[simp] theorem updEgr_lat (s : State) (f : EgrSt → EgrSt) : (s.updEgr f).lat = s.lat := rfl
@[simp] theorem updEgr_fwd (s : State) (f : EgrSt → EgrSt) : (s.updEgr f).fwd = s.fwd := rfl
@[simp] theorem updEgr_buf (s : State) (f : EgrSt → EgrSt) : (s.updEgr f).buf = s.buf := rfl
@[simp] theorem updEgr_egr (s : State) (f : EgrSt → EgrSt) : (s.updEgr f).egr = f s.egr := rfl
@[simp] theorem updEgr_grp (s : State) (f : EgrSt → EgrSt) : (s.updEgr f).grp = s.grp := rfl
@[simp] theorem updEgr_coll (s : State) (f : EgrSt → EgrSt) : (s.updEgr f).coll = s.coll := rfl
@[simp] theorem updEgr_arb (s : State) (f : EgrSt → EgrSt) : (s.updEgr f).arb = s.arb := rfl
@[simp] theorem updEgr_tel (s : State) (f : EgrSt → EgrSt) : (s.updEgr f).tel = s.tel := rfl
@[simp] theorem updEgr_freeCtr (s : State) (f : EgrSt → EgrSt) : (s.updEgr f).freeCtr = s.freeCtr := rfl
@[simp] theorem updEgr_out (s : State) (f : EgrSt → EgrSt) : (s.updEgr f).out = s.out := rfl
@[simp] theorem updEgr_pending (s : State) (f : EgrSt → EgrSt) : (s.updEgr f).pending = s.pending := rfl

@[simp] theorem updGrp_host (s : State) (f : GrpSt → GrpSt) : (s.updGrp f).host = s.host := rfl
@[simp] theorem updGrp_own (s : State) (f : GrpSt → GrpSt) : (s.updGrp f).own = s.own := rfl
@[simp] theorem updGrp_mode (s : State) (f : GrpSt → GrpSt) : (s.updGrp f).mode = s.mode := rfl
@[simp] theorem updGrp_fp (s : State) (f : GrpSt → GrpSt) : (s.updGrp f).fp = s.fp := rfl
@[simp] theorem updGrp_opt (s : State) (f : GrpSt → GrpSt) : (s.updGrp f).opt = s.opt := rfl
@[simp] theorem updGrp_pcs (s : State) (f : GrpSt → GrpSt) : (s.updGrp f).pcs = s.pcs := rfl
@[simp] theorem updGrp_tb (s : State) (f : GrpSt → GrpSt) : (s.updGrp f).tb = s.tb := rfl
@[simp] theorem updGrp_log (s : State) (f : GrpSt → GrpSt) : (s.updGrp f).log = s.log := rfl
@[simp] theorem updGrp_pwr (s : State) (f : GrpSt → GrpSt) : (s.updGrp f).pwr = s.pwr := rfl
@[simp] theorem updGrp_riv (s : State) (f : GrpSt → GrpSt) : (s.updGrp f).riv = s.riv := rfl
@[simp] theorem updGrp_err (s : State) (f : GrpSt → GrpSt) : (s.updGrp f).err = s.err := rfl
@[simp] theorem updGrp_pin (s : State) (f : GrpSt → GrpSt) : (s.updGrp f).pin = s.pin := rfl
@[simp] theorem updGrp_ver (s : State) (f : GrpSt → GrpSt) : (s.updGrp f).ver = s.ver := rfl
@[simp] theorem updGrp_tbl (s : State) (f : GrpSt → GrpSt) : (s.updGrp f).tbl = s.tbl := rfl
@[simp] theorem updGrp_lat (s : State) (f : GrpSt → GrpSt) : (s.updGrp f).lat = s.lat := rfl
@[simp] theorem updGrp_fwd (s : State) (f : GrpSt → GrpSt) : (s.updGrp f).fwd = s.fwd := rfl
@[simp] theorem updGrp_buf (s : State) (f : GrpSt → GrpSt) : (s.updGrp f).buf = s.buf := rfl
@[simp] theorem updGrp_egr (s : State) (f : GrpSt → GrpSt) : (s.updGrp f).egr = s.egr := rfl
@[simp] theorem updGrp_grp (s : State) (f : GrpSt → GrpSt) : (s.updGrp f).grp = f s.grp := rfl
@[simp] theorem updGrp_coll (s : State) (f : GrpSt → GrpSt) : (s.updGrp f).coll = s.coll := rfl
@[simp] theorem updGrp_arb (s : State) (f : GrpSt → GrpSt) : (s.updGrp f).arb = s.arb := rfl
@[simp] theorem updGrp_tel (s : State) (f : GrpSt → GrpSt) : (s.updGrp f).tel = s.tel := rfl
@[simp] theorem updGrp_freeCtr (s : State) (f : GrpSt → GrpSt) : (s.updGrp f).freeCtr = s.freeCtr := rfl
@[simp] theorem updGrp_out (s : State) (f : GrpSt → GrpSt) : (s.updGrp f).out = s.out := rfl
@[simp] theorem updGrp_pending (s : State) (f : GrpSt → GrpSt) : (s.updGrp f).pending = s.pending := rfl

@[simp] theorem updColl_host (s : State) (f : CollSt → CollSt) : (s.updColl f).host = s.host := rfl
@[simp] theorem updColl_own (s : State) (f : CollSt → CollSt) : (s.updColl f).own = s.own := rfl
@[simp] theorem updColl_mode (s : State) (f : CollSt → CollSt) : (s.updColl f).mode = s.mode := rfl
@[simp] theorem updColl_fp (s : State) (f : CollSt → CollSt) : (s.updColl f).fp = s.fp := rfl
@[simp] theorem updColl_opt (s : State) (f : CollSt → CollSt) : (s.updColl f).opt = s.opt := rfl
@[simp] theorem updColl_pcs (s : State) (f : CollSt → CollSt) : (s.updColl f).pcs = s.pcs := rfl
@[simp] theorem updColl_tb (s : State) (f : CollSt → CollSt) : (s.updColl f).tb = s.tb := rfl
@[simp] theorem updColl_log (s : State) (f : CollSt → CollSt) : (s.updColl f).log = s.log := rfl
@[simp] theorem updColl_pwr (s : State) (f : CollSt → CollSt) : (s.updColl f).pwr = s.pwr := rfl
@[simp] theorem updColl_riv (s : State) (f : CollSt → CollSt) : (s.updColl f).riv = s.riv := rfl
@[simp] theorem updColl_err (s : State) (f : CollSt → CollSt) : (s.updColl f).err = s.err := rfl
@[simp] theorem updColl_pin (s : State) (f : CollSt → CollSt) : (s.updColl f).pin = s.pin := rfl
@[simp] theorem updColl_ver (s : State) (f : CollSt → CollSt) : (s.updColl f).ver = s.ver := rfl
@[simp] theorem updColl_tbl (s : State) (f : CollSt → CollSt) : (s.updColl f).tbl = s.tbl := rfl
@[simp] theorem updColl_lat (s : State) (f : CollSt → CollSt) : (s.updColl f).lat = s.lat := rfl
@[simp] theorem updColl_fwd (s : State) (f : CollSt → CollSt) : (s.updColl f).fwd = s.fwd := rfl
@[simp] theorem updColl_buf (s : State) (f : CollSt → CollSt) : (s.updColl f).buf = s.buf := rfl
@[simp] theorem updColl_egr (s : State) (f : CollSt → CollSt) : (s.updColl f).egr = s.egr := rfl
@[simp] theorem updColl_grp (s : State) (f : CollSt → CollSt) : (s.updColl f).grp = s.grp := rfl
@[simp] theorem updColl_coll (s : State) (f : CollSt → CollSt) : (s.updColl f).coll = f s.coll := rfl
@[simp] theorem updColl_arb (s : State) (f : CollSt → CollSt) : (s.updColl f).arb = s.arb := rfl
@[simp] theorem updColl_tel (s : State) (f : CollSt → CollSt) : (s.updColl f).tel = s.tel := rfl
@[simp] theorem updColl_freeCtr (s : State) (f : CollSt → CollSt) : (s.updColl f).freeCtr = s.freeCtr := rfl
@[simp] theorem updColl_out (s : State) (f : CollSt → CollSt) : (s.updColl f).out = s.out := rfl
@[simp] theorem updColl_pending (s : State) (f : CollSt → CollSt) : (s.updColl f).pending = s.pending := rfl

@[simp] theorem updArb_host (s : State) (f : ArbSt → ArbSt) : (s.updArb f).host = s.host := rfl
@[simp] theorem updArb_own (s : State) (f : ArbSt → ArbSt) : (s.updArb f).own = s.own := rfl
@[simp] theorem updArb_mode (s : State) (f : ArbSt → ArbSt) : (s.updArb f).mode = s.mode := rfl
@[simp] theorem updArb_fp (s : State) (f : ArbSt → ArbSt) : (s.updArb f).fp = s.fp := rfl
@[simp] theorem updArb_opt (s : State) (f : ArbSt → ArbSt) : (s.updArb f).opt = s.opt := rfl
@[simp] theorem updArb_pcs (s : State) (f : ArbSt → ArbSt) : (s.updArb f).pcs = s.pcs := rfl
@[simp] theorem updArb_tb (s : State) (f : ArbSt → ArbSt) : (s.updArb f).tb = s.tb := rfl
@[simp] theorem updArb_log (s : State) (f : ArbSt → ArbSt) : (s.updArb f).log = s.log := rfl
@[simp] theorem updArb_pwr (s : State) (f : ArbSt → ArbSt) : (s.updArb f).pwr = s.pwr := rfl
@[simp] theorem updArb_riv (s : State) (f : ArbSt → ArbSt) : (s.updArb f).riv = s.riv := rfl
@[simp] theorem updArb_err (s : State) (f : ArbSt → ArbSt) : (s.updArb f).err = s.err := rfl
@[simp] theorem updArb_pin (s : State) (f : ArbSt → ArbSt) : (s.updArb f).pin = s.pin := rfl
@[simp] theorem updArb_ver (s : State) (f : ArbSt → ArbSt) : (s.updArb f).ver = s.ver := rfl
@[simp] theorem updArb_tbl (s : State) (f : ArbSt → ArbSt) : (s.updArb f).tbl = s.tbl := rfl
@[simp] theorem updArb_lat (s : State) (f : ArbSt → ArbSt) : (s.updArb f).lat = s.lat := rfl
@[simp] theorem updArb_fwd (s : State) (f : ArbSt → ArbSt) : (s.updArb f).fwd = s.fwd := rfl
@[simp] theorem updArb_buf (s : State) (f : ArbSt → ArbSt) : (s.updArb f).buf = s.buf := rfl
@[simp] theorem updArb_egr (s : State) (f : ArbSt → ArbSt) : (s.updArb f).egr = s.egr := rfl
@[simp] theorem updArb_grp (s : State) (f : ArbSt → ArbSt) : (s.updArb f).grp = s.grp := rfl
@[simp] theorem updArb_coll (s : State) (f : ArbSt → ArbSt) : (s.updArb f).coll = s.coll := rfl
@[simp] theorem updArb_arb (s : State) (f : ArbSt → ArbSt) : (s.updArb f).arb = f s.arb := rfl
@[simp] theorem updArb_tel (s : State) (f : ArbSt → ArbSt) : (s.updArb f).tel = s.tel := rfl
@[simp] theorem updArb_freeCtr (s : State) (f : ArbSt → ArbSt) : (s.updArb f).freeCtr = s.freeCtr := rfl
@[simp] theorem updArb_out (s : State) (f : ArbSt → ArbSt) : (s.updArb f).out = s.out := rfl
@[simp] theorem updArb_pending (s : State) (f : ArbSt → ArbSt) : (s.updArb f).pending = s.pending := rfl

@[simp] theorem updTel_host (s : State) (f : TelSt → TelSt) : (s.updTel f).host = s.host := rfl
@[simp] theorem updTel_own (s : State) (f : TelSt → TelSt) : (s.updTel f).own = s.own := rfl
@[simp] theorem updTel_mode (s : State) (f : TelSt → TelSt) : (s.updTel f).mode = s.mode := rfl
@[simp] theorem updTel_fp (s : State) (f : TelSt → TelSt) : (s.updTel f).fp = s.fp := rfl
@[simp] theorem updTel_opt (s : State) (f : TelSt → TelSt) : (s.updTel f).opt = s.opt := rfl
@[simp] theorem updTel_pcs (s : State) (f : TelSt → TelSt) : (s.updTel f).pcs = s.pcs := rfl
@[simp] theorem updTel_tb (s : State) (f : TelSt → TelSt) : (s.updTel f).tb = s.tb := rfl
@[simp] theorem updTel_log (s : State) (f : TelSt → TelSt) : (s.updTel f).log = s.log := rfl
@[simp] theorem updTel_pwr (s : State) (f : TelSt → TelSt) : (s.updTel f).pwr = s.pwr := rfl
@[simp] theorem updTel_riv (s : State) (f : TelSt → TelSt) : (s.updTel f).riv = s.riv := rfl
@[simp] theorem updTel_err (s : State) (f : TelSt → TelSt) : (s.updTel f).err = s.err := rfl
@[simp] theorem updTel_pin (s : State) (f : TelSt → TelSt) : (s.updTel f).pin = s.pin := rfl
@[simp] theorem updTel_ver (s : State) (f : TelSt → TelSt) : (s.updTel f).ver = s.ver := rfl
@[simp] theorem updTel_tbl (s : State) (f : TelSt → TelSt) : (s.updTel f).tbl = s.tbl := rfl
@[simp] theorem updTel_lat (s : State) (f : TelSt → TelSt) : (s.updTel f).lat = s.lat := rfl
@[simp] theorem updTel_fwd (s : State) (f : TelSt → TelSt) : (s.updTel f).fwd = s.fwd := rfl
@[simp] theorem updTel_buf (s : State) (f : TelSt → TelSt) : (s.updTel f).buf = s.buf := rfl
@[simp] theorem updTel_egr (s : State) (f : TelSt → TelSt) : (s.updTel f).egr = s.egr := rfl
@[simp] theorem updTel_grp (s : State) (f : TelSt → TelSt) : (s.updTel f).grp = s.grp := rfl
@[simp] theorem updTel_coll (s : State) (f : TelSt → TelSt) : (s.updTel f).coll = s.coll := rfl
@[simp] theorem updTel_arb (s : State) (f : TelSt → TelSt) : (s.updTel f).arb = s.arb := rfl
@[simp] theorem updTel_tel (s : State) (f : TelSt → TelSt) : (s.updTel f).tel = f s.tel := rfl
@[simp] theorem updTel_freeCtr (s : State) (f : TelSt → TelSt) : (s.updTel f).freeCtr = s.freeCtr := rfl
@[simp] theorem updTel_out (s : State) (f : TelSt → TelSt) : (s.updTel f).out = s.out := rfl
@[simp] theorem updTel_pending (s : State) (f : TelSt → TelSt) : (s.updTel f).pending = s.pending := rfl

@[simp] theorem emit_host (s : State) (a : Out) : (s.emit a).host = s.host := rfl
@[simp] theorem emit_own (s : State) (a : Out) : (s.emit a).own = s.own := rfl
@[simp] theorem emit_mode (s : State) (a : Out) : (s.emit a).mode = s.mode := rfl
@[simp] theorem emit_fp (s : State) (a : Out) : (s.emit a).fp = s.fp := rfl
@[simp] theorem emit_opt (s : State) (a : Out) : (s.emit a).opt = s.opt := rfl
@[simp] theorem emit_pcs (s : State) (a : Out) : (s.emit a).pcs = s.pcs := rfl
@[simp] theorem emit_tb (s : State) (a : Out) : (s.emit a).tb = s.tb := rfl
@[simp] theorem emit_log (s : State) (a : Out) : (s.emit a).log = s.log := rfl
@[simp] theorem emit_pwr (s : State) (a : Out) : (s.emit a).pwr = s.pwr := rfl
@[simp] theorem emit_riv (s : State) (a : Out) : (s.emit a).riv = s.riv := rfl
@[simp] theorem emit_err (s : State) (a : Out) : (s.emit a).err = s.err := rfl
@[simp] theorem emit_pin (s : State) (a : Out) : (s.emit a).pin = s.pin := rfl
@[simp] theorem emit_ver (s : State) (a : Out) : (s.emit a).ver = s.ver := rfl
@[simp] theorem emit_tbl (s : State) (a : Out) : (s.emit a).tbl = s.tbl := rfl
@[simp] theorem emit_lat (s : State) (a : Out) : (s.emit a).lat = s.lat := rfl
@[simp] theorem emit_fwd (s : State) (a : Out) : (s.emit a).fwd = s.fwd := rfl
@[simp] theorem emit_buf (s : State) (a : Out) : (s.emit a).buf = s.buf := rfl
@[simp] theorem emit_egr (s : State) (a : Out) : (s.emit a).egr = s.egr := rfl
@[simp] theorem emit_grp (s : State) (a : Out) : (s.emit a).grp = s.grp := rfl
@[simp] theorem emit_coll (s : State) (a : Out) : (s.emit a).coll = s.coll := rfl
@[simp] theorem emit_arb (s : State) (a : Out) : (s.emit a).arb = s.arb := rfl
@[simp] theorem emit_tel (s : State) (a : Out) : (s.emit a).tel = s.tel := rfl
@[simp] theorem emit_freeCtr (s : State) (a : Out) : (s.emit a).freeCtr = s.freeCtr := rfl
@[simp] theorem emit_out (s : State) (a : Out) : (s.emit a).out = a :: s.out := rfl
@[simp] theorem emit_pending (s : State) (a : Out) : (s.emit a).pending = s.pending := rfl

@[simp] theorem drawn_host (s : State) : (s.drawn).host = s.host := rfl
@[simp] theorem drawn_own (s : State) : (s.drawn).own = s.own := rfl
@[simp] theorem drawn_mode (s : State) : (s.drawn).mode = s.mode := rfl
@[simp] theorem drawn_fp (s : State) : (s.drawn).fp = s.fp := rfl
@[simp] theorem drawn_opt (s : State) : (s.drawn).opt = s.opt := rfl
@[simp] theorem drawn_pcs (s : State) : (s.drawn).pcs = s.pcs := rfl
@[simp] theorem drawn_tb (s : State) : (s.drawn).tb = s.tb := rfl
@[simp] theorem drawn_log (s : State) : (s.drawn).log = s.log := rfl
@[simp] theorem drawn_pwr (s : State) : (s.drawn).pwr = s.pwr := rfl
@[simp] theorem drawn_riv (s : State) : (s.drawn).riv = s.riv := rfl
@[simp] theorem drawn_err (s : State) : (s.drawn).err = s.err := rfl
@[simp] theorem drawn_pin (s : State) : (s.drawn).pin = s.pin := rfl
@[simp] theorem drawn_ver (s : State) : (s.drawn).ver = s.ver := rfl
@[simp] theorem drawn_tbl (s : State) : (s.drawn).tbl = s.tbl := rfl
@[simp] theorem drawn_lat (s : State) : (s.drawn).lat = s.lat := rfl
@[simp] theorem drawn_fwd (s : State) : (s.drawn).fwd = s.fwd := rfl
@[simp] theorem drawn_buf (s : State) : (s.drawn).buf = s.buf := rfl
@[simp] theorem drawn_egr (s : State) : (s.drawn).egr = s.egr := rfl
@[simp] theorem drawn_grp (s : State) : (s.drawn).grp = s.grp := rfl
@[simp] theorem drawn_coll (s : State) : (s.drawn).coll = s.coll := rfl
@[simp] theorem drawn_arb (s : State) : (s.drawn).arb = s.arb := rfl
@[simp] theorem drawn_tel (s : State) : (s.drawn).tel = s.tel := rfl
@[simp] theorem drawn_freeCtr (s : State) : (s.drawn).freeCtr = s.freeCtr + 1 := rfl
@[simp] theorem drawn_out (s : State) : (s.drawn).out = s.out := rfl
@[simp] theorem drawn_pending (s : State) : (s.drawn).pending = s.pending := rfl

end Sys2Proof.Machine.State
end

