-- ==== Sys2Proof/Laws/KeptUpdate.lean ====
section
/-! SUPPORT. What Machine/Update.lean keeps: no definition of it changes the ownership registers or the queue of commands. -/

namespace Sys2Proof.Machine
open State

/-- What most commands leave alone: the ownership registers and the queue of commands. -/
def State.kept (s : State) : OwnSt × List Instr := (s.own, s.pending)

@[simp] theorem emit_kept (s : State) (x : Out) : (s.emit x).kept = s.kept := rfl

@[simp] theorem drawn_kept (s : State) : s.drawn.kept = s.kept := rfl

@[simp] theorem kept_foldl {α : Type} (f : State → α → State) (h : ∀ t a, (f t a).kept = t.kept) (l : List α) (s :
    State) :
    (l.foldl f s).kept = s.kept := by induction l generalizing s with
  | nil => rfl
  | cons a l ih => simp [ih, h]

@[simp] theorem kept_foldr {α : Type} (f : α → State → State) (h : ∀ t a, (f a t).kept = t.kept) (l : List α) (s :
    State) :
    (l.foldr f s).kept = s.kept := by induction l generalizing s with
  | nil => rfl
  | cons a l ih => simp [ih, h]

@[simp] theorem kept_foldl_fst {α β : Type} (f : State × β → α → State × β) (h : ∀ x a, (f x a).1.kept = x.1.kept)
    (l : List α) (x : State × β) : (l.foldl f x).1.kept = x.1.kept := by induction l generalizing x with
  | nil => rfl
  | cons a l ih => simp [ih, h]

@[simp] theorem kept_ite (c : Prop) [Decidable c] (a b : State) : (if c then a else b).kept = if c then a.kept else
    b.kept := by split <;> rfl

@[simp] theorem kept_ite1 {α : Type} (c : Prop) [Decidable c] (a b : State × α) : (if c then a else b).1.kept = if c
    then a.1.kept else b.1.kept := by split <;> rfl

theorem kept_pair {α β : Type} {s : State} (x : State × α) (f : α → β) (h : x.1.kept = s.kept) :
    (x.1, f x.2).1.kept = s.kept := h

@[simp] theorem updHost_kept : ∀ (s : State) (f : HostSt → HostSt), (s.updHost f).kept = s.kept := by
  intros; rfl

@[simp] theorem updMode_kept : ∀ (s : State) (f : ModeSt → ModeSt), (s.updMode f).kept = s.kept := by
  intros; rfl

@[simp] theorem updFp_kept : ∀ (s : State) (f : FpSt → FpSt), (s.updFp f).kept = s.kept := by
  intros; rfl

@[simp] theorem updOpt_kept : ∀ (s : State) (f : OptSt → OptSt), (s.updOpt f).kept = s.kept := by
  intros; rfl

@[simp] theorem updPcs_kept : ∀ (s : State) (f : PcsSt → PcsSt), (s.updPcs f).kept = s.kept := by
  intros; rfl

@[simp] theorem updTb_kept : ∀ (s : State) (f : TbSt → TbSt), (s.updTb f).kept = s.kept := by
  intros; rfl

@[simp] theorem updLog_kept : ∀ (s : State) (f : LogSt → LogSt), (s.updLog f).kept = s.kept := by
  intros; rfl

@[simp] theorem updPwr_kept : ∀ (s : State) (f : PwrSt → PwrSt), (s.updPwr f).kept = s.kept := by
  intros; rfl

@[simp] theorem updRiv_kept : ∀ (s : State) (f : RivSt → RivSt), (s.updRiv f).kept = s.kept := by
  intros; rfl

@[simp] theorem updErr_kept : ∀ (s : State) (f : ErrSt → ErrSt), (s.updErr f).kept = s.kept := by
  intros; rfl

@[simp] theorem updPin_kept : ∀ (s : State) (f : PinSt → PinSt), (s.updPin f).kept = s.kept := by
  intros; rfl

@[simp] theorem updVer_kept : ∀ (s : State) (f : VerSt → VerSt), (s.updVer f).kept = s.kept := by
  intros; rfl

@[simp] theorem updTbl_kept : ∀ (s : State) (f : TblSt → TblSt), (s.updTbl f).kept = s.kept := by
  intros; rfl

@[simp] theorem updLat_kept : ∀ (s : State) (f : LatSt → LatSt), (s.updLat f).kept = s.kept := by
  intros; rfl

@[simp] theorem updFwd_kept : ∀ (s : State) (f : FwdSt → FwdSt), (s.updFwd f).kept = s.kept := by
  intros; rfl

@[simp] theorem updBuf_kept : ∀ (s : State) (f : BufSt → BufSt), (s.updBuf f).kept = s.kept := by
  intros; rfl

@[simp] theorem updEgr_kept : ∀ (s : State) (f : EgrSt → EgrSt), (s.updEgr f).kept = s.kept := by
  intros; rfl

@[simp] theorem updGrp_kept : ∀ (s : State) (f : GrpSt → GrpSt), (s.updGrp f).kept = s.kept := by
  intros; rfl

@[simp] theorem updColl_kept : ∀ (s : State) (f : CollSt → CollSt), (s.updColl f).kept = s.kept := by
  intros; rfl

@[simp] theorem updArb_kept : ∀ (s : State) (f : ArbSt → ArbSt), (s.updArb f).kept = s.kept := by
  intros; rfl

@[simp] theorem updTel_kept : ∀ (s : State) (f : TelSt → TelSt), (s.updTel f).kept = s.kept := by
  intros; rfl

end Sys2Proof.Machine
end

