-- ==== Sys2Proof/Laws/KeptOps.lean ====
section
/-! SUPPORT. What Machine/Ops.lean keeps: no definition of it changes the ownership registers or the queue of commands. -/

namespace Sys2Proof.Machine
open State

@[simp] theorem updRing_kept : ∀ (s : State) (m : Master) (n : Nat) (f : Ring → Ring), (updRing s m n f).kept = s.kept
    := by
  intros; rfl

@[simp] theorem memWrite_kept : ∀ (s : State) (m : Master) (a : Nat) (bs : List Byte), (memWrite s m a bs).kept =
    s.kept := by
  intros; unfold memWrite; (repeat' split) <;> simp

@[simp] theorem updVec_kept : ∀ (s : State) (m : Master) (v : Nat) (f : MsiVec → MsiVec), (updVec s m v f).kept =
    s.kept := by
  intros; rfl

@[simp] theorem fire_kept : ∀ (s : State) (m : Master) (v : Nat), (fire s m v).kept = s.kept := by
  intros; unfold fire; (repeat' split) <;> simp

@[simp] theorem signal_kept : ∀ (s : State) (m : Master) (v : Nat), (signal s m v).kept = s.kept := by
  intros; simp [signal]

@[simp] theorem ringPut_kept : ∀ (s : State) (m : Master) (n : Nat) (irq : Bool) (entry : Bool → List Byte), (ringPut
    s
    m n irq entry).kept = s.kept := by
  intros; simp [ringPut]

@[simp] theorem updPort_kept : ∀ (s : State) (m : Master) (f : Port → Port), (updPort s m f).kept = s.kept := by
  intros; rfl

@[simp] theorem eventTo_kept : ∀ (s : State) (m : Master) (n code object data : Nat), (eventTo s m n code object
    data).kept = s.kept := by
  intros; simp [eventTo]

@[simp] theorem raiseZero_kept (s : State) (t : State) (m : Master) : (raiseZero s t m).kept = t.kept := by
  unfold raiseZero; (repeat' split) <;> simp

@[simp] theorem postTo_kept : ∀ (s : State) (code object data : Nat) (m : Master), (postTo s code object data m).kept
    =
    s.kept := by
  intros; unfold postTo; (repeat' split) <;> simp

@[simp] theorem postAll_kept : ∀ (s : State) (code object data : Nat), (postAll s code object data).kept = s.kept :=
    by
  intros; simp [postAll]

@[simp] theorem winEvent_kept : ∀ (s : State) (code key data lo len n : Nat), (winEvent s code key data lo len n).kept
    = s.kept := by
  intros; rfl

@[simp] theorem winFlush_kept : ∀ (s : State), (winFlush s).kept = s.kept := by
  intros; simp [winFlush]

@[simp] theorem eventsLost_kept : ∀ (s : State) (m : Master) (n : Nat), (eventsLost s m n).kept = s.kept := by
  intros; simp [eventsLost]

@[simp] theorem complete_kept : ∀ (s : State) (o : Order) (status data : Nat), (complete s o status data).kept =
    s.kept
    := by
  intros; simp [complete]

@[simp] theorem releaseHeld_kept : ∀ (a : List Held) (a_1 : State) (a_2 : Master) (a_3 : Nat), (releaseHeld a a_1 a_2
    a_3).kept = a_1.kept := by
  intros
  first
    | (fun_induction releaseHeld <;> simp_all; done)
    | (fun_induction releaseHeld <;> (try dsimp only) <;> (repeat' split) <;> simp_all; done)

@[simp] theorem logOffer_kept : ∀ (s : State) (type source : Nat) (late moved : Bool) (dt body : Nat), (logOffer s
    type
    source late moved dt body).kept = s.kept := by
  intros; simp [logOffer]

@[simp] theorem logNow_kept : ∀ (s : State) (type source body : Nat), (logNow s type source body).kept = s.kept := by
  intros; simp [logNow]

@[simp] theorem updTime_kept : ∀ (s : State) (f : TbSt → TbSt), (updTime s f).kept = s.kept := by
  intros; simp [updTime]

@[simp] theorem setServo_kept : ∀ (s : State) (v : Servo), (setServo s v).kept = s.kept := by
  intros; simp [setServo]

@[simp] theorem diverge_kept : ∀ (s : State) (cause : Nat), (diverge s cause).kept = s.kept := by
  intros; simp [diverge]

@[simp] theorem divergeEnd_kept : ∀ (s : State) (fp version : Nat), (divergeEnd s fp version).kept = s.kept := by
  intros; simp [divergeEnd]

@[simp] theorem postError_kept : ∀ (s : State) (g slot : Nat) (fatal : Bool) (r : ErrRec), (postError s g slot fatal
    r).kept = s.kept := by
  intros; simp [postError]

@[simp] theorem putErr_kept : ∀ (s : State) (g slot : Nat) (r : ErrRec), (putErr s g slot r).kept = s.kept := by
  intros; rfl

@[simp] theorem recordError_kept : ∀ (s : State) (g cls unit level outcome detail : Nat), (recordError s g cls unit
    level outcome detail).kept = s.kept := by
  intros; unfold recordError; (repeat' split) <;> simp

@[simp] theorem recoverError_kept : ∀ (s : State) (g cls unit level outcome : Nat), (recoverError s g cls unit level
    outcome).kept = s.kept := by
  intros; unfold recoverError; (repeat' split) <;> simp

@[simp] theorem partBins_kept (s : State) : (partBins s).kept = s.kept := rfl

@[simp] theorem haltBegin_kept : ∀ (s : State), (haltBegin s).kept = s.kept := by
  intros; simp [haltBegin]

@[simp] theorem advRefresh_kept : ∀ (s : State), (advRefresh s).kept = s.kept := by
  intros; rfl

@[simp] theorem trayIbi_kept : ∀ (s : State) (index : Nat), (trayIbi s index).kept = s.kept := by
  intros; simp [trayIbi]

@[simp] theorem noteTray_kept (s t : State) : (noteTray s t).kept = t.kept := by
  unfold noteTray; dsimp only; (repeat' split) <;> simp

end Sys2Proof.Machine
end

