-- ==== Sys2Proof/Laws/KeptArbOps.lean ====
section
/-! SUPPORT. What Machine/ArbOps.lean keeps: no definition of it changes the ownership registers or the queue of commands. -/

namespace Sys2Proof.Machine
open State

@[simp] theorem updArbOf_kept : ∀ (s : State) (kind i : Nat) (f : Arb → Arb), (updArbOf s kind i f).kept = s.kept :=
    by
  intros; rfl

@[simp] theorem arbUse_kept (s : State) (kind : Nat) (i : Nat) (me : Nat) (cs : List ArbCycle) : (arbUse s kind i me
    cs).1.kept = s.kept := by
  simp [arbUse]

@[simp] theorem arbUseAll_kept (s : State) (kind : Nat) (me : Nat) (is : List Nat) : (arbUseAll s kind me is).kept =
    s.kept := by
  simp [arbUseAll]

@[simp] theorem dramUse_kept (s : State) (me : Nat) (d : DramUse) : (dramUse s me d).kept = s.kept := by
  simp [dramUse]

end Sys2Proof.Machine
end

