-- ==== Sys2Proof/Laws/KeptLogOps.lean ====
section
/-! SUPPORT. What Machine/LogOps.lean keeps: no definition of it changes the ownership registers or the queue of commands. -/

namespace Sys2Proof.Machine
open State

@[simp] theorem logSpace_kept : ∀ (s : State), (logSpace s).kept = s.kept := by
  intros; simp [logSpace]

@[simp] theorem closeBlock_kept : ∀ (s : State) (why : Nat), (closeBlock s why).kept = s.kept := by
  intros; unfold closeBlock; (repeat' split) <;> simp

@[simp] theorem closeIfFull_kept : ∀ (s : State), (closeIfFull s).kept = s.kept := by
  intros; unfold closeIfFull; (repeat' split) <;> simp

@[simp] theorem logStore_kept : ∀ (s : State) (r : Rec), (logStore s r).kept = s.kept := by
  intros; simp [logStore]

end Sys2Proof.Machine
end

