-- ==== Sys2Proof/Laws/KeptOrders.lean ====
section
/-! SUPPORT. What Machine/Orders.lean keeps: no definition of it changes the ownership registers or the queue of commands. -/

namespace Sys2Proof.Machine
open State

@[simp] theorem reply_kept : ∀ (f : Form) (o : Order) (s : State) (a : Reply), (reply f o s a).kept = s.kept := by
  intros; unfold reply; (repeat' split) <;> simp

theorem runOrder_kept (f : Form) (o : Order) (s : State) (c : Checks) (body : State → State × Reply)
    (h : (body s).1.kept = s.kept) : (runOrder f o s c body).kept = s.kept := by
  unfold runOrder; dsimp only; (repeat' split) <;> simp [h]

theorem runSecond_kept (f : Form) (o : Order) (s : State) (c : List Byte → Checks)
    (body : List Byte → State → State × Reply) (h : ∀ bs, (body bs s).1.kept = s.kept) :
    (runSecond f o s c body).kept = s.kept := by
  unfold runSecond; dsimp only; (repeat' split) <;> simp [h]

theorem runPtr_kept (f : Form) (o : Order) (s : State) (c1 : Checks) (c2 : List Byte → Checks)
    (body : List Byte → State → State × Reply) (h : ∀ bs, (body bs s).1.kept = s.kept) :
    (runPtr f o s c1 c2 body).kept = s.kept := by
  unfold runPtr; (repeat' split) <;> simp [h, runSecond_kept]

end Sys2Proof.Machine
end

