-- ==== Sys2Proof/Laws/KeptVerOps.lean ====
section
/-! SUPPORT. What Machine/VerOps.lean keeps: no definition of it changes the ownership registers or the queue of commands. -/

namespace Sys2Proof.Machine
open State

@[simp] theorem updSlot_kept : ∀ (s : State) (seq : Nat) (f : VSlot → VSlot), (updSlot s seq f).kept = s.kept := by
  intros; rfl

@[simp] theorem countFlight_kept : ∀ (s : State) (seq up down : Nat), (countFlight s seq up down).kept = s.kept := by
  intros; rfl

@[simp] theorem fpChange_kept : ∀ (s : State) (active staged : Bool) (old new : BitVec 128), (fpChange s active staged
    old new).kept = s.kept := by
  intros; simp [fpChange]

@[simp] theorem directDone_kept : ∀ (s : State) (direct : Bool), (directDone s direct).kept = s.kept := by
  intros; simp [directDone]

@[simp] theorem contentsFp_kept : ∀ {α : Type} (s : State) (c : Contents α) (direct : Bool) (h : α → BitVec 128) (d
    new
    : α), (contentsFp s c direct h d new).kept = s.kept := by
  intros; simp [contentsFp]

@[simp] theorem updBank_kept : ∀ (s : State) (b : Bool) (f : Bank → Bank), (updBank s b f).kept = s.kept := by
  intros; rfl

@[simp] theorem bankElementChange_kept : ∀ (s : State) (b : Bool) (old new : BitVec 256), (bankElementChange s b old
    new).kept = s.kept := by
  intros; simp [bankElementChange]

end Sys2Proof.Machine
end

