-- ==== Sys2Proof/Laws/KeptShaving.lean ====
section
/-! SUPPORT. What Machine/Shaving.lean keeps: no definition of it changes the ownership registers or the queue of commands. -/

namespace Sys2Proof.Machine
open State

@[simp] theorem selBump_kept : ∀ (s : State) (slice n : Nat) (p : SelCtr → Bool), (selBump s slice n p).kept = s.kept
    := by
  intros; rfl

@[simp] theorem portEvent_kept : ∀ (s : State) (port ev n : Nat), (portEvent s port ev n).kept = s.kept := by
  intros; rfl

@[simp] theorem queueEvent_kept : ∀ (s : State) (q ev n : Nat), (queueEvent s q ev n).kept = s.kept := by
  intros; rfl

@[simp] theorem frameEvents_kept : ∀ (s : State) (port base lenBase : Nat) (bs : List Byte), (frameEvents s port base
    lenBase bs).kept = s.kept := by
  intros; simp [frameEvents]

@[simp] theorem countDrop_kept : ∀ (s : State) (port cause : Nat), (countDrop s port cause).kept = s.kept := by
  intros; unfold countDrop; (repeat' split) <;> simp

@[simp] theorem countEgressDrop_kept : ∀ (s : State) (port cause : Nat), (countEgressDrop s port cause).kept = s.kept
    := by
  intros; rfl

@[simp] theorem sketchesAdd_kept (s : State) (p : Pkt) (f : Finish) : (sketchesAdd s p f).kept = s.kept := by
  unfold sketchesAdd; refine kept_foldl _ (fun t a => ?_) _ _; dsimp only; split <;> simp

@[simp] theorem evidence_kept : ∀ (s : State) (p : Pkt) (f : Finish), (evidence s p f).kept = s.kept := by
  intros; simp [evidence]

@[simp] theorem exportOne_kept : ∀ (s : State) (i slice : Nat) (bs : List Byte), (exportOne s i slice bs).kept =
    s.kept
    := by
  intros; simp [exportOne]

@[simp] theorem freezeDone_kept : ∀ (s : State), (freezeDone s).kept = s.kept := by
  intros; simp [freezeDone]

@[simp] theorem freezeCapture_kept : ∀ (s : State) (by_ : Option Nat), (freezeCapture s by_).kept = s.kept := by
  intros; simp [freezeCapture]

@[simp] theorem exportsAdd_kept : ∀ (s : State) (p : Pkt) (seq : Nat) (f : Finish) (shav : List Byte), (exportsAdd s p
    seq f shav).kept = s.kept := by
  intros; simp [exportsAdd]

@[simp] theorem finalise_kept : ∀ (s : State) (p : Pkt) (pool : Option Nat) (copies : Nat) (f : Finish), (finalise s p
    pool copies f).kept = s.kept := by
  intros; simp [finalise]

@[simp] theorem dropUnstored_kept : ∀ (s : State) (p : Pkt) (cause : Nat), (dropUnstored s p cause).kept = s.kept :=
    by
  intros; simp [dropUnstored]

@[simp] theorem bwAdd_kept : ∀ (s : State) (port : Nat) (tx : Bool) (dt len : Nat), (bwAdd s port tx dt len).kept =
    s.kept := by
  intros; rfl

end Sys2Proof.Machine
end

