-- ==== Sys2Proof/Laws/KeptBufOps.lean ====
section
/-! SUPPORT. What Machine/BufOps.lean keeps: no definition of it changes the ownership registers or the queue of commands. -/

namespace Sys2Proof.Machine
open State

@[simp] theorem newCycle_kept (s : State) (c : Nat) : (newCycle s c).kept = s.kept := by
  simp [newCycle]

@[simp] theorem putRec_kept : ∀ (s : State) (ptr : Nat) (r : Billet), (putRec s ptr r).kept = s.kept := by
  intros; rfl

@[simp] theorem setBusy_kept : ∀ (s : State) (ptr : Nat) (on : Bool), (setBusy s ptr on).kept = s.kept := by
  intros; rfl

@[simp] theorem flipParity_kept (s : State) (ptr : Nat) : (flipParity s ptr).kept = s.kept := rfl

@[simp] theorem leak_kept : ∀ (s : State) (ptr : Nat), (leak s ptr).kept = s.kept := by
  intros; simp [leak]

@[simp] theorem billetFault_kept : ∀ (s : State) (cause ptr : Nat), (billetFault s cause ptr).kept = s.kept := by
  intros; simp [billetFault]

@[simp] theorem poolLow_kept : ∀ (s : State) (p : Nat), (poolLow s p).kept = s.kept := by
  intros; simp [poolLow]

@[simp] theorem grantUpset_kept (s : State) (u : GrantUpset) : (grantUpset s u).kept = s.kept := by
  unfold grantUpset; (repeat' split) <;> simp

@[simp] theorem grantIn_kept (p n : Nat) (s : State) : (grantIn p n s).1.kept = s.kept := by
  induction n generalizing s with
  | zero => rfl
  | succ n ih => unfold grantIn; dsimp only; (repeat' split) <;> simp [ih]

@[simp] theorem grantPool_kept (s : State) (p : Nat) : (grantPool s p).1.kept = s.kept := by
  simp [grantPool]

@[simp] theorem claimFrom_kept : ∀ (n p : Nat) (s : State), (claimFrom n p s).1.kept = s.kept
  | 0, _, _ => rfl
  | n + 1, p, s => by
    have h := grantPool_kept s p
    unfold claimFrom
    split
    · rename_i e; rw [e] at h; exact h
    · rename_i e; rw [e] at h; split
      · exact h
      · rw [claimFrom_kept n]; exact h

@[simp] theorem claim_kept : ∀ (s : State) (len : Nat), (claim s len).fst.kept = s.kept := by
  intros; simp [claim]

@[simp] theorem writeBillet_kept : ∀ (s : State) (ptr refs : Nat) (frame : List Byte) (bridge : BitVec 512),
    (writeBillet s ptr refs frame bridge).kept = s.kept := by
  intros; rfl

@[simp] theorem freeBillet_kept (s : State) (ptr : Nat) : (freeBillet s ptr).kept = s.kept := by
  simp [freeBillet]

@[simp] theorem releaseAt_kept : ∀ (s : State) (ptr : Nat), (releaseAt s ptr).kept = s.kept := by
  intros; simp [releaseAt]

@[simp] theorem releaseBillet_kept : ∀ (s : State) (ptr : Nat) (u : BilletUpset), (releaseBillet s ptr u).kept =
    s.kept
    := by
  intros; unfold releaseBillet; (repeat' split) <;> simp

@[simp] theorem putStored_kept : ∀ (s : State) (id : Nat) (x : Option Stored), (putStored s id x).kept = s.kept := by
  intros; rfl

@[simp] theorem updStored_kept : ∀ (s : State) (id : Nat) (f : Stored → Stored), (updStored s id f).kept = s.kept :=
    by
  intros; rfl

@[simp] theorem freshId_kept : ∀ (s : State), (freshId s).snd.kept = s.kept := by
  intros; rfl

@[simp] theorem updPg_kept : ∀ (s : State) (g : Nat) (f : PgSt → PgSt), (updPg s g f).kept = s.kept := by
  intros; rfl

@[simp] theorem updQueue_kept : ∀ (s : State) (q : Nat) (f : QueueSt → QueueSt), (updQueue s q f).kept = s.kept := by
  intros; rfl

@[simp] theorem finaliseStored_kept : ∀ (s : State) (id : Nat) (f : Finish), (finaliseStored s id f).kept = s.kept :=
    by
  intros; unfold finaliseStored; (repeat' split) <;> simp

@[simp] theorem updPfc_kept : ∀ (s : State) (n : Nat) (f : PfcSt → PfcSt), (updPfc s n f).kept = s.kept := by
  intros; rfl

@[simp] theorem pgPause_kept : ∀ (s : State) (g : Nat) (on : Bool), (pgPause s g on).kept = s.kept := by
  intros; simp [pgPause]

@[simp] theorem pgCharge_kept : ∀ (s : State) (g b : Nat), (pgCharge s g b).kept = s.kept := by
  intros; simp [pgCharge]

@[simp] theorem pgRelease_kept : ∀ (s : State) (g b : Nat), (pgRelease s g b).kept = s.kept := by
  intros; simp [pgRelease]

@[simp] theorem leaveBillet_kept : ∀ (s : State) (id : Nat) (u : BilletUpset), (leaveBillet s id u).kept = s.kept :=
    by
  intros; unfold leaveBillet; (repeat' split) <;> simp

@[simp] theorem endRef_kept : ∀ (s : State) (id : Nat) (u : BilletUpset), (endRef s id u).kept = s.kept := by
  intros; unfold endRef; (repeat' split) <;> simp

@[simp] theorem dropRef_kept : ∀ (s : State) (id port cause : Nat) (u : BilletUpset), (dropRef s id port cause u).kept
    = s.kept := by
  intros; simp [dropRef]

@[simp] theorem crcFailed_kept : ∀ (s : State) (id port : Nat), (crcFailed s id port).kept = s.kept := by
  intros; simp [crcFailed]

@[simp] theorem updQs_kept : ∀ (s : State) (q : Nat) (f : QSched → QSched), (updQs s q f).kept = s.kept := by
  intros; rfl

@[simp] theorem overflowFull_kept : ∀ (s : State) (q : Nat), (overflowFull s q).kept = s.kept := by
  intros; rfl

@[simp] theorem admissionDrop_kept : ∀ (s : State) (q : Nat), (admissionDrop s q).kept = s.kept := by
  intros; rfl

@[simp] theorem wdRefresh_kept : ∀ (s : State) (q : Nat), (wdRefresh s q).kept = s.kept := by
  intros; rfl

@[simp] theorem enqueueDie_kept : ∀ (s : State) (q : Nat) (c : Copy) (len : Nat), (enqueueDie s q c len).kept = s.kept
    := by
  intros; rfl

end Sys2Proof.Machine
end

