-- ==== Sys2Proof/Laws/KeptTableOps.lean ====
section
/-! SUPPORT. What Machine/TableOps.lean keeps: no definition of it changes the ownership registers or the queue of commands. -/

namespace Sys2Proof.Machine
open State

@[simp] theorem setEm_kept : ∀ (s : State) (l : Nat) (c : Option EmCell), (setEm s l c).kept = s.kept := by
  intros; rfl

@[simp] theorem hitEm_kept (s : State) (l : Nat) (hits : BitVec 4) : (hitEm s l hits).kept = s.kept := rfl

@[simp] theorem emMove_kept (l : List Nat) (s : State) : (emMove l s).kept = s.kept := by
  induction l with
  | nil => rfl
  | cons a l ih => cases l <;> simp [emMove] at * ; simp [ih]

@[simp] theorem setLpm_kept : ∀ (s : State) (six : Bool) (l : List LpmEnt), (setLpm s six l).kept = s.kept := by
  intros; rfl

@[simp] theorem setAcl_kept : ∀ (s : State) (r : Nat) (a : Option AclRow), (setAcl s r a).kept = s.kept := by
  intros; rfl

@[simp] theorem setAct_kept : ∀ (s : State) (w : Nat) (a : Option ActWord), (setAct s w a).kept = s.kept := by
  intros; rfl

@[simp] theorem writeThrough_kept : ∀ (s : State) (mem loc : Nat), (writeThrough s mem loc).kept = s.kept := by
  intros; simp [writeThrough]

@[simp] theorem writeThroughAll_kept : ∀ (s : State) (mem : Nat) (locs : List Nat), (writeThroughAll s mem locs).kept
    =
    s.kept := by
  intros; simp [writeThroughAll]

@[simp] theorem setLpmThrough_kept : ∀ (s : State) (six : Bool) (l : List LpmEnt), (setLpmThrough s six l).kept =
    s.kept := by
  intros; simp [setLpmThrough]

@[simp] theorem emStore_kept : ∀ (s : State) (l : Nat) (c : Option EmCell), (emStore s l c).kept = s.kept := by
  intros; simp [emStore]

@[simp] theorem aclStore_kept : ∀ (s : State) (r : Nat) (a : Option AclRow), (aclStore s r a).kept = s.kept := by
  intros; simp [aclStore]

@[simp] theorem actStore_kept : ∀ (s : State) (l : Nat) (w : Option ActWord), (actStore s l w).kept = s.kept := by
  intros; simp [actStore]

@[simp] theorem dropStage_kept (s : State) : (dropStage s).kept = s.kept := by
  unfold dropStage; (repeat' split) <;> simp

end Sys2Proof.Machine
end

