-- ==== Sys2Proof/Laws/KeptDiscard.lean ====
section
/-! SUPPORT. What Machine/Discard.lean keeps: no definition of it changes the ownership registers or the queue of commands. -/

namespace Sys2Proof.Machine
open State

@[simp] theorem updBucket_kept (s : State) (slice : Nat) (b : Nat) (f : Bucket → Bucket) : (updBucket s slice b
    f).kept = s.kept := rfl

@[simp] theorem finaliseAll_kept : ∀ (s : State), (finaliseAll s).kept = s.kept := by
  intros; simp [finaliseAll]

@[simp] theorem endOrder_kept : ∀ (s : State) (opcode : Nat) (o : Order) (status data : Nat), (endOrder s opcode o
    status data).kept = s.kept := by
  intros; unfold endOrder; (repeat' split) <;> simp

@[simp] theorem endDrain_kept : ∀ (fan : Bool) (s : State) (e : Nat × Order × Nat × Nat), (endDrain fan s e).kept =
    s.kept := by
  intros; simp [endDrain]

@[simp] theorem emptyGroups_kept : ∀ (s : State), (emptyGroups s).kept = s.kept := by
  intros; simp [emptyGroups]

@[simp] theorem clearPackets_kept : ∀ (s : State), (clearPackets s).kept = s.kept := by
  intros; simp [clearPackets]

@[simp] theorem discardPackets_kept : ∀ (s : State), (discardPackets s).kept = s.kept := by
  intros; simp [discardPackets]

@[simp] theorem discardStaged_kept : ∀ (s : State), (discardStaged s).kept = s.kept := by
  intros; unfold discardStaged; dsimp only; (repeat' split) <;> (try dsimp only) <;> simp

@[simp] theorem endOrders_kept : ∀ (s : State) (p : Running → Bool), (endOrders s p).kept = s.kept := by
  intros; simp [endOrders]

@[simp] theorem coldReset_kept : ∀ (s : State), (coldReset s).kept = s.kept := by
  intros; simp [coldReset]

end Sys2Proof.Machine
end

