-- ==== Sys2Proof/Laws/KeptStart.lean ====
section
/-! SUPPORT. What Machine/Start.lean keeps: no definition of it changes the ownership registers or the queue of commands. -/

namespace Sys2Proof.Machine
open State

@[simp] theorem completeAll_kept : ∀ (s : State) (os : List Order) (status data : Nat), (completeAll s os status
    data).kept = s.kept := by
  intros; simp [completeAll]

@[simp] theorem refreshEls_kept : ∀ (s : State), (refreshEls s).kept = s.kept := by
  intros; rfl

@[simp] theorem setMode_kept : ∀ (s : State) (m : Mode), (setMode s m).kept = s.kept := by
  intros; simp [setMode]

@[simp] theorem beginStart_kept : ∀ (s : State) (warm : Bool) (cause : Nat) (req : Option Order), (beginStart s warm
    cause req).kept = s.kept := by
  intros; simp [beginStart]

@[simp] theorem abortStart_kept : ∀ (s : State) (detail : Nat), (abortStart s detail).kept = s.kept := by
  intros; unfold abortStart; (repeat' split) <;> simp

@[simp] theorem enterHalt_kept : ∀ (s : State), (enterHalt s).kept = s.kept := by
  intros; simp [enterHalt]

@[simp] theorem acceptStart_kept : ∀ (o : Order) (s : State), (acceptStart o s).kept = s.kept := by
  intros; unfold acceptStart; dsimp only; (repeat' split) <;> (try dsimp only) <;> simp

@[simp] theorem retryStarts_kept : ∀ (s : State), (retryStarts s).kept = s.kept := by
  intros; unfold retryStarts; (repeat' split) <;> simp

@[simp] theorem dropRunning_kept : ∀ (s : State) (r : Running), (dropRunning s r).kept = s.kept := by
  intros; rfl

@[simp] theorem finishOrder_kept : ∀ (s : State) (r : Running) (status data : Nat), (finishOrder s r status data).kept
    = s.kept := by
  intros; simp [finishOrder]

@[simp] theorem finishResult_kept : ∀ (s : State) (r : Running) (bytes : List Byte) (data : Nat), (finishResult s r
    bytes data).kept = s.kept := by
  intros; simp [finishResult]

@[simp] theorem shadowLost_kept (s : State) (cause : Nat) : (shadowLost s cause).kept = s.kept := by
  unfold shadowLost; dsimp only; (repeat' split) <;> simp

@[simp] theorem shadowPortLost_kept (s : State) (m : Master) : (shadowPortLost s m).kept = s.kept := by
  simp [shadowPortLost]

end Sys2Proof.Machine
end

