-- ==== Sys2Proof/Laws/KeptLaneOps.lean ====
section
/-! SUPPORT. What Machine/LaneOps.lean keeps: no definition of it changes the ownership registers or the queue of commands. -/

namespace Sys2Proof.Machine
open State

@[simp] theorem updLane_kept (s : State) (p : Nat) (f : Lane → Lane) : (updLane s p f).kept = s.kept := rfl

@[simp] theorem setPort_kept (s : State) (n : Nat) (c : Option PortCfg) : (setPort s n c).kept = s.kept := rfl

@[simp] theorem updEng_kept (s : State) (n : Nat) (f : Engine → Engine) : (updEng s n f).kept = s.kept := rfl

@[simp] theorem setXp_kept (s : State) (p : Nat) (x : Option Xp) : (setXp s p x).kept = s.kept := rfl

@[simp] theorem updPcsPort_kept (s : State) (n : Nat) (f : PcsPort → PcsPort) : (updPcsPort s n f).kept = s.kept :=
    rfl

@[simp] theorem updLtt_kept (s : State) (n : Nat) (f : Ltt → Ltt) : (updLtt s n f).kept = s.kept := rfl

@[simp] theorem sendSymbols_kept (v : Nat) (s : State) (q : Nat) : (sendSymbols v s q).kept = s.kept := rfl

@[simp] theorem sendCodeword_kept (n : Nat) (s : State) (x : Nat × Nat) : (sendCodeword n s x).kept = s.kept :=
  kept_foldl _ (fun _ _ => sendSymbols_kept _ _ _) _ _

@[simp] theorem lineWork_kept (s : State) (n : Nat) (f : Nat → Line → Line × List (Nat × Nat)) : (lineWork s n f).kept
    = s.kept := by
  unfold lineWork; (repeat' split) <;> simp

@[simp] theorem lineBlock_kept (s : State) (n : Nat) (b : BitVec 66) : (lineBlock s n b).kept = s.kept := by
  simp [lineBlock]

@[simp] theorem setRawAt_kept (s : State) (n : Nat) (b : Nat) (on : Bool) (at_ : Nat) : (setRawAt s n b on at_).kept =
    s.kept := rfl

@[simp] theorem setRaw_kept (s : State) (n : Nat) (b : Nat) (on : Bool) : (setRaw s n b on).kept = s.kept := rfl

@[simp] theorem cutTx_kept (s : State) (n : Nat) : (cutTx s n).kept = s.kept := by
  unfold cutTx; (repeat' split) <;> simp

@[simp] theorem sendRemoteFault_kept (s : State) (n : Nat) : (sendRemoteFault s n).kept = s.kept := by
  simp [sendRemoteFault]

@[simp] theorem refreshLf_kept (s : State) (n : Nat) : (refreshLf s n).kept = s.kept := by
  simp [refreshLf]

@[simp] theorem refreshLoam_kept (s : State) (n : Nat) : (refreshLoam s n).kept = s.kept := by
  simp [refreshLoam]

@[simp] theorem refreshLane_kept (s : State) (p : Nat) : (refreshLane s p).kept = s.kept := by
  unfold refreshLane; (repeat' split) <;> simp

@[simp] theorem spoilScans_kept (s : State) (p : Nat) : (spoilScans s p).kept = s.kept := by
  simp [spoilScans]

@[simp] theorem loseCdr_kept (s : State) (p : Nat) : (loseCdr s p).kept = s.kept := by
  simp [loseCdr]

@[simp] theorem gainCdr_kept (s : State) (p : Nat) : (gainCdr s p).kept = s.kept := by
  simp [gainCdr]

@[simp] theorem sendIdle_kept (s : State) (n : Nat) (slot : Nat) (fp : Bool) (after : Bool) : (sendIdle s n slot fp
    after).kept = s.kept := by
  simp [sendIdle]

@[simp] theorem setSpareMsg_kept (s : State) (e : Nat) (m : BitVec 32) : (setSpareMsg s e m).kept = s.kept := by
  unfold setSpareMsg; dsimp only; (repeat' split) <;> simp

@[simp] theorem dropSpare_kept (s : State) (e : Nat) : (dropSpare s e).kept = s.kept := by
  simp [dropSpare]

@[simp] theorem abandonSpare_kept (s : State) (e : Nat) (cause : Nat) : (abandonSpare s e cause).kept = s.kept := by
  unfold abandonSpare; dsimp only; (repeat' split) <;> simp

@[simp] theorem pathChange_kept (s : State) (n : Nat) : (pathChange s n).kept = s.kept := rfl

@[simp] theorem pathChanged_kept (s : State) (p : Nat) : (pathChanged s p).kept = s.kept := by
  unfold pathChanged; (repeat' split) <;> simp

@[simp] theorem completeSpare_kept (s : State) (e : Nat) (h : Handshake) : (completeSpare s e h).kept = s.kept := by
  unfold completeSpare; dsimp only; (repeat' split) <;> simp

@[simp] theorem advanceSpare_kept (s : State) (e : Nat) : (advanceSpare s e).kept = s.kept := by
  unfold advanceSpare; (repeat' split) <;> simp

@[simp] theorem beginSpare_kept (s : State) (e : Nat) (pl : Nat) (pos : Nat) (cause : Nat) (order : Bool) (revert :
    Bool) : (beginSpare s e pl pos cause order revert).kept = s.kept := by
  simp [beginSpare]

@[simp] theorem trainSpare_kept (s : State) (e : Nat) : (trainSpare s e).kept = s.kept := by
  simp [trainSpare]

@[simp] theorem failLane_kept (s : State) (p : Nat) (cause : Nat) : (failLane s p cause).kept = s.kept := by
  simp [failLane]

end Sys2Proof.Machine
end

