-- ==== Sys2Proof/Laws/KeptEgrOps.lean ====
section
/-! SUPPORT. What Machine/EgrOps.lean keeps: no definition of it changes the ownership registers or the queue of commands. -/

namespace Sys2Proof.Machine
open State

@[simp] theorem updSched_kept : ∀ (s : State) (n : Nat) (f : PortSched → PortSched), (updSched s n f).kept = s.kept :=
    by
  intros; rfl

@[simp] theorem shaperCharge_kept : ∀ (s : State) (i len : Nat), (shaperCharge s i len).kept = s.kept := by
  intros; rfl

@[simp] theorem startTx_kept (s : State) (n : Nat) (kind : TxKind) (bytes : List Byte) (dt : Nat) : (startTx s n kind
    bytes dt).kept = s.kept := by
  simp [startTx]

@[simp] theorem pfcTry_kept : ∀ (s : State) (n : Nat), (pfcTry s n).kept = s.kept := by
  intros; simp [pfcTry]

@[simp] theorem pfcResume_kept (s : State) (n : Nat) : (pfcResume s n).kept = s.kept := by
  simp [pfcResume]

@[simp] theorem pfcTryAll_kept : ∀ (s : State), (pfcTryAll s).kept = s.kept := by
  intros; simp [pfcTryAll]

end Sys2Proof.Machine
end

