-- ==== Sys2Proof/Laws/KeptGrpOps.lean ====
section
/-! SUPPORT. What Machine/GrpOps.lean keeps: no definition of it changes the ownership registers or the queue of commands. -/

namespace Sys2Proof.Machine
open State

@[simp] theorem finishThis_kept : ∀ (s : State) (opcode : Nat) (o : Order) (status data : Nat), (finishThis s opcode o
    status data).kept = s.kept := by
  intros; unfold finishThis; (repeat' split) <;> simp

@[simp] theorem updSeq_kept : ∀ (s : State) (g : Nat) (f : SeqGroup → SeqGroup), (updSeq s g f).kept = s.kept := by
  intros; rfl

@[simp] theorem updFan_kept : ∀ (s : State) (g : Nat) (f : FanGroup → FanGroup), (updFan s g f).kept = s.kept := by
  intros; rfl

@[simp] theorem updTrim_kept : ∀ (s : State) (n : Nat) (f : Trim → Trim), (updTrim s n f).kept = s.kept := by
  intros; rfl

@[simp] theorem seqDrained_kept : ∀ (s : State) (g : Nat), (seqDrained s g).kept = s.kept := by
  intros; unfold seqDrained; dsimp only; (repeat' split) <;> (try dsimp only) <;> simp

@[simp] theorem seqDrop_kept : ∀ (s : State) (id g cause : Nat) (p : Pkt) (rank : Nat), (seqDrop s id g cause p
    rank).kept = s.kept := by
  intros; simp [seqDrop]

@[simp] theorem reservedDrop_kept (s : State) (q : Nat) : (reservedDrop s q).kept = s.kept := by
  unfold reservedDrop; (repeat' split) <;> simp

@[simp] theorem seqArrive_kept : ∀ (s : State) (id g : Nat), (seqArrive s id g).kept = s.kept := by
  intros; unfold seqArrive; dsimp only; (repeat' split) <;> (try dsimp only) <;> simp

@[simp] theorem fanArrive_kept : ∀ (s : State) (id g : Nat), (fanArrive s id g).kept = s.kept := by
  intros; unfold fanArrive; (repeat' split) <;> simp

@[simp] theorem copiesRecords_kept : ∀ (a : Nat) (a_1 : State) (a_2 a_3 : Nat) (a_4 : Bool) (a_5 : List FanCopy),
    (copiesRecords a a_1 a_2 a_3 a_4 a_5).kept = a_1.kept := by
  intros
  first
    | (fun_induction copiesRecords <;> simp_all; done)
    | (fun_induction copiesRecords <;> (try dsimp only) <;> (repeat' split) <;> simp_all; done)

@[simp] theorem configRecord_kept : ∀ (s : State) (fan : Bool) (g dt eff : Nat) (on : Bool) (payload : List Byte),
    (configRecord s fan g dt eff on payload).kept = s.kept := by
  intros; simp [configRecord]

@[simp] theorem fanDrained_kept : ∀ (s : State) (g : Nat), (fanDrained s g).kept = s.kept := by
  intros; unfold fanDrained; dsimp only; (repeat' split) <;> (try dsimp only) <;> simp

@[simp] theorem fanDone_kept : ∀ (s : State) (g id : Nat), (fanDone s g id).kept = s.kept := by
  intros; unfold fanDone; dsimp only; (repeat' split) <;> (try dsimp only) <;> simp

@[simp] theorem updCopy_kept : ∀ (s : State) (g id port : Nat) (f : FanCopy → FanCopy), (updCopy s g id port f).kept =
    s.kept := by
  intros; rfl

@[simp] theorem fanCopyDrop_kept : ∀ (s : State) (g id port outcome cause : Nat), (fanCopyDrop s g id port outcome
    cause).kept = s.kept := by
  intros; simp [fanCopyDrop]

@[simp] theorem stepGroups_kept : ∀ (s : State) (old new : Nat), (stepGroups s old new).kept = s.kept := by
  intros; simp [stepGroups]

end Sys2Proof.Machine
end

