-- ==== Sys2Proof/Laws/KeptArbiters.lean ====
section
/-! SUPPORT. What Machine/Arbiters.lean keeps: no definition of it changes the ownership registers or the queue of commands. -/

namespace Sys2Proof.Machine
open State

theorem execReadArb_kept (o : Order) (s : State) : ∃ t, execReadArb o s = .next t ∧ t.kept = s.kept :=
  ⟨_, rfl, runOrder_kept _ _ _ _ _ rfl⟩

theorem execArbSet_kept (o : Order) (s : State) : ∃ t, execArbSet o s = .next t ∧ t.kept = s.kept :=
  ⟨_, rfl, runOrder_kept _ _ _ _ _ (by simp)⟩

theorem execArbCommit_kept (o : Order) (s : State) : ∃ t, execArbCommit o s = .next t ∧ t.kept = s.kept :=
  ⟨_, rfl, runOrder_kept _ _ _ _ _ rfl⟩

@[simp] theorem arbTakes_kept (s : State) : (arbTakes s).kept = s.kept := by
  unfold arbTakes; dsimp only; (repeat' split) <;> simp

theorem execArbCommitInstant_kept (s : State) : ∃ t, execArbCommitInstant s = .next t ∧ t.kept = s.kept :=
  ⟨_, rfl, by simp⟩

end Sys2Proof.Machine
end

