-- ==== Sys2Proof/Laws/KeptCollOps.lean ====
section
/-! SUPPORT. What Machine/CollOps.lean keeps: no definition of it changes the ownership registers or the queue of commands. -/

namespace Sys2Proof.Machine
open State

@[simp] theorem updCtx_kept : ∀ (s : State) (n : Nat) (f : Ctx → Ctx), (updCtx s n f).kept = s.kept := by
  intros; rfl

@[simp] theorem updUnit_kept : ∀ (s : State) (u : Nat) (f : CollUnit → CollUnit), (updUnit s u f).kept = s.kept := by
  intros; rfl

@[simp] theorem ctxDrop_kept : ∀ (s : State) (n cause : Nat), (ctxDrop s n cause).kept = s.kept := by
  intros; rfl

@[simp] theorem relayedAt_kept : ∀ (s : State) (u h : Nat), (relayedAt s u h).kept = s.kept := by
  intros; rfl

@[simp] theorem collArrive_kept : ∀ (s : State) (id n : Nat), (collArrive s id n).kept = s.kept := by
  intros; unfold collArrive; (repeat' split) <;> simp

end Sys2Proof.Machine
end

