-- ==== Sys2Proof/Laws/KeptTables.lean ====
section
/-! SUPPORT. What Machine/Tables.lean keeps: no definition of it changes the ownership registers or the queue of commands. -/

namespace Sys2Proof.Machine
open State

theorem twrite_kept (s t : State) (w : TWrite) (k : ∀ r, w.run = .ok r → r.1.kept = s.kept) (h : t.kept = s.kept) :
    (w.effect t).1.kept = s.kept := by
  unfold TWrite.effect; split
  · rename_i e; exact k _ e
  · exact h

theorem emInsert_kept (s : State) (q : Nat) (c : EmCell) (r : State × Nat) (h : emInsert s q c = .ok r) :
    r.1.kept = s.kept := by
  unfold emInsert at h; dsimp only at h; (repeat' split at h) <;> cases h <;> simp

@[simp] theorem emFp_kept : ∀ (s : State) (active staged : Bool) (old new : Option EmCell), (emFp s active staged old
    new).kept = s.kept := by
  intros; simp [emFp]

theorem emNew_kept (s : State) (d : Bool) (table q : Nat) (key : BitVec 128) (ad : BitVec 64) (r : State × Nat)
    (h : emNew s d table q key ad = .ok r) : r.1.kept = s.kept := by
  unfold emNew at h; dsimp only at h
  split at h <;> cases h
  rename_i e; rw [emFp_kept]; exact emInsert_kept _ _ _ _ e

theorem emWrite_kept (s : State) (d : Bool) (table op : Nat) (key : BitVec 128) (ad : BitVec 64) (r : State × Nat)
    (h : emWrite s d table op key ad = .ok r) : r.1.kept = s.kept := by
  unfold emWrite at h; dsimp only at h
  (repeat' split at h) <;> (try cases h) <;> (try simp)
  · exact emNew_kept _ _ _ _ _ _ _ h
  · rename_i e; have k := emNew_kept _ _ _ _ _ _ _ e; simpa using k
  · rename_i e; have k := emNew_kept _ _ _ _ _ _ _ e; simpa using k

theorem wrote_kept (s : State) (d : Bool) (x : Except Nat (State × Nat)) (r : State × Nat)
    (k : ∀ y, x = .ok y → y.1.kept = s.kept) (h : wrote d x = .ok r) : r.1.kept = s.kept := by
  unfold wrote at h
  split at h <;> cases h
  rw [directDone_kept]; exact k _ rfl

theorem emOrder_kept (s : State) (i p : Nat) (r : State × Nat) (h : (emOrder s i p).run = .ok r) : r.1.kept = s.kept
    :=
  wrote_kept s _ _ r (fun _ => emWrite_kept _ _ _ _ _ _ _) h

@[simp] theorem lpmFp_kept : ∀ (s : State) (active staged : Bool) (old new : Option LpmEnt), (lpmFp s active staged
    old
    new).kept = s.kept := by
  intros; simp [lpmFp]

theorem lpmInsert_kept (s : State) (six : Bool) (q : Nat) (e : LpmEnt) (r : State × Nat) (h : lpmInsert s six q e =
    .ok r) :
    r.1.kept = s.kept := by
  unfold lpmInsert at h; dsimp only at h; (repeat' split at h) <;> cases h <;> simp

theorem lpmDelete_kept (s : State) (six : Bool) (i len : Nat) (r : State × Nat) (h : lpmDelete s six i len = .ok r) :
    r.1.kept = s.kept := by
  unfold lpmDelete at h; dsimp only at h; (repeat' split at h) <;> cases h <;> simp

theorem lpmNew_kept (s : State) (d six : Bool) (table q len action : Nat) (p : BitVec 128) (r : State × Nat)
    (h : lpmNew s d six table q len action p = .ok r) : r.1.kept = s.kept := by
  unfold lpmNew at h; dsimp only at h
  split at h <;> cases h
  rename_i e; rw [lpmFp_kept]; exact lpmInsert_kept _ _ _ _ _ e

theorem lpmWrite_kept (s : State) (d six : Bool) (table op len action : Nat) (p : BitVec 128) (r : State × Nat)
    (h : lpmWrite s d six table op len action p = .ok r) : r.1.kept = s.kept := by
  unfold lpmWrite at h; dsimp only at h
  (repeat' split at h) <;> (try cases h) <;> (try simp)
  · exact lpmNew_kept _ _ _ _ _ _ _ _ _ h
  · rename_i e; exact lpmDelete_kept _ _ _ _ _ e
  · rename_i e; have k := lpmNew_kept _ _ _ _ _ _ _ _ _ e; simpa using k

theorem lpmOrder_kept (s : State) (i p : Nat) (r : State × Nat) (h : (lpmOrder s i p).run = .ok r) : r.1.kept = s.kept
    :=
  wrote_kept s _ _ r (fun _ => lpmWrite_kept _ _ _ _ _ _ _ _ _) h

theorem aclWrite_kept (s : State) (d : Bool) (table row : Nat) (n : Option AclRow) (r : State × Nat)
    (h : aclWrite s d table row n = .ok r) : r.1.kept = s.kept := by
  unfold aclWrite at h; dsimp only at h
  (repeat' split at h) <;> (try cases h) <;> simp

theorem aclOrder_kept (s : State) (i : Nat) (bs : List Byte) (r : State × Nat) (h : (aclOrder s i bs).run = .ok r) :
    r.1.kept = s.kept := wrote_kept s _ _ r (fun _ => aclWrite_kept _ _ _ _ _ _) h

theorem actWriteOne_kept (s : State) (d : Bool) (i : Nat) (w : BitVec 64) (t : State) (h : actWriteOne s d i w = some
    t) :
    t.kept = s.kept := by
  unfold actWriteOne at h; dsimp only at h
  (repeat' split at h) <;> (try simp only [Option.map_eq_some_iff] at h) <;>
    first | (cases h; simp; done) | (obtain ⟨y, -, h⟩ := h; cases h; simp)

theorem actWrite_kept (d : Bool) (l : List (BitVec 64)) (i : Nat) (s t : State) (h : actWrite d l i s = some t) :
    t.kept = s.kept := by
  induction l generalizing i s with
  | nil => cases h; rfl
  | cons w ws ih =>
    simp only [actWrite, Option.bind_eq_some_iff] at h
    obtain ⟨u, h1, h2⟩ := h
    rw [ih _ _ h2]; exact actWriteOne_kept _ _ _ _ _ h1

theorem actOrder_kept (s : State) (i p : Nat) (r : State × Nat) (h : (actOrder s i p).run = .ok r) : r.1.kept = s.kept
    := by
  refine wrote_kept s _ _ r (fun y hy => ?_) h
  split at hy <;> cases hy
  rename_i e; exact actWrite_kept _ _ _ _ _ e

theorem execEmWrite_kept (o : Order) (s : State) : ∃ t, execEmWrite o s = .next t ∧ t.kept = s.kept :=
  ⟨_, rfl, runOrder_kept _ _ _ _ _ (twrite_kept _ _ _ (emOrder_kept _ _ _) rfl)⟩

theorem execLpmWrite_kept (o : Order) (s : State) : ∃ t, execLpmWrite o s = .next t ∧ t.kept = s.kept :=
  ⟨_, rfl, runOrder_kept _ _ _ _ _ (twrite_kept _ _ _ (lpmOrder_kept _ _ _) rfl)⟩

theorem execAclWrite_kept (o : Order) (s : State) : ∃ t, execAclWrite o s = .next t ∧ t.kept = s.kept :=
  ⟨_, rfl, runPtr_kept _ _ _ _ _ _ fun bs => twrite_kept _ _ _ (aclOrder_kept _ _ bs) rfl⟩

theorem execActionWrite_kept (o : Order) (s : State) : ∃ t, execActionWrite o s = .next t ∧ t.kept = s.kept :=
  ⟨_, rfl, runOrder_kept _ _ _ _ _ (twrite_kept _ _ _ (actOrder_kept _ _ _) rfl)⟩

theorem bulkRecord_kept (s : State) (bs : List Byte) (r : State × Nat) (h : (bulkRecord s bs).run = .ok r) :
    r.1.kept = s.kept := by
  unfold bulkRecord at h; dsimp only at h
  split at h
  · exact emOrder_kept _ _ _ _ h
  · exact lpmOrder_kept _ _ _ _ h
  · exact actOrder_kept _ _ _ _ h
  · cases h

@[simp] theorem bulkRun_kept (n : Nat) (bs : List Byte) (s : State) (k : Nat) : (bulkRun n bs s k).1.kept = s.kept :=
    by
  induction n generalizing bs s k with
  | zero => rfl
  | succ n ih =>
    unfold bulkRun; dsimp only; split
    · rename_i e; rw [ih]; exact bulkRecord_kept _ _ _ e
    · rfl
    · rfl

theorem execTableBulk_kept (o : Order) (s : State) : ∃ t, execTableBulk o s = .next t ∧ t.kept = s.kept :=
  ⟨_, rfl, runPtr_kept _ _ _ _ _ _ fun _ => by dsimp only; split <;> simp⟩

theorem execTableDef_kept (o : Order) (s : State) : ∃ t, execTableDef o s = .next t ∧ t.kept = s.kept :=
  ⟨_, rfl, runOrder_kept _ _ _ _ _ (by simp)⟩

theorem execLearnSet_kept (o : Order) (s : State) : ∃ t, execLearnSet o s = .next t ∧ t.kept = s.kept :=
  ⟨_, rfl, runOrder_kept _ _ _ _ _ rfl⟩

theorem execAgeSet_kept (o : Order) (s : State) : ∃ t, execAgeSet o s = .next t ∧ t.kept = s.kept :=
  ⟨_, rfl, runOrder_kept _ _ _ _ _ rfl⟩

@[simp] theorem drawGone_kept (s : State) : (drawGone s).kept = s.kept := by
  simp [drawGone]

@[simp] theorem maintain_kept (s : State) (n : Nat) : (maintain s n).kept = s.kept := by
  simp [maintain]

theorem execReadTables_kept (o : Order) (s : State) : ∃ t, execReadTables o s = .next t ∧ t.kept = s.kept :=
  ⟨_, rfl, runOrder_kept _ _ _ _ _ (by simp)⟩

theorem execEmLookup_kept (o : Order) (s : State) : ∃ t, execEmLookup o s = .next t ∧ t.kept = s.kept :=
  ⟨_, rfl, runOrder_kept _ _ _ _ _ (by simp)⟩

theorem execLpmLookup_kept (o : Order) (s : State) : ∃ t, execLpmLookup o s = .next t ∧ t.kept = s.kept :=
  ⟨_, rfl, runOrder_kept _ _ _ _ _ (by simp)⟩

theorem execTableDump_kept (o : Order) (s : State) : ∃ t, execTableDump o s = .next t ∧ t.kept = s.kept :=
  ⟨_, rfl, runOrder_kept _ _ _ _ _ rfl⟩

@[simp] theorem endDump_kept : ∀ (s : State) (d : Dump), (endDump s d).kept = s.kept := by
  intros; rfl

theorem execTableDumpDone_kept (s : State) : ∃ t, execTableDumpDone s = .next t ∧ t.kept = s.kept :=
  ⟨_, rfl, by (repeat' split) <;> simp⟩

theorem execDumpTimeout_kept (n : Nat) (s : State) : ∃ t, execDumpTimeout n s = .next t ∧ t.kept = s.kept :=
  ⟨_, rfl, by dsimp only; (repeat' split) <;> simp⟩

@[simp] theorem learnDrop_kept : ∀ (s : State) (table : Nat), (learnDrop s table).kept = s.kept := by
  intros; rfl

@[simp] theorem learnRequest_kept : ∀ (s : State) (r : LearnReq), (learnRequest s r).kept = s.kept := by
  intros; simp [learnRequest]

theorem execLearnInsert_kept (s : State) : ∃ t, execLearnInsert s = .next t ∧ t.kept = s.kept := by
  refine ⟨_, rfl, ?_⟩
  split
  · dsimp only; split
    · rfl
    · split
      · simp
      · split
        · rename_i e; simpa using emInsert_kept _ _ _ _ e
        · simp
  · rfl

theorem execStationMove_kept (s : State) : ∃ t, execStationMove s = .next t ∧ t.kept = s.kept :=
  ⟨_, rfl, by dsimp only; (repeat' split) <;> simp⟩

theorem execAgingVisit_kept (l : Nat) (hit : BitVec 4) (s : State) : ∃ t, execAgingVisit l hit s = .next t ∧ t.kept =
    s.kept :=
  ⟨_, rfl, by (repeat' split) <;> simp⟩

theorem execFlushLearned_kept (o : Order) (s : State) : ∃ t, execFlushLearned o s = .next t ∧ t.kept = s.kept :=
  ⟨_, rfl, runOrder_kept _ _ _ _ _ rfl⟩

theorem execFlushDone_kept (s : State) : ∃ t, execFlushDone s = .next t ∧ t.kept = s.kept :=
  ⟨_, rfl, by dsimp only; (repeat' split) <;> simp⟩

theorem execCopyFree_kept (mem : Nat) (loc : Nat) (s : State) : ∃ t, execCopyFree mem loc s = .next t ∧ t.kept =
    s.kept
    :=
  ⟨_, rfl, by (repeat' split) <;> simp⟩

@[simp] theorem putImage_kept : ∀ (s : State) (mem loc v : Nat), (putImage s mem loc v).kept = s.kept := by
  intros; unfold putImage; (repeat' split) <;> simp

@[simp] theorem invalidate_kept : ∀ (s : State) (mem loc : Nat), (invalidate s mem loc).kept = s.kept := by
  intros; unfold invalidate; (repeat' split) <;> simp

@[simp] theorem loseLocation_kept : ∀ (s : State) (mem loc : Nat), (loseLocation s mem loc).kept = s.kept := by
  intros; unfold loseLocation; (repeat' split) <;> simp

theorem execTableRepair_kept (mem : Nat) (loc : Nat) (quads : List (Option Nat)) (shadow : Option Nat) (s : State) : ∃
    t, execTableRepair mem loc quads shadow s = .next t ∧ t.kept = s.kept :=
  ⟨_, rfl, by dsimp only; (repeat' split) <;> simp⟩

theorem execBackgroundCompare_kept (parity : BitVec 4) (differ : Bool) (s : State) : ∃ t, execBackgroundCompare parity
    differ s = .next t ∧ t.kept = s.kept :=
  ⟨_, rfl, by simp⟩

theorem execShadowSet_kept (o : Order) (s : State) : ∃ t, execShadowSet o s = .next t ∧ t.kept = s.kept :=
  ⟨_, rfl, runOrder_kept _ _ _ _ _ (by simp)⟩

theorem execShadowFillDone_kept (s : State) : ∃ t, execShadowFillDone s = .next t ∧ t.kept = s.kept :=
  ⟨_, rfl, by dsimp only; (repeat' split) <;> simp⟩

theorem execShadowFault_kept (cause : Nat) (s : State) : ∃ t, execShadowFault cause s = .next t ∧ t.kept = s.kept :=
  ⟨_, rfl, by simp⟩

end Sys2Proof.Machine
end

