-- ==== Sys2Proof/Laws/KeptVersions.lean ====
section
/-! SUPPORT. What Machine/Versions.lean keeps: no definition of it changes the ownership registers or the queue of commands. -/

namespace Sys2Proof.Machine
open State

theorem execReadVersions_kept (o : Order) (s : State) : ∃ t, execReadVersions o s = .next t ∧ t.kept = s.kept :=
  ⟨_, rfl, runOrder_kept _ _ _ _ _ rfl⟩

theorem execReadParser_kept (o : Order) (s : State) : ∃ t, execReadParser o s = .next t ∧ t.kept = s.kept :=
  ⟨_, rfl, runOrder_kept _ _ _ _ _ rfl⟩

theorem execReadStage_kept (o : Order) (s : State) : ∃ t, execReadStage o s = .next t ∧ t.kept = s.kept :=
  ⟨_, rfl, runOrder_kept _ _ _ _ _ rfl⟩

theorem execParserSet_kept (o : Order) (s : State) : ∃ t, execParserSet o s = .next t ∧ t.kept = s.kept :=
  ⟨_, rfl, runOrder_kept _ _ _ _ _ (by simp)⟩

theorem execPortParseSet_kept (o : Order) (s : State) : ∃ t, execPortParseSet o s = .next t ∧ t.kept = s.kept :=
  ⟨_, rfl, runOrder_kept _ _ _ _ _ (by simp)⟩

theorem execStageSet_kept (o : Order) (s : State) : ∃ t, execStageSet o s = .next t ∧ t.kept = s.kept :=
  ⟨_, rfl, runPtr_kept _ _ _ _ _ _ fun _ => by simp⟩

theorem execStageOpen_kept (o : Order) (s : State) : ∃ t, execStageOpen o s = .next t ∧ t.kept = s.kept :=
  ⟨_, rfl, runOrder_kept _ _ _ _ _ rfl⟩

theorem execCommit_kept (o : Order) (s : State) : ∃ t, execCommit o s = .next t ∧ t.kept = s.kept :=
  ⟨_, rfl, runOrder_kept _ _ _ _ _ (by simp)⟩

theorem execStageDiscard_kept (o : Order) (s : State) : ∃ t, execStageDiscard o s = .next t ∧ t.kept = s.kept :=
  ⟨_, rfl, runOrder_kept _ _ _ _ _ (by simp)⟩

@[simp] theorem commitNow_kept : ∀ (s : State) (p : PendCommit) (v : Nat), (commitNow s p v).kept = s.kept := by
  intros; simp [commitNow]

@[simp] theorem commitTakes_kept (s : State) : (commitTakes s).kept = s.kept := by
  unfold commitTakes; dsimp only; (repeat' split) <;> simp

theorem execCommitInstant_kept (s : State) : ∃ t, execCommitInstant s = .next t ∧ t.kept = s.kept :=
  ⟨_, rfl, by simp⟩

theorem execVersionRetired_kept (s : State) : ∃ t, execVersionRetired s = .next t ∧ t.kept = s.kept :=
  ⟨_, rfl, by (repeat' split) <;> simp⟩

end Sys2Proof.Machine
end

