-- ==== Sys2Proof/Laws/KeptPipeline.lean ====
section
/-! SUPPORT. What Machine/Pipeline.lean keeps: no definition of it changes the ownership registers or the queue of commands. -/

namespace Sys2Proof.Machine
open State

@[simp] theorem stageLookup_kept : ∀ (s : State) (slice ver kind table : Nat) (ingress : Option Nat) (cs : List
    (BitVec
    32)), (stageLookup s slice ver kind table ingress cs).fst.kept = s.kept := by
  intros; unfold stageLookup; dsimp only; (repeat' split) <;> (try dsimp only) <;> simp

theorem runStage_kept (n slice ver : Nat) (g : Option Nat) (x : State × StageRun) :
    (runStage n slice ver g x).1.kept = x.1.kept := by
  unfold runStage; dsimp only
  split
  · rfl
  · split <;> simp

@[simp] theorem runIngress_kept (s : State) (port ver : Nat) (hv : List (BitVec 32)) :
    (runIngress s port ver hv).1.kept = s.kept := by
  unfold runIngress; rw [kept_foldl_fst _ fun x n => runStage_kept _ _ _ _ _]

@[simp] theorem runEgress_kept (s : State) (p : Pkt) (port : Nat) : (runEgress s p port).1.kept = s.kept := by
  unfold runEgress; dsimp only; split
  · rfl
  · exact kept_foldl_fst _ (fun x n => runStage_kept _ _ _ _ _) _ _

end Sys2Proof.Machine
end

