-- ==== Sys2Proof/Laws/KeptStoreOps.lean ====
section
/-! SUPPORT. What Machine/StoreOps.lean keeps: no definition of it changes the ownership registers or the queue of commands. -/

namespace Sys2Proof.Machine
open State

@[simp] theorem refuseCopy_kept : ∀ (s : State) (q cause : Nat), (refuseCopy s q cause).kept = s.kept := by
  intros; simp [refuseCopy]

@[simp] theorem admitAll_kept (s : State) (b len : Nat) (lossless single : Bool) (l : List Nat) :
    (admitAll s b len lossless single l).1.kept = s.kept := by
  induction l generalizing s with
  | nil => rfl
  | cons q qs ih => unfold admitAll; split <;> simp [ih]

@[simp] theorem enqueue_kept : ∀ (s : State) (q : Nat) (c : Copy) (len : Nat), (enqueue s q c len).kept = s.kept := by
  intros; simp [enqueue]

@[simp] theorem enqueueDram_kept : ∀ (s : State) (q : Nat) (c : Copy) (len : Nat), (enqueueDram s q c len).kept =
    s.kept := by
  intros; simp [enqueueDram]

@[simp] theorem makeCopy_kept (id : Nat) (bytes : Nat) (len : Nat) (s : State) (e : Target) : (makeCopy id bytes len s
    e).kept = s.kept := by
  simp [makeCopy]

@[simp] theorem updGroup_kept : ∀ (s : State) (g : Nat) (f : SprayGroup → SprayGroup), (updGroup s g f).kept = s.kept
    := by
  intros; rfl

@[simp] theorem sprayStamp_kept : ∀ (s : State) (id port : Nat) (p : Pkt), (sprayStamp s id port p).kept = s.kept :=
    by
  intros; rfl

@[simp] theorem hostCopyMade_kept : ∀ (s : State) (port : Nat) (c : HostCopy), (hostCopyMade s port c).kept = s.kept
    :=
    by
  intros; rfl

@[simp] theorem capCopyMade_kept : ∀ (s : State) (port : Nat) (c : CapCopy), (capCopyMade s port c).kept = s.kept :=
    by
  intros; rfl

@[simp] theorem capLost_kept : ∀ (s : State) (c : Nat), (capLost s c).kept = s.kept := by
  intros; rfl

@[simp] theorem deliver_kept (s : State) (id : Nat) (plan : Plan) : (deliver s id plan).kept = s.kept := by
  unfold deliver; (repeat' split) <;> simp

@[simp] theorem planUndo_kept : ∀ (s : State) (len : Nat) (plan : Plan), (planUndo s len plan).kept = s.kept := by
  intros; simp [planUndo]

@[simp] theorem updCtxOf_kept : ∀ (s : State) (c : SprayCtx), (updCtxOf s c).kept = s.kept := by
  intros; rfl

@[simp] theorem deliverHeld_kept (s : State) (id : Nat) (plan : Plan) : (deliverHeld s id plan).kept = s.kept := by
  unfold deliverHeld; dsimp only; (repeat' split) <;> simp

@[simp] theorem releaseRun_kept : ∀ (a : Nat) (a_1 : State) (a_2 : SprayCtx), (releaseRun a a_1 a_2).fst.kept =
    a_1.kept := by
  intros
  first
    | (fun_induction releaseRun <;> simp_all; done)
    | (fun_induction releaseRun <;> (try dsimp only) <;> (repeat' split) <;> simp_all; done)

@[simp] theorem skipGap_kept : ∀ (s : State) (c : SprayCtx), (skipGap s c).fst.kept = s.kept := by
  intros; unfold skipGap; (repeat' split) <;> simp

@[simp] theorem skipTo_kept (seq n : Nat) (s : State) (c : SprayCtx) : (skipTo seq n s c).1.kept = s.kept := by
  induction n generalizing s c with
  | zero => rfl
  | succ n ih => unfold skipTo; dsimp only; split <;> simp [ih]

@[simp] theorem spraySkip_kept (s : State) (sh : Shim) (c : SprayCtx) : (spraySkip s sh c).1.kept = s.kept := by
  rw [spraySkip]
  split
  · exact kept_pair (skipTo sh.seq (c.held.length + 1) s c) (sprayJump sh.seq) (skipTo_kept _ _ _ _)
  · rfl

@[simp] theorem sprayNext_kept (s : State) (id : Nat) (plan : Plan) (c : SprayCtx) : (sprayNext s id plan c).kept =
    s.kept := by
  unfold sprayNext; simp

@[simp] theorem sprayOrder_kept (s : State) (id : Nat) (plan : Plan) (p : Pkt) (sh : Shim) (c : SprayCtx) :
    (sprayOrder s id plan p sh c).kept = s.kept := by
  unfold sprayOrder; dsimp only; (repeat' split) <;> simp

@[simp] theorem drainSeen_kept : ∀ (s : State) (sender group epoch : Nat), (drainSeen s sender group epoch).kept =
    s.kept := by
  intros; simp [drainSeen]

@[simp] theorem noticeEpoch_kept : ∀ (s : State) (sh : Shim) (c : SprayCtx), (noticeEpoch s sh c).fst.kept = s.kept :=
    by
  intros; simp [noticeEpoch]

@[simp] theorem sprayArrive_kept (s : State) (id : Nat) (plan : Plan) (p : Pkt) (sh : Shim) :
    (sprayArrive s id plan p sh).kept = s.kept := by
  unfold sprayArrive; (repeat' split) <;> simp

@[simp] theorem endCopy_kept : ∀ (s : State) (id c : Nat) (u : BilletUpset), (endCopy s id c u).kept = s.kept := by
  intros; simp [endCopy]

@[simp] theorem carriedDone_kept : ∀ (s : State) (c : Nat) (u : BilletUpset), (carriedDone s c u).kept = s.kept := by
  intros; unfold carriedDone; (repeat' split) <;> simp

@[simp] theorem dropAtStore_kept : ∀ (s : State) (p : Pkt) (cause : Nat), (dropAtStore s p cause).kept = s.kept := by
  intros; simp [dropAtStore]

@[simp] theorem planOf_kept : ∀ (s : State) (p : Pkt), (planOf s p).fst.kept = s.kept := by
  intros; simp [planOf]

@[simp] theorem chargePg_kept (s : State) (p : Pkt) (b : Nat) : (chargePg s p b).kept = s.kept := by
  unfold chargePg; (repeat' split) <;> simp

@[simp] theorem releasePg_kept (s : State) (p : Pkt) (b : Nat) : (releasePg s p b).kept = s.kept := by
  unfold releasePg; (repeat' split) <;> simp

@[simp] theorem finishStore_kept (s : State) (p : Pkt) (sp : Spill) (ptr : Nat) : (finishStore s p sp ptr).kept =
    s.kept := by
  unfold finishStore; (repeat' split) <;> simp

@[simp] theorem claimPool_kept (s : State) (w : Waiting) (sp : Spill) : (claimPool s w sp).kept = s.kept := by
  have h := grantPool_kept s sp.pool
  unfold claimPool; dsimp only
  split <;> rename_i e <;> rw [e] at h
  · simpa using h
  · split <;> simpa using h

@[simp] theorem storePacket_kept (s : State) (w : Waiting) : (storePacket s w).kept = s.kept := by
  unfold storePacket; (repeat' split) <;> simp

@[simp] theorem claimCycle_kept (s : State) : (claimCycle s).kept = s.kept := by
  simp [claimCycle]

@[simp] theorem countClaim_kept (s : State) (r : Nat) : (countClaim s r).kept = s.kept := rfl

end Sys2Proof.Machine
end

