-- ==== Sys2Proof/Laws/KeptBuffer.lean ====
section
/-! SUPPORT. What Machine/Buffer.lean keeps: no definition of it changes the ownership registers or the queue of commands. -/

namespace Sys2Proof.Machine
open State

theorem execReadBuffer_kept (o : Order) (s : State) : ∃ t, execReadBuffer o s = .next t ∧ t.kept = s.kept :=
  ⟨_, rfl, runOrder_kept _ _ _ _ _ rfl⟩

theorem execReadQueue_kept (o : Order) (s : State) : ∃ t, execReadQueue o s = .next t ∧ t.kept = s.kept :=
  ⟨_, rfl, runOrder_kept _ _ _ _ _ rfl⟩

theorem execReadPg_kept (o : Order) (s : State) : ∃ t, execReadPg o s = .next t ∧ t.kept = s.kept :=
  ⟨_, rfl, runOrder_kept _ _ _ _ _ rfl⟩

theorem execPoolSet_kept (o : Order) (s : State) : ∃ t, execPoolSet o s = .next t ∧ t.kept = s.kept :=
  ⟨_, rfl, runOrder_kept _ _ _ _ _ rfl⟩

theorem execQueueAdmitSet_kept (o : Order) (s : State) : ∃ t, execQueueAdmitSet o s = .next t ∧ t.kept = s.kept :=
  ⟨_, rfl, runOrder_kept _ _ _ _ _ rfl⟩

theorem execPgSet_kept (o : Order) (s : State) : ∃ t, execPgSet o s = .next t ∧ t.kept = s.kept :=
  ⟨_, rfl, runOrder_kept _ _ _ _ _ (by simp)⟩

theorem execDramSet_kept (o : Order) (s : State) : ∃ t, execDramSet o s = .next t ∧ t.kept = s.kept :=
  ⟨_, rfl, runOrder_kept _ _ _ _ _ rfl⟩

@[simp] theorem updDram_kept : ∀ (s : State) (q c : Nat) (f : DramCopy → DramCopy), (updDram s q c f).kept = s.kept :=
    by
  intros; rfl

@[simp] theorem takeDram_kept : ∀ (s : State) (q c : Nat), (takeDram s q c).kept = s.kept := by
  intros; rfl

theorem execOverflowWriteDone_kept (q : Nat) (crcOk : Bool) (u : BilletUpset) (m : DramUse) (s : State) : ∃ t,
    execOverflowWriteDone q crcOk u m s = .next t ∧ t.kept = s.kept :=
  ⟨_, rfl, by (repeat' split) <;> simp⟩

@[simp] theorem returnDie_kept : ∀ (s : State) (q : Nat) (c : Copy), (returnDie s q c).kept = s.kept := by
  intros; rfl

theorem execOverflowReturn_kept (q : Nat) (fault : Option (Nat × Nat)) (crcOk : Bool) (upset : GrantUpset) (m :
    DramUse) (s : State) : ∃ t, execOverflowReturn q fault crcOk upset m s = .next t ∧ t.kept = s.kept :=
  ⟨_, rfl, by
    split
    · rfl
    · dsimp only
      split
      · rfl
      · split
        · simp
        · split
          · rfl
          · split
            · simp
            · split
              · simp
              · split
                · rename_i e _
                  have h := congrArg (fun x => State.kept x.1) e
                  simp only [claim_kept, grantUpset_kept] at h
                  have h' : (dramUse (countClaim (claimCycle s) 32) 3 m).kept = s.kept := by simp
                  rw [h'] at h; split <;> simp [← h]
                · simp⟩

end Sys2Proof.Machine
end

