-- ==== Sys2Proof/Laws/KeptTrims.lean ====
section
/-! SUPPORT. What Machine/Trims.lean keeps: no definition of it changes the ownership registers or the queue of commands. -/

namespace Sys2Proof.Machine
open State

theorem execReadTrim_kept (o : Order) (s : State) : ∃ t, execReadTrim o s = .next t ∧ t.kept = s.kept :=
  ⟨_, rfl, runOrder_kept _ _ _ _ _ rfl⟩

@[simp] theorem trimRecord_kept : ∀ (s : State) (n : Nat) (old new : Int), (trimRecord s n old new).kept = s.kept :=
    by
  intros; simp [trimRecord]

theorem execTrimSet_kept (o : Order) (s : State) : ∃ t, execTrimSet o s = .next t ∧ t.kept = s.kept :=
  ⟨_, rfl, runOrder_kept _ _ _ _ _ (by simp)⟩

theorem execTrimStep_kept (n : Nat) (s : State) : ∃ t, execTrimStep n s = .next t ∧ t.kept = s.kept :=
  ⟨_, rfl, by simp⟩

theorem execTrimMeasure_kept (o : Order) (s : State) : ∃ t, execTrimMeasure o s = .next t ∧ t.kept = s.kept :=
  ⟨_, rfl, runOrder_kept _ _ _ _ _ rfl⟩

@[simp] theorem setMeas_kept : ∀ (s : State) (n : Nat) (x : Option TrimMeas), (setMeas s n x).kept = s.kept := by
  intros; unfold setMeas; (repeat' split) <;> simp

theorem execTrimProbeSend_kept (n : Nat) (s : State) : ∃ t, execTrimProbeSend n s = .next t ∧ t.kept = s.kept :=
  ⟨_, rfl, by (repeat' split) <;> simp⟩

@[simp] theorem probeTake_kept : ∀ (s : State) (n : Nat) (m : TrimMeas) (nonce : BitVec 32) (sentDt inDt : Nat),
    (probeTake s n m nonce sentDt inDt).kept = s.kept := by
  intros; unfold probeTake; dsimp only; (repeat' split) <;> (try dsimp only) <;> simp

theorem execTrimMeasureTimeout_kept (n : Nat) (s : State) : ∃ t, execTrimMeasureTimeout n s = .next t ∧ t.kept =
    s.kept
    :=
  ⟨_, rfl, by dsimp only; (repeat' split) <;> simp⟩

end Sys2Proof.Machine
end

