-- ==== Sys2Proof/Laws/KeptPacketOps.lean ====
section
/-! SUPPORT. What Machine/PacketOps.lean keeps: no definition of it changes the ownership registers or the queue of commands. -/

namespace Sys2Proof.Machine
open State

@[simp] theorem discarded_kept : ∀ (s : State) (n : Nat) (f : PcsPort → PcsPort), (discarded s n f).kept = s.kept :=
    by
  intros; rfl

@[simp] theorem setPause_kept : ∀ (s : State) (n g until_ : Nat), (setPause s n g until_).kept = s.kept := by
  intros; simp [setPause]

@[simp] theorem pfcClass_kept : ∀ (n : Nat) (f : List Byte) (s : State) (g : Nat), (pfcClass n f s g).kept = s.kept :=
    by
  intros; simp [pfcClass]

@[simp] theorem macControl_kept : ∀ (s : State) (n : Nat) (f : List Byte), (macControl s n f).kept = s.kept := by
  intros; simp [macControl]

@[simp] theorem receiveFrame_kept (s : State) (n : Nat) (f : List Byte) (k : Nat) (syms : Nat) (marked : Bool) :
    (receiveFrame s n f k syms marked).kept = s.kept := by
  unfold receiveFrame; dsimp only; (repeat' split) <;> simp

@[simp] theorem escalate_kept : ∀ (s : State) (p : Pkt), (escalate s p).fst.kept = s.kept := by
  intros; simp [escalate]

@[simp] theorem fixDecision_kept : ∀ (s : State) (p : Pkt), (fixDecision s p).kept = s.kept := by
  intros; simp [fixDecision]

@[simp] theorem updSlice_kept : ∀ (s : State) (k : Nat) (f : Slice → Slice), (updSlice s k f).kept = s.kept := by
  intros; rfl

@[simp] theorem ingress_kept (s : State) (p : Pkt) : (ingress s p).kept = s.kept := by
  unfold ingress; dsimp only; (repeat' split) <;> simp

end Sys2Proof.Machine
end

