-- ==== Sys2Proof/Laws/KeptCollEng.lean ====
section
/-! SUPPORT. What Machine/CollEng.lean keeps: no definition of it changes the ownership registers or the queue of commands. -/

namespace Sys2Proof.Machine
open State

@[simp] theorem sendPkt_kept : ∀ (s : State) (n u : Nat) (hold : Bool) (p : Pkt), (sendPkt s n u hold p).kept = s.kept
    := by
  intros; simp [sendPkt]

@[simp] theorem sendColl_kept : ∀ (s : State) (n u kind id queue esc : Nat) (sat hold : Bool) (pre : List Byte) (h :
    Nat) (payload : List Byte), (sendColl s n u kind id queue esc sat hold pre h payload).kept = s.kept := by
  intros; simp [sendColl]

@[simp] theorem endInputs_kept : ∀ (s : State) (l : List Contribution), (endInputs s l).kept = s.kept := by
  intros; simp [endInputs]

@[simp] theorem dropKept_kept : ∀ (s : State) (k : Kept), (dropKept s k).kept = s.kept := by
  intros; unfold dropKept; (repeat' split) <;> simp

@[simp] theorem chunkDone_kept : ∀ (s : State) (n : Nat) (c : BitVec 32), (chunkDone s n c).kept = s.kept := by
  intros; simp [chunkDone]

@[simp] theorem sendResult_kept : ∀ (s : State) (n : Nat) (c : BitVec 32) (inp h : Nat) (payload : List Byte),
    (sendResult s n c inp h payload).kept = s.kept := by
  intros; simp [sendResult]

@[simp] theorem resend_kept : ∀ (s : State) (n : Nat) (p : Pkt) (k : Kept), (resend s n p k).kept = s.kept := by
  intros; simp [resend]

@[simp] theorem ctxClear_kept : ∀ (s : State) (n : Nat), (ctxClear s n).kept = s.kept := by
  intros; simp [ctxClear]

@[simp] theorem ctxFault_kept : ∀ (s : State) (n : Nat), (ctxFault s n).kept = s.kept := by
  intros; simp [ctxFault]

@[simp] theorem beginMove_kept : ∀ (s : State) (n home : Nat) (order : Option Order) (isolation : Bool), (beginMove s
    n
    home order isolation).kept = s.kept := by
  intros; rfl

@[simp] theorem isolateCtx_kept : ∀ (u : Nat) (s : State) (n : Nat), (isolateCtx u s n).kept = s.kept := by
  intros; unfold isolateCtx; dsimp only; (repeat' split) <;> (try dsimp only) <;> simp

@[simp] theorem forgetHome_kept (s : State) (u : Nat) : (forgetHome s u).kept = s.kept := rfl

@[simp] theorem isolateUnit_kept : ∀ (s : State) (u : Nat), (isolateUnit s u).kept = s.kept := by
  intros; simp [isolateUnit]

@[simp] theorem chunkFault_kept : ∀ (s : State) (n u : Nat) (c : BitVec 32), (chunkFault s n u c).kept = s.kept := by
  intros; simp [chunkFault]

@[simp] theorem chunkPass_kept : ∀ (s : State) (n : Nat) (k : Chunk) (recomputed : Bool), (chunkPass s n k
    recomputed).kept = s.kept := by
  intros; simp [chunkPass]

@[simp] theorem barrierRelease_kept : ∀ (s : State) (n inp h : Nat), (barrierRelease s n inp h).kept = s.kept := by
  intros; simp [barrierRelease]

@[simp] theorem ownRelease_kept : ∀ (s : State) (n : Nat), (ownRelease s n).kept = s.kept := by
  intros; unfold ownRelease; dsimp only; (repeat' split) <;> (try dsimp only) <;> simp

@[simp] theorem barrierFull_kept : ∀ (s : State) (n : Nat), (barrierFull s n).kept = s.kept := by
  intros; simp [barrierFull]

@[simp] theorem preramp_kept : ∀ (s : State) (n : Nat), (preramp s n).kept = s.kept := by
  intros; simp [preramp]

end Sys2Proof.Machine
end

