-- ==== Sys2Proof/Laws/KeptCollective.lean ====
section
/-! SUPPORT. What Machine/Collective.lean keeps: no definition of it changes the ownership registers or the queue of commands. -/

namespace Sys2Proof.Machine
open State

theorem execReadContext_kept (o : Order) (s : State) : ∃ t, execReadContext o s = .next t ∧ t.kept = s.kept :=
  ⟨_, rfl, runOrder_kept _ _ _ _ _ rfl⟩

theorem execReadCu_kept (o : Order) (s : State) : ∃ t, execReadCu o s = .next t ∧ t.kept = s.kept :=
  ⟨_, rfl, runOrder_kept _ _ _ _ _ rfl⟩

theorem execContextSet_kept (o : Order) (s : State) : ∃ t, execContextSet o s = .next t ∧ t.kept = s.kept :=
  ⟨_, rfl, runPtr_kept _ _ _ _ _ _ fun _ => by dsimp only; split <;> simp⟩

theorem execContextMove_kept (o : Order) (s : State) : ∃ t, execContextMove o s = .next t ∧ t.kept = s.kept :=
  ⟨_, rfl, runOrder_kept _ _ _ _ _ rfl⟩

theorem execContextReset_kept (o : Order) (s : State) : ∃ t, execContextReset o s = .next t ∧ t.kept = s.kept :=
  ⟨_, rfl, runOrder_kept _ _ _ _ _ (by simp)⟩

theorem execCollSet_kept (o : Order) (s : State) : ∃ t, execCollSet o s = .next t ∧ t.kept = s.kept :=
  ⟨_, rfl, runOrder_kept _ _ _ _ _ rfl⟩

@[simp] theorem collDrop_kept : ∀ (s : State) (n id : Nat) (p : Pkt) (cause : Nat) (u : BilletUpset), (collDrop s n id
    p cause u).kept = s.kept := by
  intros; simp [collDrop]

@[simp] theorem collConsume_kept : ∀ (s : State) (id : Nat) (u : BilletUpset), (collConsume s id u).kept = s.kept :=
    by
  intros; simp [collConsume]

theorem takeInput_kept (s : State) (u id : Nat) (x : Stored) (t : State) (h : takeInput s u = some (id, x, t)) :
    t.kept = s.kept := by
  unfold takeInput at h
  split at h
  · simp only [Option.map_eq_some_iff] at h
    obtain ⟨y, -, h⟩ := h
    cases h; simp
  · cases h

@[simp] theorem passOn_kept : ∀ (s : State) (u h id bytes : Nat), (passOn s u h id bytes).kept = s.kept := by
  intros; rfl

theorem withInput_kept (s : State) (u : Nat) (p : Nat → Bool) (f : State → Nat → Pkt → State)
    (h : ∀ t i q, (f t i q).kept = t.kept) : (withInput s u p f).kept = s.kept := by
  unfold withInput
  split
  · rfl
  · split
    · rfl
    · rename_i e
      have k := takeInput_kept _ _ _ _ _ e
      (repeat' split) <;> simp [h, k]

@[simp] theorem accumulate_kept : ∀ (s : State) (n u id h : Nat) (pl : List Byte) (ok : Bool), (accumulate s n u id h
    pl ok).kept = s.kept := by
  intros; simp [accumulate]

@[simp] theorem contribute_kept : ∀ (s : State) (n u id : Nat) (p : Pkt) (h : Nat) (pl : List Byte) (ok : Bool) (up :
    BilletUpset), (contribute s n u id p h pl ok up).kept = s.kept := by
  intros; unfold contribute; dsimp only; (repeat' split) <;> (try dsimp only) <;> simp

theorem execCollContributionArrival_kept (u : Nat) (ok : Bool) (up : BilletUpset) (s : State) : ∃ t,
    execCollContributionArrival u ok up s = .next t ∧ t.kept = s.kept :=
  ⟨_, rfl, withInput_kept _ _ _ _ fun _ _ _ => by dsimp only; (repeat' split) <;> simp⟩

theorem execBarrierArrive_kept (u : Nat) (up : BilletUpset) (s : State) : ∃ t, execBarrierArrive u up s = .next t ∧
    t.kept = s.kept :=
  ⟨_, rfl, withInput_kept _ _ _ _ fun _ _ _ => by dsimp only; (repeat' split) <;> simp⟩

theorem execCollParentResult_kept (u : Nat) (up : BilletUpset) (s : State) : ∃ t, execCollParentResult u up s = .next
    t
    ∧ t.kept = s.kept :=
  ⟨_, rfl, withInput_kept _ _ _ _ fun _ _ _ => by dsimp only; (repeat' split) <;> simp⟩

theorem execCollRecompute_kept (n : Nat) (badRead : Option Nat) (pass : Bool) (s : State) : ∃ t, execCollRecompute n
    badRead pass s = .next t ∧ t.kept = s.kept :=
  ⟨_, rfl, by dsimp only; (repeat' split) <;> simp⟩

theorem execCollTimeout_kept (n : Nat) (s : State) : ∃ t, execCollTimeout n s = .next t ∧ t.kept = s.kept :=
  ⟨_, rfl, by dsimp only; (repeat' split) <;> simp⟩

theorem execCollNotice_kept (n : Nat) (s : State) : ∃ t, execCollNotice n s = .next t ∧ t.kept = s.kept :=
  ⟨_, rfl, by simp⟩

theorem execRampWaitExpiry_kept (n : Nat) (s : State) : ∃ t, execRampWaitExpiry n s = .next t ∧ t.kept = s.kept :=
  ⟨_, rfl, by simp⟩

theorem execPrerampWithdraw_kept (n : Nat) (s : State) : ∃ t, execPrerampWithdraw n s = .next t ∧ t.kept = s.kept :=
  ⟨_, rfl, rfl⟩

@[simp] theorem releaseMove_kept : ∀ (s : State) (n : Nat), (releaseMove s n).kept = s.kept := by
  intros; rfl

theorem execCollMoveMarker_kept (n : Nat) (s : State) : ∃ t, execCollMoveMarker n s = .next t ∧ t.kept = s.kept :=
  ⟨_, rfl, by dsimp only; (repeat' split) <;> simp⟩

theorem execMoveHoldTimeout_kept (n : Nat) (s : State) : ∃ t, execMoveHoldTimeout n s = .next t ∧ t.kept = s.kept :=
  ⟨_, rfl, by dsimp only; (repeat' split) <;> simp⟩

end Sys2Proof.Machine
end

