-- ==== Sys2Proof/Laws/KeptPtpOps.lean ====
section
/-! SUPPORT. What Machine/PtpOps.lean keeps: no definition of it changes the ownership registers or the queue of commands. -/

namespace Sys2Proof.Machine
open State

@[simp] theorem updPtpRun_kept (s : State) (n : Nat) (f : PtpRun → PtpRun) : (updPtpRun s n f).kept = s.kept := rfl

end Sys2Proof.Machine
end

