-- ==== Sys2Proof/Laws/KeptTimeOps.lean ====
section
/-! SUPPORT. What Machine/TimeOps.lean keeps: no definition of it changes the ownership registers or the queue of commands. -/

namespace Sys2Proof.Machine
open State

@[simp] theorem tick_kept : ∀ (s : State), (tick s).kept = s.kept := by
  intros; simp [tick]

@[simp] theorem suspectBins_kept (s : State) (old : Nat) (new : Nat) : (suspectBins s old new).kept = s.kept := by
  unfold suspectBins; apply kept_foldl; intros; rfl

@[simp] theorem requalify_kept : ∀ (s : State), (requalify s).kept = s.kept := by
  intros; simp [requalify]

end Sys2Proof.Machine
end

