-- ==== Sys2Proof/Laws/KeptLanes.lean ====
section
/-! SUPPORT. What Machine/Lanes.lean keeps: no definition of it changes the ownership registers or the queue of commands. -/

namespace Sys2Proof.Machine
open State

theorem execReadLane_kept (o : Order) (s : State) : ∃ t, execReadLane o s = .next t ∧ t.kept = s.kept :=
  ⟨_, rfl, runOrder_kept _ _ _ _ _ rfl⟩

theorem execReadOe_kept (o : Order) (s : State) : ∃ t, execReadOe o s = .next t ∧ t.kept = s.kept :=
  ⟨_, rfl, runOrder_kept _ _ _ _ _ rfl⟩

theorem execEyeScan_kept (o : Order) (s : State) : ∃ t, execEyeScan o s = .next t ∧ t.kept = s.kept :=
  ⟨_, rfl, runOrder_kept _ _ _ _ _ rfl⟩

theorem execEyeScanPoint_kept (p : Nat) (errors : Nat) (compared : Nat) (s : State) : ∃ t, execEyeScanPoint p errors
    compared s = .next t ∧ t.kept = s.kept :=
  ⟨_, rfl, by dsimp only; (repeat' split) <;> simp⟩

theorem execRawCapture_kept (o : Order) (s : State) : ∃ t, execRawCapture o s = .next t ∧ t.kept = s.kept :=
  ⟨_, rfl, runOrder_kept _ _ _ _ _ rfl⟩

@[simp] theorem portSetEffect_kept (s : State) (n : Nat) (cfg : Option PortCfg) : (portSetEffect s n cfg).kept = s.kept := by
  cases cfg with
  | none => simp [portSetEffect]
  | some c =>
    have h : ∀ (l : List Nat) (t : State), (l.foldl (fun u p => updLane u p (joinPort s.tb.now c)) t).kept = t.kept :=
      fun l t => kept_foldl _ (fun _ _ => updLane_kept _ _ _) l t
    simp [portSetEffect, h]

theorem execPortSet_kept (o : Order) (s : State) : ∃ t, execPortSet o s = .next t ∧ t.kept = s.kept :=
  ⟨_, rfl, runOrder_kept _ _ _ _ _ (by simp)⟩

theorem execLaneSet_kept (o : Order) (s : State) : ∃ t, execLaneSet o s = .next t ∧ t.kept = s.kept :=
  ⟨_, rfl, runOrder_kept _ _ _ _ _ (by dsimp only; (repeat' split) <;> simp)⟩

@[simp] theorem beginRecal_kept (s : State) (p : Nat) (order : Bool) : (beginRecal s p order).kept = s.kept := by
  simp [beginRecal]

theorem execRecalibrate_kept (o : Order) (s : State) : ∃ t, execRecalibrate o s = .next t ∧ t.kept = s.kept :=
  ⟨_, rfl, runOrder_kept _ _ _ _ _ (by simp)⟩

theorem execRecalibrateDone_kept (p : Nat) (c : LaneCal) (s : State) : ∃ t, execRecalibrateDone p c s = .next t ∧
    t.kept = s.kept :=
  ⟨_, rfl, by dsimp only; (repeat' split) <;> simp⟩

theorem execSpare_kept (o : Order) (s : State) : ∃ t, execSpare o s = .next t ∧ t.kept = s.kept :=
  ⟨_, rfl, runOrder_kept _ _ _ _ _ (by simp)⟩

theorem execUnspare_kept (o : Order) (s : State) : ∃ t, execUnspare o s = .next t ∧ t.kept = s.kept :=
  ⟨_, rfl, runOrder_kept _ _ _ _ _ (by simp)⟩

theorem execOeSet_kept (o : Order) (s : State) : ∃ t, execOeSet o s = .next t ∧ t.kept = s.kept :=
  ⟨_, rfl, runOrder_kept _ _ _ _ _ (by simp)⟩

@[simp] theorem xpReplace_kept (s : State) (src : Nat) (rate : Nat) (ds : List Nat) : (xpReplace s src rate ds).kept =
    s.kept := by
  simp [xpReplace]

theorem execXpSet_kept (o : Order) (s : State) : ∃ t, execXpSet o s = .next t ∧ t.kept = s.kept :=
  ⟨_, rfl, runOrder_kept _ _ _ _ _ (by simp)⟩

theorem execElsXfer_kept (o : Order) (s : State) : ∃ t, execElsXfer o s = .next t ∧ t.kept = s.kept :=
  ⟨_, rfl, runOrder_kept _ _ _ _ _ (by dsimp only; (repeat' split) <;> simp)⟩

theorem execLaneSignalPresent_kept (p : Nat) (power : Int) (s : State) : ∃ t, execLaneSignalPresent p power s = .next
    t ∧ t.kept = s.kept :=
  ⟨_, rfl, by simp⟩

theorem execLaneAdaptDone_kept (p : Nat) (c : LaneCal) (s : State) : ∃ t, execLaneAdaptDone p c s = .next t ∧ t.kept =
    s.kept :=
  ⟨_, rfl, by simp⟩

@[simp] theorem postLaser_kept : ∀ (s : State) (e code : Nat) (power : Int), (postLaser s e code power).kept = s.kept
    := by
  intros; simp [postLaser]

theorem execLaserSample_kept (e : Nat) (power : Int) (temp : Int) (s : State) : ∃ t, execLaserSample e power temp s =
    .next t ∧ t.kept = s.kept :=
  ⟨_, rfl, by simp⟩

@[simp] theorem clearLaser_kept : ∀ (s : State) (e : Nat), (clearLaser s e).kept = s.kept := by
  intros; simp [clearLaser]

theorem execSpareStandby_kept (e : Nat) (s : State) : ∃ t, execSpareStandby e s = .next t ∧ t.kept = s.kept :=
  ⟨_, rfl, by dsimp only; (repeat' split) <;> simp⟩

theorem execSpareLockLost_kept (e : Nat) (s : State) : ∃ t, execSpareLockLost e s = .next t ∧ t.kept = s.kept :=
  ⟨_, rfl, by simp⟩

theorem execSpareTrigger_kept (p : Nat) (cause : Nat) (s : State) : ∃ t, execSpareTrigger p cause s = .next t ∧ t.kept
    = s.kept :=
  ⟨_, rfl, by simp⟩

theorem execSpareAckTimeout_kept (e : Nat) (s : State) : ∃ t, execSpareAckTimeout e s = .next t ∧ t.kept = s.kept :=
  ⟨_, rfl, by (repeat' split) <;> simp⟩

theorem squelchAll_kept (f : Lane → Lane) (on : Bool) (l : List Nat) (s : State) :
    (l.foldl (fun u d => (updLane u d f).emit (.squelch d on)) s).kept = s.kept :=
  kept_foldl _ (fun _ _ => by rw [emit_kept, updLane_kept]) l s

theorem execXpSourceLost_kept (p : Nat) (s : State) : ∃ t, execXpSourceLost p s = .next t ∧ t.kept = s.kept :=
  ⟨_, rfl, by
    split
    · dsimp only; split
      · simp
      · rw [postAll_kept, squelchAll_kept]; simp
    · rfl⟩

theorem execXpResume_kept (p : Nat) (s : State) : ∃ t, execXpResume p s = .next t ∧ t.kept = s.kept :=
  ⟨_, rfl, by
    split
    · dsimp only; split
      · rfl
      · rw [postAll_kept, squelchAll_kept]; simp
    · rfl⟩

end Sys2Proof.Machine
end

