-- ==== Sys2Proof/Laws/KeptEgress.lean ====
section
/-! SUPPORT. What Machine/Egress.lean keeps: no definition of it changes the ownership registers or the queue of commands. -/

namespace Sys2Proof.Machine
open State

@[simp] theorem setOper_kept : ∀ (s : State) (n : Nat) (g : Option Gcl), (setOper s n g).kept = s.kept := by
  intros; rfl

@[simp] theorem setPend_kept : ∀ (s : State) (n : Nat) (g : Option Gcl), (setPend s n g).kept = s.kept := by
  intros; rfl

@[simp] theorem takeover_kept : ∀ (s : State) (n : Nat), (takeover s n).kept = s.kept := by
  intros; unfold takeover; (repeat' split) <;> simp

theorem execReadSched_kept (o : Order) (s : State) : ∃ t, execReadSched o s = .next t ∧ t.kept = s.kept :=
  ⟨_, rfl, runOrder_kept _ _ _ _ _ (by simp)⟩

theorem execReadGcl_kept (o : Order) (s : State) : ∃ t, execReadGcl o s = .next t ∧ t.kept = s.kept :=
  ⟨_, rfl, runOrder_kept _ _ _ _ _ (by simp)⟩

theorem execReadShaper_kept (o : Order) (s : State) : ∃ t, execReadShaper o s = .next t ∧ t.kept = s.kept :=
  ⟨_, rfl, runOrder_kept _ _ _ _ _ rfl⟩

theorem execQueueSchedSet_kept (o : Order) (s : State) : ∃ t, execQueueSchedSet o s = .next t ∧ t.kept = s.kept :=
  ⟨_, rfl, runOrder_kept _ _ _ _ _ rfl⟩

theorem execShaperSet_kept (o : Order) (s : State) : ∃ t, execShaperSet o s = .next t ∧ t.kept = s.kept :=
  ⟨_, rfl, runOrder_kept _ _ _ _ _ rfl⟩

theorem execGclSet_kept (o : Order) (s : State) : ∃ t, execGclSet o s = .next t ∧ t.kept = s.kept :=
  ⟨_, rfl, runPtr_kept _ _ _ _ _ _ fun _ => by simp⟩

theorem execGclCancel_kept (o : Order) (s : State) : ∃ t, execGclCancel o s = .next t ∧ t.kept = s.kept :=
  ⟨_, rfl, runOrder_kept _ _ _ _ _ (by simp)⟩

@[simp] theorem wdRefreshPort_kept : ∀ (s : State) (n : Nat), (wdRefreshPort s n).kept = s.kept := by
  intros; simp [wdRefreshPort]

theorem execPfcSet_kept (o : Order) (s : State) : ∃ t, execPfcSet o s = .next t ∧ t.kept = s.kept :=
  ⟨_, rfl, runOrder_kept _ _ _ _ _ (by simp)⟩

theorem execEscSet_kept (o : Order) (s : State) : ∃ t, execEscSet o s = .next t ∧ t.kept = s.kept :=
  ⟨_, rfl, runOrder_kept _ _ _ _ _ rfl⟩

@[simp] theorem stormLeave_kept : ∀ (s : State) (q cause : Nat), (stormLeave s q cause).kept = s.kept := by
  intros; simp [stormLeave]

theorem execStormRestore_kept (o : Order) (s : State) : ∃ t, execStormRestore o s = .next t ∧ t.kept = s.kept :=
  ⟨_, rfl, runOrder_kept _ _ _ _ _ (by simp)⟩

theorem execPfcPauseExpiry_kept (n : Nat) (g : Nat) (s : State) : ∃ t, execPfcPauseExpiry n g s = .next t ∧ t.kept =
    s.kept :=
  ⟨_, rfl, by simp⟩

theorem execPfcRefresh_kept (n : Nat) (s : State) : ∃ t, execPfcRefresh n s = .next t ∧ t.kept = s.kept :=
  ⟨_, rfl, by simp⟩

theorem execPfcStormEnter_kept (q : Nat) (s : State) : ∃ t, execPfcStormEnter q s = .next t ∧ t.kept = s.kept :=
  ⟨_, rfl, by simp⟩

theorem execStormRestoreTimer_kept (q : Nat) (s : State) : ∃ t, execStormRestoreTimer q s = .next t ∧ t.kept = s.kept
    :=
  ⟨_, rfl, by simp⟩

theorem execGateEntryChange_kept (n : Nat) (s : State) : ∃ t, execGateEntryChange n s = .next t ∧ t.kept = s.kept :=
  ⟨_, rfl, by simp⟩

theorem execGclTakeover_kept (n : Nat) (s : State) : ∃ t, execGclTakeover n s = .next t ∧ t.kept = s.kept :=
  ⟨_, rfl, by simp⟩

@[simp] theorem drr_kept (n : Nat) (el : List (Nat × Nat)) (k i : Nat) (s : State) : (drr n el k i s).1.kept = s.kept
    := by
  induction k generalizing i s with
  | zero => rfl
  | succ k ih => unfold drr; dsimp only; (repeat' split) <;> simp [ih]

@[simp] theorem pickQueue_kept : ∀ (s : State) (n : Nat), (pickQueue s n).fst.kept = s.kept := by
  intros; unfold pickQueue; dsimp only; (repeat' split) <;> (try dsimp only) <;> simp

@[simp] theorem popHead_kept : ∀ (s : State) (q : Nat) (begun : Bool), (popHead s q begun).kept = s.kept := by
  intros; rfl

@[simp] theorem seqLeft_kept : ∀ (s : State) (c : Copy), (seqLeft s c).kept = s.kept := by
  intros; unfold seqLeft; (repeat' split) <;> simp

@[simp] theorem egressCopies_kept : ∀ (s : State) (n : Nat) (c : Copy) (x : Stored) (e : Egressed), (egressCopies s n
    c
    x e).kept = s.kept := by
  intros; unfold egressCopies; (repeat' split) <;> simp

@[simp] theorem beginFrame_kept : ∀ (s : State) (n q : Nat) (c : Copy) (x : Stored) (bytes : List Byte), (beginFrame s
    n q c x bytes).kept = s.kept := by
  intros; simp [beginFrame]

theorem execEgressFrameStart_kept (n : Nat) (crcOk : Bool) (u : BilletUpset) (s : State) :
    ∃ t, execEgressFrameStart n crcOk u s = .next t ∧ t.kept = s.kept := by
  refine ⟨_, rfl, ?_⟩
  have h0 : (pfcTry (takeover s n) n).kept = s.kept := by simp
  generalize pfcTry (takeover s n) n = a at h0
  dsimp only
  split
  · exact h0
  · have h1 := pickQueue_kept a n
    rw [h0] at h1
    split <;> rename_i e <;> rw [e] at h1
    · exact h0
    · split
      · exact h0
      · (repeat' split) <;> simp at * <;> simp [h1]

@[simp] theorem txCounted_kept : ∀ (s : State) (n : Nat) (f : List Byte) (bad : Bool), (txCounted s n f bad).kept =
    s.kept := by
  intros; simp [txCounted]

@[simp] theorem endOfCopy_kept : ∀ (s : State) (c : Copy) (u : BilletUpset), (endOfCopy s c u).kept = s.kept := by
  intros; unfold endOfCopy; (repeat' split) <;> simp

theorem execTransmissionEnd_kept (n : Nat) (u : BilletUpset) (s : State) : ∃ t, execTransmissionEnd n u s = .next t ∧
    t.kept = s.kept :=
  ⟨_, rfl, by (repeat' split) <;> simp⟩

end Sys2Proof.Machine
end

