-- ==== Sys2Proof/Laws/KeptLatheOps.lean ====
section
/-! SUPPORT. What Machine/LatheOps.lean keeps: no definition of it changes the ownership registers or the queue of commands. -/

namespace Sys2Proof.Machine
open State

@[simp] theorem updLathe_kept : ∀ (s : State) (k : Nat) (f : Lathe → Lathe), (updLathe s k f).kept = s.kept := by
  intros; rfl

@[simp] theorem pushItem_kept : ∀ (s : State) (k : Nat) (i : LItem), (pushItem s k i).kept = s.kept := by
  intros; rfl

@[simp] theorem dealTo_kept : ∀ (s : State) (slice i : Nat) (p : Pkt), (dealTo s slice i p).kept = s.kept := by
  intros; simp [dealTo]

@[simp] theorem takeSeq_kept : ∀ (s : State) (slice : Nat) (d : Dealt), (takeSeq s slice d).kept = s.kept := by
  intros; rfl

@[simp] theorem latheDrop_kept : ∀ (s : State) (k cause : Nat), (latheDrop s k cause).kept = s.kept := by
  intros; unfold latheDrop; (repeat' split) <;> simp

@[simp] theorem offerResult_kept : ∀ (s : State) (k : Nat), (offerResult s k).kept = s.kept := by
  intros; unfold offerResult; (repeat' split) <;> simp

@[simp] theorem postIso_kept : ∀ (s : State) (k cause : Nat) (on : Bool), (postIso s k cause on).kept = s.kept := by
  intros; simp [postIso]

@[simp] theorem isolateLathe_kept : ∀ (s : State) (k cause : Nat), (isolateLathe s k cause).kept = s.kept := by
  intros; simp [isolateLathe]

@[simp] theorem latheFault_kept : ∀ (s : State) (k code pc : Nat), (latheFault s k code pc).kept = s.kept := by
  intros; simp [latheFault]

@[simp] theorem memoryError_kept : ∀ (s : State) (k kind word : Nat), (memoryError s k kind word).kept = s.kept := by
  intros; simp [memoryError]

@[simp] theorem postMcheck_kept : ∀ (s : State) (k cause outcome : Nat) (bank : Bool) (word : Nat), (postMcheck s k
    cause outcome bank word).kept = s.kept := by
  intros; simp [postMcheck]

@[simp] theorem machineCheck_kept : ∀ (s : State) (k cause : Nat) (bank : Bool) (word : Nat), (machineCheck s k cause
    bank word).kept = s.kept := by
  intros; simp [machineCheck]

@[simp] theorem putShm_kept : ∀ (s : State) (slice w : Nat) (v : BitVec 64), (putShm s slice w v).kept = s.kept := by
  intros; rfl

@[simp] theorem putShmWords_kept : ∀ (slice : Nat) (a : State) (a_1 : Nat) (a_2 : List (BitVec 64)), (putShmWords
    slice a a_1 a_2).kept = a.kept := by
  intros
  first
    | (fun_induction putShmWords <;> simp_all; done)
    | (fun_induction putShmWords <;> (try dsimp only) <;> (repeat' split) <;> simp_all; done)

end Sys2Proof.Machine
end

