-- ==== Sys2Proof/Laws/KeptLathes.lean ====
section
/-! SUPPORT. What Machine/Lathes.lean keeps: no definition of it changes the ownership registers or the queue of commands. -/

namespace Sys2Proof.Machine
open State

theorem execDealSet_kept (o : Order) (s : State) : ∃ t, execDealSet o s = .next t ∧ t.kept = s.kept :=
  ⟨_, rfl, runOrder_kept _ _ _ _ _ (by simp)⟩

theorem execDealDrainMarkerDone_kept (k : Nat) (s : State) : ∃ t, execDealDrainMarkerDone k s = .next t ∧ t.kept =
    s.kept :=
  ⟨_, rfl, by dsimp only; (repeat' split) <;> simp⟩

theorem execLatheDeal_kept (slice : Nat) (s : State) : ∃ t, execLatheDeal slice s = .next t ∧ t.kept = s.kept :=
  ⟨_, rfl, by dsimp only; (repeat' split) <;> simp⟩

@[simp] theorem offerAll_kept : ∀ (s : State) (slice : Nat), (offerAll s slice).kept = s.kept := by
  intros; simp [offerAll]

theorem execLatheResultRelease_kept (slice : Nat) (bucket : Nat) (s : State) : ∃ t, execLatheResultRelease slice
    bucket
    s = .next t ∧ t.kept = s.kept :=
  ⟨_, rfl, by (repeat' split) <;> simp⟩

theorem execLatheTimeoutSkip_kept (slice : Nat) (bucket : Nat) (s : State) : ∃ t, execLatheTimeoutSkip slice bucket s
    =
    .next t ∧ t.kept = s.kept :=
  ⟨_, rfl, by (repeat' split) <;> simp⟩

theorem execReadLathe_kept (o : Order) (s : State) : ∃ t, execReadLathe o s = .next t ∧ t.kept = s.kept :=
  ⟨_, rfl, runOrder_kept _ _ _ _ _ rfl⟩

theorem execReadBank_kept (o : Order) (s : State) : ∃ t, execReadBank o s = .next t ∧ t.kept = s.kept :=
  ⟨_, rfl, runOrder_kept _ _ _ _ _ rfl⟩

@[simp] theorem shmPort_kept (s : State) (slice : Nat) (a : Nat) (n : Nat) : (shmPort s slice a n).kept = s.kept := by
  simp [shmPort]

theorem execShmRead_kept (o : Order) (s : State) : ∃ t, execShmRead o s = .next t ∧ t.kept = s.kept :=
  ⟨_, rfl, runOrder_kept _ _ _ _ _ (by
    dsimp only; generalize List.range (8 * o.f 21 11) = l; rw [kept_foldl _ (fun t _ => drawn_kept t)]; simp)⟩

theorem execReadControlStore_kept (o : Order) (s : State) : ∃ t, execReadControlStore o s = .next t ∧ t.kept = s.kept
    :=
  ⟨_, rfl, runOrder_kept _ _ _ _ _ (by dsimp only; exact kept_foldl _ (fun t _ => drawn_kept t) _ _)⟩

@[simp] theorem postBank_kept : ∀ (s : State) (b : Bool) (st : Nat), (postBank s b st).kept = s.kept := by
  intros; simp [postBank]

theorem execImageLoad_kept (o : Order) (s : State) : ∃ t, execImageLoad o s = .next t ∧ t.kept = s.kept :=
  ⟨_, rfl, runPtr_kept _ _ _ _ _ _ fun _ => by dsimp only; split <;> simp⟩

theorem execImageLoadDone_kept (b : Bool) (ok : Bool) (s : State) : ∃ t, execImageLoadDone b ok s = .next t ∧ t.kept =
    s.kept :=
  ⟨_, rfl, by (repeat' split) <;> simp⟩

theorem execBankClear_kept (o : Order) (s : State) : ∃ t, execBankClear o s = .next t ∧ t.kept = s.kept :=
  ⟨_, rfl, runOrder_kept _ _ _ _ _ (by simp)⟩

theorem execShmWrite_kept (o : Order) (s : State) : ∃ t, execShmWrite o s = .next t ∧ t.kept = s.kept :=
  ⟨_, rfl, runPtr_kept _ _ _ _ _ _ fun _ => by simp⟩

theorem execLatheIsolate_kept (o : Order) (s : State) : ∃ t, execLatheIsolate o s = .next t ∧ t.kept = s.kept :=
  ⟨_, rfl, runOrder_kept _ _ _ _ _ (by simp)⟩

theorem execLatheRestore_kept (o : Order) (s : State) : ∃ t, execLatheRestore o s = .next t ∧ t.kept = s.kept :=
  ⟨_, rfl, runOrder_kept _ _ _ _ _ rfl⟩

@[simp] theorem updGroupLathes_kept : ∀ (s : State) (slice : Nat) (f : Lathe → Lathe), (updGroupLathes s slice f).kept
    = s.kept := by
  intros; simp [updGroupLathes]

@[simp] theorem beginReload_kept : ∀ (s : State) (slice : Nat) (b : Bool) (o : Option Order), (beginReload s slice b
    o).kept = s.kept := by
  intros; simp [beginReload]

theorem execMicrocodeReload_kept (o : Order) (s : State) : ∃ t, execMicrocodeReload o s = .next t ∧ t.kept = s.kept :=
  ⟨_, rfl, runOrder_kept _ _ _ _ _ (by simp)⟩

theorem execLatheRedirectDone_kept (slice : Nat) (bad : BitVec 6) (s : State) : ∃ t, execLatheRedirectDone slice bad s
    = .next t ∧ t.kept = s.kept :=
  ⟨_, rfl, by (repeat' split) <;> simp⟩

@[simp] theorem testCheck_kept (s : State) (k : Nat) : (testCheck s k).kept = s.kept := by
  simp [testCheck]

theorem execLatheRestoreDone_kept (k : Nat) (res : Nat) (s : State) : ∃ t, execLatheRestoreDone k res s = .next t ∧ t.kept =
    s.kept :=
  ⟨_, rfl, by
    split
    · rfl
    · dsimp only; split
      · rfl
      · split
        · rw [finishOrder_kept, postIso_kept]; rfl
        · rw [finishOrder_kept]; split <;> simp⟩

theorem execMandrelTest_kept (o : Order) (res : Nat) (s : State) : ∃ t, execMandrelTest o res s = .next t ∧ t.kept =
    s.kept :=
  ⟨_, rfl, runOrder_kept _ _ _ _ _ (by simp)⟩

@[simp] theorem injectDone_kept : ∀ (s : State) (k outcome : Nat), (injectDone s k outcome).kept = s.kept := by
  intros; unfold injectDone; (repeat' split) <;> simp

theorem execCsInject_kept (o : Order) (s : State) : ∃ t, execCsInject o s = .next t ∧ t.kept = s.kept :=
  ⟨_, rfl, runOrder_kept _ _ _ _ _ (by simp)⟩

theorem execMcheckRecoveryDone_kept (k : Nat) (cause : Nat) (s : State) : ∃ t, execMcheckRecoveryDone k cause s =
    .next
    t ∧ t.kept = s.kept :=
  ⟨_, rfl, by dsimp only; (repeat' split) <;> simp⟩

end Sys2Proof.Machine
end

