-- ==== Sys2Proof/Laws/KeptOwnership.lean ====
section
/-! SUPPORT. What Machine/Ownership.lean keeps: no definition of it changes the ownership registers or the queue of commands. -/

namespace Sys2Proof.Machine
open State

theorem execNop_kept (o : Order) (s : State) : ∃ t, execNop o s = .next t ∧ t.kept = s.kept :=
  ⟨_, rfl, runOrder_kept _ _ _ _ _ rfl⟩

theorem execReadOwnership_kept (o : Order) (s : State) : ∃ t, execReadOwnership o s = .next t ∧ t.kept = s.kept :=
  ⟨_, rfl, runOrder_kept _ _ _ _ _ rfl⟩

theorem execReservedOpcodeOrder_kept (o : Order) (_opcode : BitVec 16) (s : State) : ∃ t, execReservedOpcodeOrder o
    _opcode s = .next t ∧ t.kept = s.kept :=
  ⟨_, rfl, by simp⟩

@[simp] theorem postLapsed_kept : ∀ (s : State) (cause : Nat) (owner : Option Master) (to_ : Master), (postLapsed s
    cause owner to_).kept = s.kept := by
  intros; unfold postLapsed; (repeat' split) <;> simp

@[simp] theorem postOwnerChanged_kept : ∀ (s : State) (old new : Option Master) (cause : Nat), (postOwnerChanged s old
    new cause).kept = s.kept := by
  intros; simp [postOwnerChanged]

@[simp] theorem coastIfService_kept : ∀ (s : State), (coastIfService s).kept = s.kept := by
  intros; simp [coastIfService]

theorem nextOf_kept (s : State) : ∃ t, nextOf s = .next t ∧ t.kept = s.kept :=
  ⟨_, rfl, rfl⟩

end Sys2Proof.Machine
end

