-- ==== Sys2Proof/Laws/KeptTime.lean ====
section
/-! SUPPORT. What Machine/Time.lean keeps: no definition of it changes the ownership registers or the queue of commands. -/

namespace Sys2Proof.Machine
open State

theorem execReadTb_kept (o : Order) (s : State) : ∃ t, execReadTb o s = .next t ∧ t.kept = s.kept :=
  ⟨_, rfl, runOrder_kept _ _ _ _ _ rfl⟩

theorem execReadLtt_kept (o : Order) (s : State) : ∃ t, execReadLtt o s = .next t ∧ t.kept = s.kept :=
  ⟨_, rfl, runOrder_kept _ _ _ _ _ rfl⟩

theorem logReadError_kept (s : State) (o : Order) (t : State) (h : logReadError s o = some t) : t.kept = s.kept := by
  unfold logReadError at h; split at h
  · cases h; simp
  · cases h

theorem execReadLogBlock_kept (o : Order) (s : State) : ∃ t, execReadLogBlock o s = .next t ∧ t.kept = s.kept :=
  ⟨_, rfl, runOrder_kept _ _ _ _ _ (by
    split
    · split
      · exact logReadError_kept _ _ _ ‹_›
      · rfl
    · rfl)⟩

theorem execReadCert_kept (o : Order) (s : State) : ∃ t, execReadCert o s = .next t ∧ t.kept = s.kept :=
  ⟨_, rfl, runOrder_kept _ _ _ _ _ rfl⟩

@[simp] theorem applyTbSet_kept : ∀ (s : State) (b : TbSet), (applyTbSet s b).kept = s.kept := by
  intros; simp [applyTbSet]

theorem execTbSet_kept (o : Order) (s : State) : ∃ t, execTbSet o s = .next t ∧ t.kept = s.kept :=
  ⟨_, rfl, runOrder_kept _ _ _ _ _ (by simp)⟩

theorem execPtpPortSet_kept (o : Order) (s : State) : ∃ t, execPtpPortSet o s = .next t ∧ t.kept = s.kept :=
  ⟨_, rfl, runOrder_kept _ _ _ _ _ (by simp)⟩

theorem execLttSet_kept (o : Order) (s : State) : ∃ t, execLttSet o s = .next t ∧ t.kept = s.kept :=
  ⟨_, rfl, runOrder_kept _ _ _ _ _ rfl⟩

theorem execLogSet_kept (o : Order) (s : State) : ∃ t, execLogSet o s = .next t ∧ t.kept = s.kept :=
  ⟨_, rfl, runOrder_kept _ _ _ _ _ rfl⟩

theorem execLogClose_kept (o : Order) (s : State) : ∃ t, execLogClose o s = .next t ∧ t.kept = s.kept :=
  ⟨_, rfl, runOrder_kept _ _ _ _ _ (by split <;> simp)⟩

theorem execLogRelease_kept (o : Order) (s : State) : ∃ t, execLogRelease o s = .next t ∧ t.kept = s.kept :=
  ⟨_, rfl, runOrder_kept _ _ _ _ _ (by simp)⟩

theorem execRefInQualified_kept (s : State) : ∃ t, execRefInQualified s = .next t ∧ t.kept = s.kept :=
  ⟨_, rfl, by simp⟩

theorem execRefInLost_kept (s : State) : ∃ t, execRefInLost s = .next t ∧ t.kept = s.kept :=
  ⟨_, rfl, by simp⟩

theorem execHoldoverLimit_kept (s : State) : ∃ t, execHoldoverLimit s = .next t ∧ t.kept = s.kept :=
  ⟨_, rfl, by simp⟩

theorem execPpsOutEdge_kept (s : State) : ∃ t, execPpsOutEdge s = .next t ∧ t.kept = s.kept :=
  ⟨_, rfl, by simp⟩

theorem execTbSlewComplete_kept (s : State) : ∃ t, execTbSlewComplete s = .next t ∧ t.kept = s.kept :=
  ⟨_, rfl, by simp⟩

theorem execEvidenceRecordStore_kept (m : DramUse) (s : State) : ∃ t, execEvidenceRecordStore m s = .next t ∧ t.kept =
    s.kept :=
  ⟨_, rfl, by dsimp only; (repeat' split) <;> simp⟩

theorem execBlockCloseTimer_kept (s : State) : ∃ t, execBlockCloseTimer s = .next t ∧ t.kept = s.kept :=
  ⟨_, rfl, by (repeat' split) <;> simp⟩

@[simp] theorem finishReads_kept : ∀ (l : List Running) (s : State) (n : Nat) (bs : List Byte),
    (finishReads l s n bs).kept = s.kept
  | [], _, _, _ => rfl
  | r :: rs, s, n, bs => by
    unfold finishReads; split
    · rw [finishReads_kept rs]; split
      · rw [finishOrder_kept]; exact logReadError_kept _ _ _ ‹_›
      · simp
    · exact finishReads_kept rs _ _ _

@[simp] theorem signBlock_kept (s : State) (p : Block → Bool) : (signBlock s p).kept = s.kept := by
  unfold signBlock; split
  · rfl
  · simp

theorem execBlockSigned_kept (s : State) : ∃ t, execBlockSigned s = .next t ∧ t.kept = s.kept :=
  ⟨_, rfl, by simp⟩

theorem execHaltBlockSigned_kept (s : State) : ∃ t, execHaltBlockSigned s = .next t ∧ t.kept = s.kept :=
  ⟨_, rfl, by simp⟩

end Sys2Proof.Machine
end

