-- ==== Sys2Proof/Laws/KeptModes.lean ====
section
/-! SUPPORT. What Machine/Modes.lean keeps: no definition of it changes the ownership registers or the queue of commands. -/

namespace Sys2Proof.Machine
open State

theorem execReadStart_kept (o : Order) (s : State) : ∃ t, execReadStart o s = .next t ∧ t.kept = s.kept :=
  ⟨_, rfl, runOrder_kept _ _ _ _ _ rfl⟩

theorem execStart_kept (o : Order) (s : State) : ∃ t, execStart o s = .next t ∧ t.kept = s.kept :=
  ⟨_, rfl, by (repeat' split) <;> simp⟩

theorem execEnterService_kept (o : Order) (s : State) : ∃ t, execEnterService o s = .next t ∧ t.kept = s.kept :=
  ⟨_, rfl, runOrder_kept _ _ _ _ _ (by simp)⟩

theorem execEnterProbe_kept (o : Order) (s : State) : ∃ t, execEnterProbe o s = .next t ∧ t.kept = s.kept :=
  ⟨_, rfl, runOrder_kept _ _ _ _ _ (by simp)⟩

@[simp] theorem endStart_kept : ∀ (s : State) (own joined : Nat), (endStart s own joined).kept = s.kept := by
  intros; simp [endStart]

@[simp] theorem beginPending_kept : ∀ (s : State), (beginPending s).kept = s.kept := by
  intros; simp [beginPending]

@[simp] theorem failStart_kept : ∀ (s : State) (detail : Nat), (failStart s detail).kept = s.kept := by
  intros; simp [failStart]

@[simp] theorem finishStart_kept : ∀ (s : State), (finishStart s).kept = s.kept := by
  intros; simp [finishStart]

@[simp] theorem recalLane_kept : ∀ (s : State) (p : Nat), (recalLane s p).kept = s.kept := by
  intros; simp [recalLane]

@[simp] theorem laneWork_kept : ∀ (s : State) (cals : List (Nat × LaneCal)), (laneWork s cals).kept = s.kept := by
  intros; simp [laneWork]

@[simp] theorem stepBegins_kept : ∀ (s : State) (n : Nat), (stepBegins s n).kept = s.kept := by
  intros; simp [stepBegins]

@[simp] theorem mandrelFailed_kept (s : State) (k : Nat) (sig : BitVec 32) : (mandrelFailed s k sig).kept = s.kept :=
    by
  simp [mandrelFailed]

@[simp] theorem stepEnds_kept (s : State) (n : Nat) (test : SelfTest) : (stepEnds s n test).kept = s.kept := by
  unfold stepEnds; (repeat' split) <;> simp

@[simp] theorem sequenceStep_kept (s : State) (fail : Option Nat) (test : SelfTest) : (sequenceStep s fail test).kept
    = s.kept := by
  unfold sequenceStep; (repeat' split) <;> simp

theorem execStartStepDone_kept (lanes : Bool) (fail : Option Nat) (cals : List (Nat × LaneCal)) (test : SelfTest) (s :
    State) : ∃ t, execStartStepDone lanes fail cals test s = .next t ∧ t.kept = s.kept :=
  ⟨_, rfl, by simp⟩

@[simp] theorem darkLanes_kept : ∀ (s : State), (darkLanes s).kept = s.kept := by
  intros; rfl

theorem execHaltEntryDone_kept (s : State) : ∃ t, execHaltEntryDone s = .next t ∧ t.kept = s.kept :=
  ⟨_, rfl, by simp⟩

theorem execDramSelfRefresh_kept (s : State) : ∃ t, execDramSelfRefresh s = .next t ∧ t.kept = s.kept :=
  ⟨_, rfl, by simp⟩

theorem execHaltRailsRestored_kept (s : State) : ∃ t, execHaltRailsRestored s = .next t ∧ t.kept = s.kept :=
  ⟨_, rfl, by (repeat' split) <;> simp⟩

@[simp] theorem railsOff_kept (s : State) : (railsOff s).kept = s.kept := rfl

@[simp] theorem postHot_kept : ∀ (s : State), (postHot s).kept = s.kept := by
  intros; simp [postHot]

@[simp] theorem toDormant_kept (s : State) : (toDormant s).kept = s.kept := by
  unfold toDormant; dsimp only; (repeat' split) <;> simp

@[simp] theorem setLatch_kept : ∀ (s : State) (src : Nat) (chatter : Bool), (setLatch s src chatter).kept = s.kept :=
    by
  intros; simp [setLatch]

@[simp] theorem conditions_kept (s t : State) : (conditions s t).kept = t.kept := by
  unfold conditions; dsimp only; (repeat' split) <;> simp

theorem execPowerConditionsHeld_kept (s : State) : ∃ t, execPowerConditionsHeld s = .next t ∧ t.kept = s.kept :=
  ⟨_, rfl, by (repeat' split) <;> simp⟩

theorem execRailsInRegulation_kept (s : State) : ∃ t, execRailsInRegulation s = .next t ∧ t.kept = s.kept :=
  ⟨_, rfl, by simp⟩

end Sys2Proof.Machine
end

