-- ==== Sys2Proof/Laws/KeptPower.lean ====
section
/-! SUPPORT. What Machine/Power.lean keeps: no definition of it changes the ownership registers or the queue of commands. -/

namespace Sys2Proof.Machine
open State

@[simp] theorem fatalRecord_kept : ∀ (s : State) (cls unit detail : Nat), (fatalRecord s cls unit detail).kept =
    s.kept
    := by
  intros; simp [fatalRecord]

@[simp] theorem fatalError_kept : ∀ (s : State) (cls unit detail : Nat), (fatalError s cls unit detail).kept = s.kept
    := by
  intros; simp [fatalError]

@[simp] theorem setPower_kept : ∀ (s : State) (f : PwrSt → PwrSt), (setPower s f).kept = s.kept := by
  intros; unfold setPower; dsimp only; (repeat' split) <;> (try dsimp only) <;> simp

@[simp] theorem postPhase_kept (s : State) (old : Nat) (tp : Nat) (scheduled : Bool) : (postPhase s old tp
    scheduled).kept = s.kept := by
  simp [postPhase]

@[simp] theorem enforcePhase_kept : ∀ (s : State) (n : Nat) (ph : Phase), (enforcePhase s n ph).kept = s.kept := by
  intros; simp [enforcePhase]

theorem execReadPhase_kept (o : Order) (s : State) : ∃ t, execReadPhase o s = .next t ∧ t.kept = s.kept :=
  ⟨_, rfl, runOrder_kept _ _ _ _ _ rfl⟩

theorem execPhaseSet_kept (o : Order) (s : State) : ∃ t, execPhaseSet o s = .next t ∧ t.kept = s.kept :=
  ⟨_, rfl, runOrder_kept _ _ _ _ _ (by simp)⟩

theorem execPhaseSelect_kept (o : Order) (s : State) : ∃ t, execPhaseSelect o s = .next t ∧ t.kept = s.kept :=
  ⟨_, rfl, runOrder_kept _ _ _ _ _ rfl⟩

theorem execPhaseCancel_kept (o : Order) (s : State) : ∃ t, execPhaseCancel o s = .next t ∧ t.kept = s.kept :=
  ⟨_, rfl, runOrder_kept _ _ _ _ _ rfl⟩

theorem execPowerSet_kept (o : Order) (s : State) : ∃ t, execPowerSet o s = .next t ∧ t.kept = s.kept :=
  ⟨_, rfl, runOrder_kept _ _ _ _ _ rfl⟩

@[simp] theorem phaseTakes_kept (s : State) : (phaseTakes s).kept = s.kept := by
  unfold phaseTakes; (repeat' split) <;> simp

theorem execPhaseTakesEffect_kept (s : State) : ∃ t, execPhaseTakesEffect s = .next t ∧ t.kept = s.kept :=
  ⟨_, rfl, by (repeat' split) <;> simp⟩

theorem execOppChangeDone_kept (s : State) : ∃ t, execOppChangeDone s = .next t ∧ t.kept = s.kept :=
  ⟨_, rfl, by simp⟩

theorem execReadPower_kept (o : Order) (s : State) : ∃ t, execReadPower o s = .next t ∧ t.kept = s.kept :=
  ⟨_, rfl, runOrder_kept _ _ _ _ _ rfl⟩

theorem execReadThermal_kept (o : Order) (s : State) : ∃ t, execReadThermal o s = .next t ∧ t.kept = s.kept :=
  ⟨_, rfl, runOrder_kept _ _ _ _ _ rfl⟩

theorem execPowerControlTick_kept (vin : Nat) (inputW : Nat) (loadW : Nat) (demand : List Nat) (floors : List Nat)
    (rails : List Nat) (s : State) : ∃ t, execPowerControlTick vin inputW loadW demand floors rails s = .next t ∧
    t.kept = s.kept :=
  ⟨_, rfl, by simp⟩

theorem execSlopeTick_kept (want : Nat) (s : State) : ∃ t, execSlopeTick want s = .next t ∧ t.kept = s.kept :=
  ⟨_, rfl, by simp⟩

theorem execPrerampRequest_kept (s : State) : ∃ t, execPrerampRequest s = .next t ∧ t.kept = s.kept :=
  ⟨_, rfl, by (repeat' split) <;> simp⟩

theorem execRampComplete_kept (n : Nat) (s : State) : ∃ t, execRampComplete n s = .next t ∧ t.kept = s.kept :=
  ⟨_, rfl, by simp⟩

theorem execRailLimitExceeded_kept (j : Nat) (current : Nat) (held : Bool) (s : State) : ∃ t, execRailLimitExceeded j
    current held s = .next t ∧ t.kept = s.kept :=
  ⟨_, rfl, by simp⟩

theorem execTempSample_kept (temps : List Int) (s : State) : ∃ t, execTempSample temps s = .next t ∧ t.kept = s.kept
    :=
  ⟨_, rfl, by simp⟩

theorem execThermalCapStep_kept (s : State) : ∃ t, execThermalCapStep s = .next t ∧ t.kept = s.kept :=
  ⟨_, rfl, by simp⟩

theorem execCrittempTrip_kept (s : State) : ∃ t, execCrittempTrip s = .next t ∧ t.kept = s.kept :=
  ⟨_, rfl, by simp⟩

end Sys2Proof.Machine
end

