-- ==== Sys2Proof/Laws/KeptRegRead.lean ====
section
/-! SUPPORT. What Machine/RegRead.lean keeps: no definition of it changes the ownership registers or the queue of commands. -/

namespace Sys2Proof.Machine
open State

@[simp] theorem regSide_kept (s : State) (m : Master) (off : Nat) : (regSide s m off).kept = s.kept := by
  simp [regSide]

@[simp] theorem readOut_kept (s : State) (m : Master) (off : Nat) (v : Nat) : (readOut s m off v).kept = s.kept := rfl

@[simp] theorem readWord_kept (s : State) (m : Master) (off : Nat) : (readWord s m off).kept = s.kept := by
  simp [readWord]

@[simp] theorem readWords_kept (s : State) (m : Master) (a2 : Nat) (a3 : Nat) : (readWords s m a2 a3).kept = s.kept :=
    by
  fun_induction readWords <;> simp_all

@[simp] theorem busRead_kept (s : State) (m : Master) (off : Nat) (a : RegAcc) : (busRead s m off a).kept = s.kept :=
    by
  unfold busRead; (repeat' split) <;> simp

end Sys2Proof.Machine
end

