-- ==== Sys2Proof/Laws/KeptRings.lean ====
section
/-! SUPPORT. What Machine/Rings.lean keeps: no definition of it changes the ownership registers or the queue of commands. -/

namespace Sys2Proof.Machine
open State

@[simp] theorem spaceReturned_kept (s : State) (m : Master) (n : Nat) (type : Nat) : (spaceReturned s m n type).kept =
    s.kept := by
  simp [spaceReturned]

@[simp] theorem doorbell_kept : ∀ (s : State) (m : Master) (groupOk : Bool) (v : Nat), (doorbell s m groupOk v).kept =
    s.kept := by
  intros; simp [doorbell]

theorem execDoorbellWrite_kept (m : Master) (page : Nat) (v : BitVec 64) (wide : Bool) (s : State) : ∃ t,
    execDoorbellWrite m page v wide s = .next t ∧ t.kept = s.kept :=
  ⟨_, rfl, by simp⟩

theorem execM0Doorbell_kept (v : Word) (s : State) : ∃ t, execM0Doorbell v s = .next t ∧ t.kept = s.kept :=
  ⟨_, rfl, by simp⟩

@[simp] theorem ringCtrlWrite_kept : ∀ (s : State) (m : Master) (n : Nat) (v : Word), (ringCtrlWrite s m n v).kept =
    s.kept := by
  intros; simp [ringCtrlWrite]

theorem execRingCtrlWrite_kept (m : Master) (n : Nat) (v : Word) (s : State) : ∃ t, execRingCtrlWrite m n v s = .next
    t
    ∧ t.kept = s.kept :=
  ⟨_, rfl, by simp⟩

theorem execRingFault_kept (m : Master) (n : Nat) (s : State) : ∃ t, execRingFault m n s = .next t ∧ t.kept = s.kept
    :=
  ⟨_, rfl, by simp⟩

theorem execMsixModerationTimer_kept (m : Master) (v : Nat) (s : State) : ∃ t, execMsixModerationTimer m v s = .next t
    ∧ t.kept = s.kept :=
  ⟨_, rfl, by (repeat' split) <;> simp⟩

theorem execPortInfoRead_kept (m : Master) (a : RegAcc) (s : State) : ∃ t, execPortInfoRead m a s = .next t ∧ t.kept =
    s.kept :=
  ⟨_, rfl, by simp⟩

theorem execRingStatusRead_kept (m : Master) (n : Nat) (a : RegAcc) (s : State) : ∃ t, execRingStatusRead m n a s =
    .next t ∧ t.kept = s.kept :=
  ⟨_, rfl, by simp⟩

theorem execFpActive0Read_kept (m : Master) (a : RegAcc) (s : State) : ∃ t, execFpActive0Read m a s = .next t ∧ t.kept
    = s.kept :=
  ⟨_, rfl, by simp⟩

theorem execFpCommit0Read_kept (m : Master) (a : RegAcc) (s : State) : ∃ t, execFpCommit0Read m a s = .next t ∧ t.kept
    = s.kept :=
  ⟨_, rfl, by simp⟩

theorem execDtSnap0Read_kept (m : Master) (a : RegAcc) (s : State) : ∃ t, execDtSnap0Read m a s = .next t ∧ t.kept =
    s.kept :=
  ⟨_, rfl, by simp⟩

@[simp] theorem portReset_kept (s : State) (m : Master) (perst : Bool) : (portReset s m perst).kept = s.kept := by
  simp [portReset]

theorem execPerstNAssert_kept (m : Master) (s : State) : ∃ t, execPerstNAssert m s = .next t ∧ t.kept = s.kept :=
  ⟨_, rfl, by simp⟩

theorem execPcieLinkDown_kept (m : Master) (s : State) : ∃ t, execPcieLinkDown m s = .next t ∧ t.kept = s.kept :=
  ⟨_, rfl, by simp⟩

theorem execPcieLinkUp_kept (m : Master) (rate : Nat) (width : Nat) (s : State) : ∃ t, execPcieLinkUp m rate width s =
    .next t ∧ t.kept = s.kept :=
  ⟨_, rfl, by simp⟩

@[simp] theorem pendingMsix_kept (s : State) (m : Master) : (pendingMsix s m).kept = s.kept := by
  simp [pendingMsix]

@[simp] theorem setCfg_kept (s : State) (m : Master) (bme : Bool) (c : CfgSpace) : (setCfg s m bme c).kept = s.kept :=
    by
  simp [setCfg]

theorem execBusMasterEnableSet_kept (m : Master) (c : CfgSpace) (s : State) : ∃ t, execBusMasterEnableSet m c s =
    .next t ∧ t.kept = s.kept :=
  ⟨_, rfl, by simp⟩

theorem execBusMasterEnableClear_kept (m : Master) (c : CfgSpace) (s : State) : ∃ t, execBusMasterEnableClear m c s =
    .next t ∧ t.kept = s.kept :=
  ⟨_, rfl, by simp⟩

theorem execEntdaa_kept (a : BitVec 7) (s : State) : ∃ t, execEntdaa a s = .next t ∧ t.kept = s.kept :=
  ⟨_, rfl, by simp⟩

theorem execSetdasa_kept (target : BitVec 7) (a : BitVec 7) (s : State) : ∃ t, execSetdasa target a s = .next t ∧
    t.kept = s.kept :=
  ⟨_, rfl, by simp⟩

theorem execRstdaa_kept (s : State) : ∃ t, execRstdaa s = .next t ∧ t.kept = s.kept :=
  ⟨_, rfl, by simp⟩

@[simp] theorem m0Answer_kept : ∀ (s : State) (v : Nat), (m0Answer s v).kept = s.kept := by
  intros; simp [m0Answer]

theorem execGetpid_kept (s : State) : ∃ t, execGetpid s = .next t ∧ t.kept = s.kept :=
  ⟨_, rfl, by simp⟩

theorem execGetbcr_kept (s : State) : ∃ t, execGetbcr s = .next t ∧ t.kept = s.kept :=
  ⟨_, rfl, by simp⟩

theorem execGetdcr_kept (s : State) : ∃ t, execGetdcr s = .next t ∧ t.kept = s.kept :=
  ⟨_, rfl, by simp⟩

theorem execGetstatus_kept (s : State) : ∃ t, execGetstatus s = .next t ∧ t.kept = s.kept :=
  ⟨_, rfl, by simp⟩

theorem execEnec_kept (s : State) : ∃ t, execEnec s = .next t ∧ t.kept = s.kept :=
  ⟨_, rfl, by simp⟩

theorem execDisec_kept (s : State) : ∃ t, execDisec s = .next t ∧ t.kept = s.kept :=
  ⟨_, rfl, by simp⟩

end Sys2Proof.Machine
end

