-- ==== Sys2Proof/Laws/KeptRivel.lean ====
section
/-! SUPPORT. What Machine/Rivel.lean keeps: no definition of it changes the ownership registers or the queue of commands. -/

namespace Sys2Proof.Machine
open State

@[simp] theorem updIn_kept : ∀ (s : State) (i : Nat) (f : RivelIn → RivelIn), (updIn s i f).kept = s.kept := by
  intros; rfl

@[simp] theorem inFault_kept : ∀ (s : State) (i : Nat) (chatter : Bool), (inFault s i chatter).kept = s.kept := by
  intros; rfl

@[simp] theorem inClean_kept : ∀ (s : State) (i : Nat), (inClean s i).kept = s.kept := by
  intros; rfl

@[simp] theorem trayFault_kept : ∀ (s : State) (i : Nat) (chatter : Bool), (trayFault s i chatter).kept = s.kept := by
  intros; simp [trayFault]

theorem execFlowfailFault_kept (chatter : Bool) (s : State) : ∃ t, execFlowfailFault chatter s = .next t ∧ t.kept =
    s.kept :=
  ⟨_, rfl, by simp⟩

theorem execTraystopFault_kept (chatter : Bool) (s : State) : ∃ t, execTraystopFault chatter s = .next t ∧ t.kept =
    s.kept :=
  ⟨_, rfl, by simp⟩

theorem execPwrgoodLost_kept (chatter : Bool) (s : State) : ∃ t, execPwrgoodLost chatter s = .next t ∧ t.kept = s.kept
    :=
  ⟨_, rfl, by dsimp only; (repeat' split) <;> simp⟩

theorem execRivelInputUnfaulted_kept (i : Nat) (s : State) : ∃ t, execRivelInputUnfaulted i s = .next t ∧ t.kept =
    s.kept :=
  ⟨_, rfl, by simp⟩

theorem execChatterEnd_kept (i : Nat) (faulted : Bool) (s : State) : ∃ t, execChatterEnd i faulted s = .next t ∧
    t.kept
    = s.kept :=
  ⟨_, rfl, by simp⟩

theorem execV48InputLost_kept (cv : Nat) (s : State) : ∃ t, execV48InputLost cv s = .next t ∧ t.kept = s.kept :=
  ⟨_, rfl, by split <;> simp⟩

theorem execV48InputInRange_kept (cv : Nat) (s : State) : ∃ t, execV48InputInRange cv s = .next t ∧ t.kept = s.kept :=
  ⟨_, rfl, by simp⟩

@[simp] theorem postCleared_kept : ∀ (s : State) (src : Nat), (postCleared s src).kept = s.kept := by
  intros; simp [postCleared]

@[simp] theorem afterClear_kept (s t : State) (n : Nat) : (afterClear s t n).kept = t.kept := by
  unfold afterClear; simp

@[simp] theorem clearTray_kept : ∀ (s : State) (i : Nat), (clearTray s i).kept = s.kept := by
  intros; simp [clearTray]

@[simp] theorem clearCrit_kept : ∀ (s : State), (clearCrit s).kept = s.kept := by
  intros; simp [clearCrit]

@[simp] theorem clearPwrLost_kept : ∀ (s : State), (clearPwrLost s).kept = s.kept := by
  intros; simp [clearPwrLost]

@[simp] theorem postAdvisory_kept : ∀ (s : State) (cause : Nat) (raised : Bool), (postAdvisory s cause raised).kept =
    s.kept := by
  intros; simp [postAdvisory]

@[simp] theorem clearBusFault_kept : ∀ (s : State), (clearBusFault s).kept = s.kept := by
  intros; simp [clearBusFault]

@[simp] theorem clearFatal_kept : ∀ (s : State), (clearFatal s).kept = s.kept := by
  intros; simp [clearFatal]

theorem ownerWrite_kept (s : State) (m : Master) (f : State → State) (h : (f s).kept = s.kept) :
    (ownerWrite s m f).kept = s.kept := by
  unfold ownerWrite; (repeat' split) <;> simp [h]

theorem execFlowLatchClear_kept (m : Master) (s : State) : ∃ t, execFlowLatchClear m s = .next t ∧ t.kept = s.kept :=
  ⟨_, rfl, ownerWrite_kept _ _ _ (by simp)⟩

theorem execTraystopLatchClear_kept (m : Master) (s : State) : ∃ t, execTraystopLatchClear m s = .next t ∧ t.kept =
    s.kept :=
  ⟨_, rfl, ownerWrite_kept _ _ _ (by simp)⟩

theorem execCrittempLatchClear_kept (m : Master) (s : State) : ∃ t, execCrittempLatchClear m s = .next t ∧ t.kept =
    s.kept :=
  ⟨_, rfl, ownerWrite_kept _ _ _ (by simp)⟩

theorem execTrayBusFaultClear_kept (m : Master) (s : State) : ∃ t, execTrayBusFaultClear m s = .next t ∧ t.kept =
    s.kept :=
  ⟨_, rfl, ownerWrite_kept _ _ _ (by simp)⟩

theorem execFatalLatchClear_kept (m : Master) (s : State) : ∃ t, execFatalLatchClear m s = .next t ∧ t.kept = s.kept
    :=
  ⟨_, rfl, ownerWrite_kept _ _ _ (by simp)⟩

theorem execTraySetdasa_kept (target : BitVec 7) (a : BitVec 7) (s : State) : ∃ t, execTraySetdasa target a s = .next
    t
    ∧ t.kept = s.kept :=
  ⟨_, rfl, by simp⟩

theorem execTrayEntdaa_kept (a : BitVec 7) (s : State) : ∃ t, execTrayEntdaa a s = .next t ∧ t.kept = s.kept :=
  ⟨_, rfl, by simp⟩

theorem execTrayRstdaa_kept (s : State) : ∃ t, execTrayRstdaa s = .next t ∧ t.kept = s.kept :=
  ⟨_, rfl, by simp⟩

@[simp] theorem trayAnswer_kept : ∀ (s : State) (v : Nat), (trayAnswer s v).kept = s.kept := by
  intros; simp [trayAnswer]

theorem execTrayGetpid_kept (s : State) : ∃ t, execTrayGetpid s = .next t ∧ t.kept = s.kept :=
  ⟨_, rfl, by simp⟩

theorem execTrayGetstatus_kept (s : State) : ∃ t, execTrayGetstatus s = .next t ∧ t.kept = s.kept :=
  ⟨_, rfl, by simp⟩

theorem execTrayEnec_kept (s : State) : ∃ t, execTrayEnec s = .next t ∧ t.kept = s.kept :=
  ⟨_, rfl, by simp⟩

theorem execTrayDisec_kept (s : State) : ∃ t, execTrayDisec s = .next t ∧ t.kept = s.kept :=
  ⟨_, rfl, by simp⟩

@[simp] theorem heartbeat_kept : ∀ (s : State) (v : Byte), (heartbeat s v).kept = s.kept := by
  intros; simp [heartbeat]

@[simp] theorem trayByte_kept : ∀ (s : State) (i : Nat) (b : Byte), (trayByte s i b).kept = s.kept := by
  intros; unfold trayByte; (repeat' split) <;> simp

@[simp] theorem trayBytes_kept : ∀ (a : State) (a_1 : Nat) (a_2 : List Byte), (trayBytes a a_1 a_2).kept = a.kept :=
    by
  intros
  first
    | (fun_induction trayBytes <;> simp_all; done)
    | (fun_induction trayBytes <;> (try dsimp only) <;> (repeat' split) <;> simp_all; done)

@[simp] theorem trayRead_kept (s : State) (n : Nat) : (trayRead s n).kept = s.kept := by
  simp [trayRead]

theorem execTrayRegisterWrite_kept (index : Byte) (data : List Byte) (reads : Nat) (s : State) : ∃ t,
    execTrayRegisterWrite index data reads s = .next t ∧ t.kept = s.kept :=
  ⟨_, rfl, by simp⟩

theorem execHeartbeat_kept (v : Byte) (s : State) : ∃ t, execHeartbeat v s = .next t ∧ t.kept = s.kept :=
  ⟨_, rfl, by simp⟩

theorem execTrayBusFault_kept (s : State) : ∃ t, execTrayBusFault s = .next t ∧ t.kept = s.kept :=
  ⟨_, rfl, by simp⟩

theorem execTrayAdvisory_kept (cause : Nat) (s : State) : ∃ t, execTrayAdvisory cause s = .next t ∧ t.kept = s.kept :=
  ⟨_, rfl, by (repeat' split) <;> simp⟩

end Sys2Proof.Machine
end

