-- ==== Sys2Proof/Laws/KeptErrors.lean ====
section
/-! SUPPORT. What Machine/Errors.lean keeps: no definition of it changes the ownership registers or the queue of commands. -/

namespace Sys2Proof.Machine
open State

theorem execReadErrors_kept (o : Order) (s : State) : ∃ t, execReadErrors o s = .next t ∧ t.kept = s.kept :=
  ⟨_, rfl, runOrder_kept _ _ _ _ _ rfl⟩

theorem execReadFatal_kept (o : Order) (s : State) : ∃ t, execReadFatal o s = .next t ∧ t.kept = s.kept :=
  ⟨_, rfl, runOrder_kept _ _ _ _ _ rfl⟩

theorem execErrClose_kept (o : Order) (s : State) : ∃ t, execErrClose o s = .next t ∧ t.kept = s.kept :=
  ⟨_, rfl, runOrder_kept _ _ _ _ _ (by simp)⟩

theorem execCuIsolate_kept (o : Order) (s : State) : ∃ t, execCuIsolate o s = .next t ∧ t.kept = s.kept :=
  ⟨_, rfl, runOrder_kept _ _ _ _ _ (by simp)⟩

theorem execCuRestore_kept (o : Order) (s : State) : ∃ t, execCuRestore o s = .next t ∧ t.kept = s.kept :=
  ⟨_, rfl, runOrder_kept _ _ _ _ _ rfl⟩

@[simp] theorem endIsolationMove_kept : ∀ (s : State) (n : Nat), (endIsolationMove s n).kept = s.kept := by
  intros; unfold endIsolationMove; dsimp only; (repeat' split) <;> (try dsimp only) <;> simp

theorem execCuIsolationDone_kept (u : Nat) (s : State) : ∃ t, execCuIsolationDone u s = .next t ∧ t.kept = s.kept :=
  ⟨_, rfl, by dsimp only; (repeat' split) <;> simp⟩

theorem execCuRestoreDone_kept (u : Nat) (ok : Bool) (s : State) : ∃ t, execCuRestoreDone u ok s = .next t ∧ t.kept =
    s.kept :=
  ⟨_, rfl, by simp⟩

theorem execCuMemoryError_kept (u : Nat) (addr : Nat) (s : State) : ∃ t, execCuMemoryError u addr s = .next t ∧ t.kept
    = s.kept :=
  ⟨_, rfl, by simp⟩

theorem execMcheckLogicMismatch_kept (unit : Nat) (s : State) : ∃ t, execMcheckLogicMismatch unit s = .next t ∧ t.kept
    = s.kept :=
  ⟨_, rfl, by simp⟩

theorem execRecordStoreParity_kept (group : Nat) (slot : Nat) (s : State) : ∃ t, execRecordStoreParity group slot s =
    .next t ∧ t.kept = s.kept :=
  ⟨_, rfl, by simp⟩

theorem execIslandClockLoss_kept (island : Nat) (pll : Bool) (s : State) : ∃ t, execIslandClockLoss island pll s =
    .next t ∧ t.kept = s.kept :=
  ⟨_, rfl, by simp⟩

end Sys2Proof.Machine
end

