-- ==== Sys2Proof/Laws/KeptGroups.lean ====
section
/-! SUPPORT. What Machine/Groups.lean keeps: no definition of it changes the ownership registers or the queue of commands. -/

namespace Sys2Proof.Machine
open State

theorem execReadSeq_kept (o : Order) (s : State) : ∃ t, execReadSeq o s = .next t ∧ t.kept = s.kept :=
  ⟨_, rfl, runOrder_kept _ _ _ _ _ rfl⟩

theorem execReadFanout_kept (o : Order) (s : State) : ∃ t, execReadFanout o s = .next t ∧ t.kept = s.kept :=
  ⟨_, rfl, runOrder_kept _ _ _ _ _ rfl⟩

theorem execReadGrid_kept (o : Order) (s : State) : ∃ t, execReadGrid o s = .next t ∧ t.kept = s.kept :=
  ⟨_, rfl, runOrder_kept _ _ _ _ _ rfl⟩

theorem execReadGroupConfig_kept (o : Order) (s : State) : ∃ t, execReadGroupConfig o s = .next t ∧ t.kept = s.kept :=
  ⟨_, rfl, runOrder_kept _ _ _ _ _ rfl⟩

theorem execSeqGroupSet_kept (o : Order) (s : State) : ∃ t, execSeqGroupSet o s = .next t ∧ t.kept = s.kept :=
  ⟨_, rfl, runPtr_kept _ _ _ _ _ _ fun _ => by simp⟩

@[simp] theorem seqTakes_kept (s : State) (g : Nat) : (seqTakes s g).kept = s.kept := by
  unfold seqTakes; dsimp only; (repeat' split) <;> simp

theorem execSeqGroupChange_kept (g : Nat) (s : State) : ∃ t, execSeqGroupChange g s = .next t ∧ t.kept = s.kept :=
  ⟨_, rfl, by simp⟩

theorem execSeqPresent_kept (g : Nat) (s : State) : ∃ t, execSeqPresent g s = .next t ∧ t.kept = s.kept :=
  ⟨_, rfl, by dsimp only; (repeat' split) <;> simp⟩

theorem execFanoutGroupSet_kept (o : Order) (s : State) : ∃ t, execFanoutGroupSet o s = .next t ∧ t.kept = s.kept :=
  ⟨_, rfl, runPtr_kept _ _ _ _ _ _ fun _ => by dsimp only; (repeat' split) <;> simp⟩

@[simp] theorem fanLose_kept : ∀ (s : State) (g : Nat) (k : FanPkt) (c : FanCopy) (outcome cause : Nat) (u :
    BilletUpset), (fanLose s g k c outcome cause u).kept = s.kept := by
  intros; simp [fanLose]

theorem execFanoutCopyPrepare_kept (g port : Nat) (crcOk : Bool) (u : BilletUpset) (s : State) :
    ∃ t, execFanoutCopyPrepare g port crcOk u s = .next t ∧ t.kept = s.kept := by
  refine ⟨_, rfl, ?_⟩
  split
  · rfl
  · split
    · rfl
    · split
      · simp
      · dsimp only; split <;> simp

@[simp] theorem fanBegin_kept : ∀ (s : State) (g port : Nat) (k : FanPkt) (c : FanCopy) (bytes : List Byte) (readyDt :
    Nat), (fanBegin s g port k c bytes readyDt).kept = s.kept := by
  intros; simp [fanBegin]

theorem execFanoutCopyRelease_kept (g : Nat) (port : Nat) (u : BilletUpset) (s : State) : ∃ t, execFanoutCopyRelease g
    port u s = .next t ∧ t.kept = s.kept :=
  ⟨_, rfl, by (repeat' split) <;> simp⟩

theorem execFanoutStale_kept (g : Nat) (port : Nat) (u : BilletUpset) (s : State) : ∃ t, execFanoutStale g port u s =
    .next t ∧ t.kept = s.kept :=
  ⟨_, rfl, by (repeat' split) <;> simp⟩

end Sys2Proof.Machine
end

