-- ==== Sys2Proof/Laws/KeptPackets.lean ====
section
/-! SUPPORT. What Machine/Packets.lean keeps: no definition of it changes the ownership registers or the queue of commands. -/

namespace Sys2Proof.Machine
open State

theorem execFrameReceived_kept (n : Nat) (f : List Byte) (k : Nat) (syms : Nat) (marked : Bool) (s : State) : ∃ t,
    execFrameReceived n f k syms marked s = .next t ∧ t.kept = s.kept :=
  ⟨_, rfl, by simp⟩

theorem execPfcFrameReceived_kept (n : Nat) (f : List Byte) (k : Nat) (syms : Nat) (marked : Bool) (s : State) : ∃ t,
    execPfcFrameReceived n f k syms marked s = .next t ∧ t.kept = s.kept :=
  ⟨_, rfl, by simp⟩

theorem execPacketIngress_kept (n : Nat) (s : State) : ∃ t, execPacketIngress n s = .next t ∧ t.kept = s.kept :=
  ⟨_, rfl, by dsimp only; (repeat' split) <;> simp⟩

theorem execPacketStore_kept (req : Nat) (upset : GrantUpset) (s : State) : ∃ t, execPacketStore req upset s = .next t
    ∧ t.kept = s.kept :=
  ⟨_, rfl, by dsimp only; (repeat' split) <;> simp⟩

@[simp] theorem putHostMap_kept : ∀ (s : State) (i : Nat) (h : HostMap), (putHostMap s i h).kept = s.kept := by
  intros; rfl

theorem execReadHostmap_kept (o : Order) (s : State) : ∃ t, execReadHostmap o s = .next t ∧ t.kept = s.kept :=
  ⟨_, rfl, runOrder_kept _ _ _ _ _ rfl⟩

theorem execHostmapSet_kept (o : Order) (s : State) : ∃ t, execHostmapSet o s = .next t ∧ t.kept = s.kept :=
  ⟨_, rfl, runOrder_kept _ _ _ _ _ rfl⟩

@[simp] theorem ringLost_kept : ∀ (s : State) (m : Master) (n : Nat), (ringLost s m n).kept = s.kept := by
  intros; rfl

@[simp] theorem hostWrite_kept : ∀ (s : State) (c : HostCopy) (p : Pkt), (hostWrite s c p).fst.kept = s.kept := by
  intros; unfold hostWrite; dsimp only; (repeat' split) <;> (try dsimp only) <;> simp

theorem execHostSlotWrite_kept (crcOk : Bool) (u : BilletUpset) (s : State) : ∃ t, execHostSlotWrite crcOk u s = .next
    t ∧ t.kept = s.kept :=
  ⟨_, rfl, by dsimp only; (repeat' split) <;> simp⟩

theorem execReadSprayRx_kept (o : Order) (s : State) : ∃ t, execReadSprayRx o s = .next t ∧ t.kept = s.kept :=
  ⟨_, rfl, runOrder_kept _ _ _ _ _ rfl⟩

theorem execSpraySet_kept (o : Order) (s : State) : ∃ t, execSpraySet o s = .next t ∧ t.kept = s.kept :=
  ⟨_, rfl, runOrder_kept _ _ _ _ _ rfl⟩

@[simp] theorem queueMarker_kept : ∀ (g paths epoch : Nat) (s : State) (c : Carried), (queueMarker g paths epoch s
    c).kept = s.kept := by
  intros; simp [queueMarker]

theorem execSprayGroupSet_kept (o : Order) (s : State) : ∃ t, execSprayGroupSet o s = .next t ∧ t.kept = s.kept :=
  ⟨_, rfl, runOrder_kept _ _ _ _ _ (by simp)⟩

theorem execSprayMarkersSent_kept (g : Nat) (s : State) : ∃ t, execSprayMarkersSent g s = .next t ∧ t.kept = s.kept :=
  ⟨_, rfl, by dsimp only; (repeat' split) <;> simp⟩

theorem execSprayRxTimeout_kept (sender : Nat) (flow : Nat) (s : State) : ∃ t, execSprayRxTimeout sender flow s =
    .next
    t ∧ t.kept = s.kept :=
  ⟨_, rfl, by (repeat' split) <;> simp⟩

@[simp] theorem skipAll_kept (n : Nat) (s : State) (c : SprayCtx) : (skipAll n s c).kept = s.kept := by
  induction n generalizing s c with
  | zero => rfl
  | succ n ih => unfold skipAll; dsimp only; split <;> simp [ih]

theorem execSprayContextFree_kept (sender : Nat) (flow : Nat) (s : State) : ∃ t, execSprayContextFree sender flow s =
    .next t ∧ t.kept = s.kept :=
  ⟨_, rfl, by (repeat' split) <;> simp⟩

theorem execSprayDrainMarkerReceived_kept (s : State) : ∃ t, execSprayDrainMarkerReceived s = .next t ∧ t.kept =
    s.kept
    :=
  ⟨_, rfl, by (repeat' split) <;> simp⟩

theorem execSprayDrainLimit_kept (sender : Nat) (group : Nat) (s : State) : ∃ t, execSprayDrainLimit sender group s =
    .next t ∧ t.kept = s.kept :=
  ⟨_, rfl, rfl⟩

theorem execReadMcast_kept (o : Order) (s : State) : ∃ t, execReadMcast o s = .next t ∧ t.kept = s.kept :=
  ⟨_, rfl, runOrder_kept _ _ _ _ _ rfl⟩

theorem execMcastSet_kept (o : Order) (s : State) : ∃ t, execMcastSet o s = .next t ∧ t.kept = s.kept :=
  ⟨_, rfl, runPtr_kept _ _ _ _ _ _ fun _ => by simp⟩

end Sys2Proof.Machine
end

