-- ==== Sys2Proof/Laws/KeptPcs.lean ====
section
/-! SUPPORT. What Machine/Pcs.lean keeps: no definition of it changes the ownership registers or the queue of commands. -/

namespace Sys2Proof.Machine
open State

theorem execReadPcs_kept (o : Order) (s : State) : ∃ t, execReadPcs o s = .next t ∧ t.kept = s.kept :=
  ⟨_, rfl, runOrder_kept _ _ _ _ _ rfl⟩

theorem execReadPm_kept (o : Order) (s : State) : ∃ t, execReadPm o s = .next t ∧ t.kept = s.kept :=
  ⟨_, rfl, runOrder_kept _ _ _ _ _ rfl⟩

theorem execReadNeighbour_kept (o : Order) (s : State) : ∃ t, execReadNeighbour o s = .next t ∧ t.kept = s.kept :=
  ⟨_, rfl, runOrder_kept _ _ _ _ _ rfl⟩

theorem execPcsSet_kept (o : Order) (s : State) : ∃ t, execPcsSet o s = .next t ∧ t.kept = s.kept :=
  ⟨_, rfl, runOrder_kept _ _ _ _ _ (by simp)⟩

theorem execDefectAck_kept (o : Order) (s : State) : ∃ t, execDefectAck o s = .next t ∧ t.kept = s.kept :=
  ⟨_, rfl, runOrder_kept _ _ _ _ _ rfl⟩

theorem emitMarkers_kept (b : BitVec 257) (l : List Nat) (s : State) :
    (l.foldl (fun u q => u.emit (.marker q b)) s).kept = s.kept := by
  apply kept_foldl; intros; rfl

@[simp] theorem sendMarker_kept (s : State) (n : Nat) (p : Nat) : (sendMarker s n p).kept = s.kept := by
  unfold sendMarker; dsimp only; split
  · rw [emitMarkers_kept]
  · simp [emitMarkers_kept]

theorem execMarkerTransmit_kept (p : Nat) (s : State) : ∃ t, execMarkerTransmit p s = .next t ∧ t.kept = s.kept :=
  ⟨_, rfl, by dsimp only; (repeat' split) <;> simp⟩

theorem execFpAdvertise_kept (s : State) : ∃ t, execFpAdvertise s = .next t ∧ t.kept = s.kept :=
  ⟨_, rfl, by simp⟩

theorem execNeighbourStale_kept (n : Nat) (s : State) : ∃ t, execNeighbourStale n s = .next t ∧ t.kept = s.kept :=
  ⟨_, rfl, by simp⟩

@[simp] theorem setSearch_kept (s : State) (p : Nat) (k : Nat) (w : Search) : (setSearch s p k w).kept = s.kept := by
  simp [setSearch]

@[simp] theorem dropLock_kept (s : State) (p : Nat) : (dropLock s p).kept = s.kept := by
  simp [dropLock]

@[simp] theorem deskew_kept (s : State) (n : Nat) (p : Nat) : (deskew s n p).kept = s.kept := by
  unfold deskew; (repeat' split) <;> simp

@[simp] theorem spareMarker_kept (s : State) (e : Nat) (pos : Nat) (sw : Bool) : (spareMarker s e pos sw).kept =
    s.kept := by
  unfold spareMarker; (repeat' split) <;> simp

@[simp] theorem markerTaken_kept (s : State) (n : Nat) (p : Nat) (m : MarkerSeen) : (markerTaken s n p m).kept =
    s.kept := by
  simp [markerTaken]

theorem execMarkerReceived_kept (p : Nat) (m : MarkerSeen) (s : State) : ∃ t, execMarkerReceived p m s = .next t ∧
    t.kept = s.kept :=
  ⟨_, rfl, by (repeat' split) <;> simp⟩

theorem execMarkerPositionMiss_kept (p : Nat) (k : Nat) (pos : Nat) (s : State) : ∃ t, execMarkerPositionMiss p k pos
    s = .next t ∧ t.kept = s.kept :=
  ⟨_, rfl, by (repeat' split) <;> simp⟩

@[simp] theorem takeSlot_kept : ∀ (s : State) (n slot : Nat), (takeSlot s n slot).kept = s.kept := by
  intros; rfl

@[simp] theorem serveSpare_kept (s : State) (e : Nat) (pl : Nat) (pos : Nat) (seq : Nat) (revert : Bool) : (serveSpare
    s e pl pos seq revert).kept = s.kept := rfl

@[simp] theorem spareRequest_kept : ∀ (s : State) (e n pos seq : Nat) (revert : Bool), (spareRequest s e n pos seq
    revert).kept = s.kept := by
  intros; unfold spareRequest; dsimp only; (repeat' split) <;> (try dsimp only) <;> simp

@[simp] theorem takeSpareMsg_kept : ∀ (s : State) (n msg : Nat), (takeSpareMsg s n msg).kept = s.kept := by
  intros; unfold takeSpareMsg; dsimp only; (repeat' split) <;> (try dsimp only) <;> simp

theorem execLinkIdleStructReceived_kept (n : Nat) (k : Nat) (v : BitVec 1024) (s : State) : ∃ t,
    execLinkIdleStructReceived n k v s = .next t ∧ t.kept = s.kept :=
  ⟨_, rfl, by simp⟩

@[simp] theorem laneFault_kept (s : State) (p : Nat) (src : Nat) (power : Int) : (laneFault s p src power).kept =
    s.kept := by
  simp [laneFault]

theorem execLocalFaultOnset_kept (n : Nat) (src : Nat) (k : Nat) (power : Int) (s : State) : ∃ t, execLocalFaultOnset
    n src k power s = .next t ∧ t.kept = s.kept :=
  ⟨_, rfl, by (repeat' split) <;> simp⟩

@[simp] theorem lanesBack_kept (s : State) (n : Nat) (gone : BitVec 4) (power : Int) :
    (lanesBack s n gone power).kept = s.kept := by
  unfold lanesBack; apply kept_foldl; intros; rfl

@[simp] theorem endedAgo_kept (s : State) (t : State) (n : Nat) (ago : Nat) : (endedAgo s t n ago).kept = t.kept := by
  simp [endedAgo]

theorem execLocalFaultEnd_kept (n : Nat) (gone : BitVec 4) (power : Int) (ago : Nat) (s : State) : ∃ t,
    execLocalFaultEnd n gone power ago s = .next t ∧ t.kept = s.kept :=
  ⟨_, rfl, by simp⟩

theorem execRemoteFaultReceived_kept (n : Nat) (s : State) : ∃ t, execRemoteFaultReceived n s = .next t ∧ t.kept =
    s.kept :=
  ⟨_, rfl, by simp⟩

theorem execRemoteFaultEnd_kept (n : Nat) (s : State) : ∃ t, execRemoteFaultEnd n s = .next t ∧ t.kept = s.kept :=
  ⟨_, rfl, by simp⟩

@[simp] theorem lolUnspared_kept (s : State) (n : Nat) : (lolUnspared s n).kept = s.kept := by
  simp [lolUnspared]

theorem execDefect_kept (n : Nat) (b : Nat) (on : Bool) (s : State) : ∃ t, execDefect n b on s = .next t ∧ t.kept =
    s.kept :=
  ⟨_, rfl, by simp⟩

theorem execHiserWindowEnd_kept (n : Nat) (errs : Nat) (s : State) : ∃ t, execHiserWindowEnd n errs s = .next t ∧
    t.kept = s.kept :=
  ⟨_, rfl, by simp⟩

@[simp] theorem serLane_kept : ∀ (s : State) (p : Nat) (c : Nat × Nat × Nat), (serLane s p c).kept = s.kept := by
  intros; simp [serLane]

theorem execSerMsTick_kept (n : Nat) (c : MsCounts) (s : State) : ∃ t, execSerMsTick n c s = .next t ∧ t.kept = s.kept
    :=
  ⟨_, rfl, by simp⟩

@[simp] theorem secondPort_kept : ∀ (n : Nat) (s : State) (p : Nat), (secondPort n s p).kept = s.kept := by
  intros; unfold secondPort; dsimp only; (repeat' split) <;> (try dsimp only) <;> simp

@[simp] theorem settleSes_kept (s : State) : (settleSes s).kept = s.kept := rfl

theorem execPmSecondEnd_kept (s : State) : ∃ t, execPmSecondEnd s = .next t ∧ t.kept = s.kept :=
  ⟨_, rfl, by simp⟩

theorem execBinFinal_kept (s : State) : ∃ t, execBinFinal s = .next t ∧ t.kept = s.kept :=
  ⟨_, rfl, by dsimp only; apply kept_foldl; intros; rfl⟩

end Sys2Proof.Machine
end

