-- ==== Sys2Proof/Laws/KeptPins.lean ====
section
/-! SUPPORT. What Machine/Pins.lean keeps: no definition of it changes the ownership registers or the queue of commands. -/

namespace Sys2Proof.Machine
open State

@[simp] theorem inAtPower_kept : ∀ (s : State) (i : Nat) (bad : Bool), (inAtPower s i bad).kept = s.kept := by
  intros; simp [inAtPower]

@[simp] theorem busReset_kept (s : State) : (busReset s).kept = s.kept := by
  simp [busReset]

@[simp] theorem strapPorts_kept (s : State) : (strapPorts s).kept = s.kept := by
  simp [strapPorts]

theorem execSysresetDeassert_kept (straps : BitVec 4) (s : State) : ∃ t, execSysresetDeassert straps s = .next t ∧
    t.kept = s.kept :=
  ⟨_, rfl, by simp⟩

@[simp] theorem setTap_kept : ∀ (s : State) (i : TapInstr), (setTap s i).kept = s.kept := by
  intros; simp [setTap]

theorem execTapReset_kept (s : State) : ∃ t, execTapReset s = .next t ∧ t.kept = s.kept :=
  ⟨_, rfl, by simp⟩

theorem execIdcode_kept (s : State) : ∃ t, execIdcode s = .next t ∧ t.kept = s.kept :=
  ⟨_, rfl, by simp⟩

theorem execBypass_kept (s : State) : ∃ t, execBypass s = .next t ∧ t.kept = s.kept :=
  ⟨_, rfl, by simp⟩

theorem execSamplePreload_kept (sample : List Bool) (load : List Bool) (s : State) : ∃ t, execSamplePreload sample
    load
    s = .next t ∧ t.kept = s.kept :=
  ⟨_, rfl, by simp⟩

theorem execExtest_kept (s : State) : ∃ t, execExtest s = .next t ∧ t.kept = s.kept :=
  ⟨_, rfl, by simp⟩

theorem execClamp_kept (s : State) : ∃ t, execClamp s = .next t ∧ t.kept = s.kept :=
  ⟨_, rfl, by simp⟩

theorem execHighz_kept (s : State) : ∃ t, execHighz s = .next t ∧ t.kept = s.kept :=
  ⟨_, rfl, by simp⟩

theorem execGpioEdgeDetect_kept (i : Nat) (level : Bool) (s : State) : ∃ t, execGpioEdgeDetect i level s = .next t ∧
    t.kept = s.kept :=
  ⟨_, rfl, by simp⟩

end Sys2Proof.Machine
end

