-- ==== Sys2Proof/Laws/KeptRegisters.lean ====
section
/-! SUPPORT. What Machine/Registers.lean keeps: no definition of it changes the ownership registers or the queue of commands. -/

namespace Sys2Proof.Machine
open State

@[simp] theorem laserWrite_kept : ∀ (s : State) (v : Word), (laserWrite s v).kept = s.kept := by
  intros; simp [laserWrite]

@[simp] theorem bootWrite_kept : ∀ (s : State) (v : Word), (bootWrite s v).kept = s.kept := by
  intros; simp [bootWrite]

@[simp] theorem rivelWrite_kept : ∀ (s : State) (v : Word), (rivelWrite s v).kept = s.kept := by
  intros; simp [rivelWrite]

@[simp] theorem msixWrite_kept : ∀ (s : State) (m : Master) (off : Nat) (v : Word), (msixWrite s m off v).kept =
    s.kept
    := by
  intros; unfold msixWrite; (repeat' split) <;> simp

@[simp] theorem ringWrite_kept : ∀ (s : State) (m : Master) (n word : Nat) (v : Word), (ringWrite s m n word v).kept =
    s.kept := by
  intros; unfold ringWrite; (repeat' split) <;> simp

theorem execLaserAlarmClear_kept (m : Master) (v : Word) (s : State) : ∃ t, execLaserAlarmClear m v s = .next t ∧
    t.kept = s.kept :=
  ⟨_, rfl, ownerWrite_kept _ _ _ (by simp)⟩

end Sys2Proof.Machine
end

