-- ==== Sys2Proof/Laws/KeptTelemetry.lean ====
section
/-! SUPPORT. What Machine/Telemetry.lean keeps: no definition of it changes the ownership registers or the queue of commands. -/

namespace Sys2Proof.Machine
open State

theorem execReadPortCounters_kept (o : Order) (s : State) : ∃ t, execReadPortCounters o s = .next t ∧ t.kept = s.kept
    :=
  ⟨_, rfl, runOrder_kept _ _ _ _ _ rfl⟩

theorem execReadSel_kept (o : Order) (s : State) : ∃ t, execReadSel o s = .next t ∧ t.kept = s.kept :=
  ⟨_, rfl, runOrder_kept _ _ _ _ _ (by
    dsimp only; generalize List.range 256 = l; exact kept_foldl _ (fun t _ => drawn_kept t) l s)⟩

@[simp] theorem updSel_kept : ∀ (s : State) (slice i : Nat) (f : SelCtr → SelCtr), (updSel s slice i f).kept = s.kept
    := by
  intros; rfl

@[simp] theorem clearChained_kept (s : State) (slice : Nat) (i : Nat) : (clearChained s slice i).kept = s.kept := by
  simp [clearChained]

theorem execSelSet_kept (o : Order) (s : State) : ∃ t, execSelSet o s = .next t ∧ t.kept = s.kept :=
  ⟨_, rfl, runOrder_kept _ _ _ _ _ (by simp)⟩

theorem execSelCtrl_kept (o : Order) (s : State) : ∃ t, execSelCtrl o s = .next t ∧ t.kept = s.kept :=
  ⟨_, rfl, runOrder_kept _ _ _ _ _ rfl⟩

@[simp] theorem selApply_kept : ∀ (s : State) (w : SelWait), (selApply s w).kept = s.kept := by
  intro s w
  generalize hl : List.range 256 = l
  simp only [selApply, hl]
  (repeat' split) <;> simp [kept_foldl _ (fun t _ => drawn_kept t)]

@[simp] theorem selTakes_kept (s : State) : (selTakes s).kept = s.kept := by
  unfold selTakes; (repeat' split) <;> simp

theorem execSelCtrlInstant_kept (s : State) : ∃ t, execSelCtrlInstant s = .next t ∧ t.kept = s.kept :=
  ⟨_, rfl, by (repeat' split) <;> simp⟩

@[simp] theorem putHist_kept : ∀ (s : State) (i : Nat) (h : Hist), (putHist s i h).kept = s.kept := by
  intros; rfl

@[simp] theorem putSketch_kept : ∀ (s : State) (i : Nat) (k : Sketch), (putSketch s i k).kept = s.kept := by
  intros; rfl

theorem execReadHist_kept (o : Order) (s : State) : ∃ t, execReadHist o s = .next t ∧ t.kept = s.kept :=
  ⟨_, rfl, runOrder_kept _ _ _ _ _ rfl⟩

theorem execReadSketch_kept (o : Order) (s : State) : ∃ t, execReadSketch o s = .next t ∧ t.kept = s.kept :=
  ⟨_, rfl, runOrder_kept _ _ _ _ _ rfl⟩

theorem execReadClear_kept (o : Order) (s : State) : ∃ t, execReadClear o s = .next t ∧ t.kept = s.kept :=
  ⟨_, rfl, runOrder_kept _ _ _ _ _ rfl⟩

theorem execReducerSnapshot_kept (s : State) : ∃ t, execReducerSnapshot s = .next t ∧ t.kept = s.kept :=
  ⟨_, rfl, by (repeat' split) <;> simp⟩

theorem execHistSet_kept (o : Order) (s : State) : ∃ t, execHistSet o s = .next t ∧ t.kept = s.kept :=
  ⟨_, rfl, runOrder_kept _ _ _ _ _ rfl⟩

theorem execSketchSet_kept (o : Order) (s : State) : ∃ t, execSketchSet o s = .next t ∧ t.kept = s.kept :=
  ⟨_, rfl, runOrder_kept _ _ _ _ _ rfl⟩

theorem execEvSet_kept (o : Order) (s : State) : ∃ t, execEvSet o s = .next t ∧ t.kept = s.kept :=
  ⟨_, rfl, runPtr_kept _ _ _ _ _ _ fun _ => by simp⟩

@[simp] theorem updBw_kept : ∀ (s : State) (n : Nat) (f : Bw → Bw), (updBw s n f).kept = s.kept := by
  intros; rfl

@[simp] theorem bwNow_kept : ∀ (s : State) (n : Nat), (bwNow s n).kept = s.kept := by
  intros; rfl

theorem execReadBw_kept (o : Order) (s : State) : ∃ t, execReadBw o s = .next t ∧ t.kept = s.kept :=
  ⟨_, rfl, runOrder_kept _ _ _ _ _ rfl⟩

theorem execBwSet_kept (o : Order) (s : State) : ∃ t, execBwSet o s = .next t ∧ t.kept = s.kept :=
  ⟨_, rfl, runOrder_kept _ _ _ _ _ rfl⟩

theorem execBwWindowEnd_kept (n : Nat) (s : State) : ∃ t, execBwWindowEnd n s = .next t ∧ t.kept = s.kept :=
  ⟨_, rfl, rfl⟩

@[simp] theorem updExport_kept : ∀ (s : State) (i : Nat) (f : Export → Export), (updExport s i f).kept = s.kept := by
  intros; rfl

@[simp] theorem exportLost_kept : ∀ (s : State) (i n : Nat), (exportLost s i n).kept = s.kept := by
  intros; rfl

@[simp] theorem batchToRing_kept : ∀ (s : State) (i : Nat) (x : Export) (recs : List (List Byte)), (batchToRing s i x
    recs).kept = s.kept := by
  intros; unfold batchToRing; (repeat' split) <;> simp

@[simp] theorem batchToPort_kept (s : State) (i : Nat) (x : Export) (recs : List (List Byte)) : (batchToPort s i x
    recs).kept = s.kept := by
  have h := claim_kept s (datagram x i recs).length
  unfold batchToPort; dsimp only
  split
  · simp
  · split
    · simp
    · split
      · simp
      · split <;> rename_i e <;> rw [e] at h <;> simpa using h

@[simp] theorem sendBatch_kept : ∀ (s : State) (i : Nat), (sendBatch s i).kept = s.kept := by
  intros; simp [sendBatch]

@[simp] theorem closeBatch_kept : ∀ (a : Nat) (a_1 : State) (a_2 : Nat), (closeBatch a a_1 a_2).kept = a_1.kept := by
  intros
  first
    | (fun_induction closeBatch <;> simp_all; done)
    | (fun_induction closeBatch <;> (try dsimp only) <;> (repeat' split) <;> simp_all; done)

theorem execExportBatchFlush_kept (i : Nat) (upset : GrantUpset) (s : State) : ∃ t, execExportBatchFlush i upset s =
    .next t ∧ t.kept = s.kept :=
  ⟨_, rfl, by simp⟩

theorem execReadExport_kept (o : Order) (s : State) : ∃ t, execReadExport o s = .next t ∧ t.kept = s.kept :=
  ⟨_, rfl, runOrder_kept _ _ _ _ _ rfl⟩

theorem execExportSet_kept (o : Order) (s : State) : ∃ t, execExportSet o s = .next t ∧ t.kept = s.kept :=
  ⟨_, rfl, runOrder_kept _ _ _ _ _ (by simp)⟩

theorem execExportTemplate_kept (o : Order) (s : State) : ∃ t, execExportTemplate o s = .next t ∧ t.kept = s.kept :=
  ⟨_, rfl, runPtr_kept _ _ _ _ _ _ fun _ => by simp⟩

@[simp] theorem updCap_kept : ∀ (s : State) (f : Capture → Capture), (updCap s f).kept = s.kept := by
  intros; rfl

theorem execClassSet_kept (o : Order) (s : State) : ∃ t, execClassSet o s = .next t ∧ t.kept = s.kept :=
  ⟨_, rfl, runOrder_kept _ _ _ _ _ rfl⟩

theorem execReadCapture_kept (o : Order) (s : State) : ∃ t, execReadCapture o s = .next t ∧ t.kept = s.kept :=
  ⟨_, rfl, runOrder_kept _ _ _ _ _ rfl⟩

theorem deliverRec_kept (s : State) (r : CapRec) (t : State) (b : Bool) (h : deliverRec s r = some (t, b)) :
    t.kept = s.kept := by
  unfold deliverRec at h
  simp only [Option.map_eq_some_iff] at h
  obtain ⟨k, -, h⟩ := h
  split at h <;> cases h <;> simp

@[simp] theorem deliverAll_kept (n : Nat) (s : State) : (deliverAll n s).kept = s.kept := by
  induction n generalizing s with
  | zero => rfl
  | succ n ih =>
    unfold deliverAll
    split
    · rfl
    · split
      · rfl
      · rename_i e; rw [ih, updCap_kept]; exact deliverRec_kept _ _ _ _ e

@[simp] theorem capWrite_kept : ∀ (s : State) (cls : Nat) (bytes : List Byte), (capWrite s cls bytes).kept = s.kept :=
    by
  intros; simp [capWrite]

theorem execCaptureRecordWrite_kept (crcOk : Bool) (fault : Option (Nat × Nat)) (u : BilletUpset) (m : DramUse) (s :
    State) : ∃ t, execCaptureRecordWrite crcOk fault u m s = .next t ∧ t.kept = s.kept :=
  ⟨_, rfl, by dsimp only; (repeat' split) <;> simp⟩

theorem execCaptureSet_kept (o : Order) (s : State) : ∃ t, execCaptureSet o s = .next t ∧ t.kept = s.kept :=
  ⟨_, rfl, runOrder_kept _ _ _ _ _ (by simp)⟩

theorem execCaptureFreeze_kept (o : Order) (s : State) : ∃ t, execCaptureFreeze o s = .next t ∧ t.kept = s.kept :=
  ⟨_, rfl, runOrder_kept _ _ _ _ _ (by simp)⟩

theorem execCaptureDrain_kept (o : Order) (s : State) : ∃ t, execCaptureDrain o s = .next t ∧ t.kept = s.kept :=
  ⟨_, rfl, runOrder_kept _ _ _ _ _ rfl⟩

theorem execCaptureDrainDone_kept (m : DramUse) (s : State) : ∃ t, execCaptureDrainDone m s = .next t ∧ t.kept =
    s.kept :=
  ⟨_, rfl, by dsimp only; (repeat' split) <;> simp⟩

end Sys2Proof.Machine
end

