-- ==== Sys2Proof/Laws/KeptSteps.lean ====
section
/-! SUPPORT. What Machine/Steps.lean keeps: no definition of it changes the ownership registers or the queue of commands. -/

namespace Sys2Proof.Machine
open State

@[simp] theorem takeDue_kept (s : State) (d : Due) : (takeDue s d).kept = s.kept := by cases d <;> simp [takeDue]

@[simp] theorem runDueN_kept (a0 : Nat) (a1 : State) : (runDueN a0 a1).kept = a1.kept := by
  fun_induction runDueN <;> simp_all

@[simp] theorem runDue_kept (s : State) : (runDue s).kept = s.kept := by
  simp [runDue]

@[simp] theorem stepDt_kept (s : State) (new : Nat) : (stepDt s new).kept = s.kept := by
  simp [stepDt]

@[simp] theorem stepDtDue_kept (s : State) (new : Nat) : (stepDtDue s new).kept = s.kept := by
  simp [stepDtDue]

@[simp] theorem evaluate_kept (s : State) (off : Int) (freq : Int) : (evaluate s off freq).kept = s.kept := by
  unfold evaluate; dsimp only; (repeat' split) <;> simp

theorem execTbAdjust_kept (o : Order) (s : State) : ∃ t, execTbAdjust o s = .next t ∧ t.kept = s.kept :=
  ⟨_, rfl, runOrder_kept _ _ _ _ _ (by dsimp only; (repeat' split) <;> simp)⟩

theorem execTbAdjustSecondBoundary_kept (s : State) : ∃ t, execTbAdjustSecondBoundary s = .next t ∧ t.kept = s.kept :=
  ⟨_, rfl, by (repeat' split) <;> simp⟩

@[simp] theorem postPps_kept (s : State) (on : Bool) : (postPps s on).kept = s.kept := by
  simp [postPps]

@[simp] theorem badSecond_kept (s : State) : (badSecond s).kept = s.kept := by
  simp [badSecond]

@[simp] theorem ppsAccepted_kept (s : State) : (ppsAccepted s).kept = s.kept := by
  simp [ppsAccepted]

theorem execPpsInEdge_kept (highNs : Nat) (freq : Int) (s : State) : ∃ t, execPpsInEdge highNs freq s = .next t ∧
    t.kept = s.kept :=
  ⟨_, rfl, by simp⟩

theorem execPpsBadSecond_kept (s : State) : ∃ t, execPpsBadSecond s = .next t ∧ t.kept = s.kept :=
  ⟨_, rfl, by simp⟩

theorem execServoEvaluation_kept (freq : Int) (s : State) : ∃ t, execServoEvaluation freq s = .next t ∧ t.kept =
    s.kept :=
  ⟨_, rfl, by simp⟩

end Sys2Proof.Machine
end

