-- ==== Sys2Proof/Laws/KeptFetch.lean ====
section
/-! SUPPORT. What Machine/Fetch.lean keeps: no definition of it changes the ownership registers or the queue of commands. -/

namespace Sys2Proof.Machine
open State

@[simp] theorem ringFault_kept : ∀ (s : State) (m : Master) (n : Nat), (ringFault s m n).kept = s.kept := by
  intros; simp [ringFault]

end Sys2Proof.Machine
end

