-- ==== Sys2Proof/Laws/KeptInsns.lean ====
section
/-! SUPPORT. What Machine/Insns.lean keeps: no definition of it changes the ownership registers or the queue of commands. -/

set_option Elab.async false

namespace Sys2Proof.Machine
open State

@[simp] theorem startNext_kept : ∀ (s : State) (k : Nat), (startNext s k).kept = s.kept := by
  intros; unfold startNext; dsimp only; (repeat' split) <;> (try dsimp only) <;> simp

@[simp] theorem updRun_kept : ∀ (s : State) (k : Nat) (f : Run → Run), (updRun s k f).kept = s.kept := by
  intros; rfl

@[simp] theorem updRunPkt_kept : ∀ (s : State) (k : Nat) (f : Pkt → Pkt), (updRunPkt s k f).kept = s.kept := by
  intros; rfl

@[simp] theorem fetchError_kept : ∀ (s : State) (k : Nat) (r : Run) (tried : Nat), (fetchError s k r tried).kept =
    s.kept := by
  intros; simp [fetchError]

@[simp] theorem parityError_kept : ∀ (s : State) (k kind word : Nat), (parityError s k kind word).kept = s.kept := by
  intros; unfold parityError; (repeat' split) <;> simp

@[simp] theorem endInsn_kept : ∀ (s : State) (k cost stall pc : Nat) (target : Int) (done : Bool), (endInsn s k cost
    stall pc target done).kept = s.kept := by
  intros; unfold endInsn; dsimp only; (repeat' split) <;> (try dsimp only) <;> simp

@[simp] theorem runMicro_kept (s : State) (i : LInsn) (l : Lathe) (frame : List Byte) (n : Nat) (hit : Bool) :
    (runMicro s i l frame n hit).kept = s.kept := rfl

/-- An instruction keeps what its effect and what it has done by each of its polls keep. -/
theorem runInsn_kept (i : LInsn) (s : State) (srcs : List (BitVec 5)) (cost : Lathe → Nat) (d : Bool)
    (eff : State → Run → Lathe → LRes) (polls : Run → Lathe → List (Nat × (State → State)))
    (h : ∀ t r l u a b c, eff t r l = .next u a b c → u.kept = t.kept)
    (hp : ∀ r l p, p ∈ polls r l → ∀ t, (p.2 t).kept = t.kept := by
      intro _ _ _ m; first
        | (obtain ⟨_, _, rfl⟩ := List.mem_map.mp m; simp)
        | (obtain rfl := List.mem_singleton.mp m; simp)
        | cases m) :
    (runInsn i s srcs cost d eff polls).kept = s.kept := by
  unfold runInsn; dsimp only
  split
  · simp
  · split
    · simp
    · (repeat' split) <;> (try simp; done)
      · rename_i e _ _ f
        simp [hp _ _ _ (List.mem_of_find?_eq_some f)]
      · rename_i e _ _
        simpa using h _ _ _ _ _ _ _ e

@[simp] theorem setRd_kept : ∀ (s : State) (i : LInsn) (v : BitVec 64), (setRd s i v).kept = s.kept := by
  intros; rfl

@[simp] theorem setRdFree_kept : ∀ (s : State) (i : LInsn), (setRdFree s i).kept = s.kept := by
  intros; rfl

@[simp] theorem aluInsn_kept (i : LInsn) (s : State) (cost : Nat) (f : BitVec 64 → BitVec 64 → Option (BitVec 64)) :
    (aluInsn i s cost f).kept = s.kept :=
  runInsn_kept _ _ _ _ _ _ _ fun _ _ _ _ _ _ _ h => by cases h; split <;> simp

@[simp] theorem branchInsn_kept (i : LInsn) (s : State) (c : BitVec 64 → BitVec 64 → Bool) :
    (branchInsn i s c).kept = s.kept :=
  runInsn_kept _ _ _ _ _ _ _ fun _ _ _ _ _ _ _ h => by cases h; rfl

theorem execAdd_kept (i : LInsn) (s : State) : ∃ t, execAdd i s = .next t ∧ t.kept = s.kept :=
  ⟨_, rfl, by simp⟩

theorem execSub_kept (i : LInsn) (s : State) : ∃ t, execSub i s = .next t ∧ t.kept = s.kept :=
  ⟨_, rfl, by simp⟩

theorem execAnd_kept (i : LInsn) (s : State) : ∃ t, execAnd i s = .next t ∧ t.kept = s.kept :=
  ⟨_, rfl, by simp⟩

theorem execOr_kept (i : LInsn) (s : State) : ∃ t, execOr i s = .next t ∧ t.kept = s.kept :=
  ⟨_, rfl, by simp⟩

theorem execXor_kept (i : LInsn) (s : State) : ∃ t, execXor i s = .next t ∧ t.kept = s.kept :=
  ⟨_, rfl, by simp⟩

theorem execShl_kept (i : LInsn) (s : State) : ∃ t, execShl i s = .next t ∧ t.kept = s.kept :=
  ⟨_, rfl, by simp⟩

theorem execShr_kept (i : LInsn) (s : State) : ∃ t, execShr i s = .next t ∧ t.kept = s.kept :=
  ⟨_, rfl, by simp⟩

theorem execSar_kept (i : LInsn) (s : State) : ∃ t, execSar i s = .next t ∧ t.kept = s.kept :=
  ⟨_, rfl, by simp⟩

theorem execCmp_kept (i : LInsn) (s : State) : ∃ t, execCmp i s = .next t ∧ t.kept = s.kept :=
  ⟨_, rfl, by simp⟩

theorem execMul_kept (i : LInsn) (s : State) : ∃ t, execMul i s = .next t ∧ t.kept = s.kept :=
  ⟨_, rfl, by simp⟩

theorem execMulh_kept (i : LInsn) (s : State) : ∃ t, execMulh i s = .next t ∧ t.kept = s.kept :=
  ⟨_, rfl, by simp⟩

theorem execExt_kept (i : LInsn) (s : State) : ∃ t, execExt i s = .next t ∧ t.kept = s.kept :=
  ⟨_, rfl, runInsn_kept _ _ _ _ _ _ _ fun _ _ _ _ _ _ _ h => by split at h <;> cases h; simp⟩

theorem execIns_kept (i : LInsn) (s : State) : ∃ t, execIns i s = .next t ∧ t.kept = s.kept :=
  ⟨_, rfl, runInsn_kept _ _ _ _ _ _ _ fun _ _ _ _ _ _ _ h => by dsimp only at h; (repeat' split at h) <;> cases h <;> simp⟩

theorem execBeq_kept (i : LInsn) (s : State) : ∃ t, execBeq i s = .next t ∧ t.kept = s.kept :=
  ⟨_, rfl, by simp⟩

theorem execBne_kept (i : LInsn) (s : State) : ∃ t, execBne i s = .next t ∧ t.kept = s.kept :=
  ⟨_, rfl, by simp⟩

theorem execBlt_kept (i : LInsn) (s : State) : ∃ t, execBlt i s = .next t ∧ t.kept = s.kept :=
  ⟨_, rfl, by simp⟩

theorem execBge_kept (i : LInsn) (s : State) : ∃ t, execBge i s = .next t ∧ t.kept = s.kept :=
  ⟨_, rfl, by simp⟩

theorem execBltu_kept (i : LInsn) (s : State) : ∃ t, execBltu i s = .next t ∧ t.kept = s.kept :=
  ⟨_, rfl, by simp⟩

theorem execBgeu_kept (i : LInsn) (s : State) : ∃ t, execBgeu i s = .next t ∧ t.kept = s.kept :=
  ⟨_, rfl, by simp⟩

theorem execJmp_kept (i : LInsn) (s : State) : ∃ t, execJmp i s = .next t ∧ t.kept = s.kept :=
  ⟨_, rfl, runInsn_kept _ _ _ _ _ _ _ fun _ _ _ _ _ _ _ h => by cases h; rfl⟩

theorem execLdl_kept (i : LInsn) (s : State) : ∃ t, execLdl i s = .next t ∧ t.kept = s.kept :=
  ⟨_, rfl, runInsn_kept _ _ _ _ _ _ _ fun _ _ _ _ _ _ _ h => by dsimp only at h; (repeat' split at h) <;> cases h <;> simp⟩

theorem execStl_kept (i : LInsn) (s : State) : ∃ t, execStl i s = .next t ∧ t.kept = s.kept :=
  ⟨_, rfl, runInsn_kept _ _ _ _ _ _ _ fun _ _ _ _ _ _ _ h => by dsimp only at h; (repeat' split at h) <;> cases h <;> simp⟩

theorem execLdc_kept (i : LInsn) (s : State) : ∃ t, execLdc i s = .next t ∧ t.kept = s.kept :=
  ⟨_, rfl, runInsn_kept _ _ _ _ _ _ _ fun _ _ _ _ _ _ _ h => by dsimp only at h; (repeat' split at h) <;> cases h <;> simp⟩

@[simp] theorem shmInsn_kept (i : LInsn) (s : State) (srcs : List (BitVec 5)) (cost : Nat) (reads : Bool)
    (f : Lathe → BitVec 64 → Option (BitVec 64) × Option (BitVec 64)) : (shmInsn i s srcs cost reads f).kept = s.kept :=
  runInsn_kept _ _ _ _ _ _ _ fun _ _ _ _ _ _ _ h => by
    dsimp only at h
    split at h
    · cases h
    · split at h <;> cases h
      (repeat' split) <;> simp

theorem execLds_kept (i : LInsn) (s : State) : ∃ t, execLds i s = .next t ∧ t.kept = s.kept :=
  ⟨_, rfl, by simp⟩

theorem execSts_kept (i : LInsn) (s : State) : ∃ t, execSts i s = .next t ∧ t.kept = s.kept :=
  ⟨_, rfl, by simp⟩

theorem execFadd_kept (i : LInsn) (s : State) : ∃ t, execFadd i s = .next t ∧ t.kept = s.kept :=
  ⟨_, rfl, by simp⟩

theorem execCas_kept (i : LInsn) (s : State) : ∃ t, execCas i s = .next t ∧ t.kept = s.kept :=
  ⟨_, rfl, by simp⟩

theorem execSwap_kept (i : LInsn) (s : State) : ∃ t, execSwap i s = .next t ∧ t.kept = s.kept :=
  ⟨_, rfl, by simp⟩

theorem execHvl_kept (i : LInsn) (s : State) : ∃ t, execHvl i s = .next t ∧ t.kept = s.kept :=
  ⟨_, rfl, runInsn_kept _ _ _ _ _ _ _ fun _ _ _ _ _ _ _ h => by split at h <;> cases h; simp⟩

theorem execHvs_kept (i : LInsn) (s : State) : ∃ t, execHvs i s = .next t ∧ t.kept = s.kept :=
  ⟨_, rfl, runInsn_kept _ _ _ _ _ _ _ fun _ _ _ _ _ _ _ h => by split at h <;> cases h; simp⟩

theorem execPbl_kept (i : LInsn) (s : State) : ∃ t, execPbl i s = .next t ∧ t.kept = s.kept :=
  ⟨_, rfl, runInsn_kept _ _ _ _ _ _ _ fun _ _ _ _ _ _ _ h => by dsimp only at h; (repeat' split at h) <;> cases h <;> simp⟩

theorem execPbs_kept (i : LInsn) (s : State) : ∃ t, execPbs i s = .next t ∧ t.kept = s.kept :=
  ⟨_, rfl, runInsn_kept _ _ _ _ _ _ _ fun _ _ _ _ _ _ _ h => by dsimp only at h; (repeat' split at h) <;> cases h <;> simp⟩

theorem execHedit_kept (i : LInsn) (s : State) : ∃ t, execHedit i s = .next t ∧ t.kept = s.kept :=
  ⟨_, rfl, runInsn_kept _ _ _ _ _ _ _ fun _ _ _ _ _ _ _ h => by dsimp only at h; (repeat' split at h) <;> cases h <;> simp⟩

theorem execDget_kept (i : LInsn) (s : State) : ∃ t, execDget i s = .next t ∧ t.kept = s.kept :=
  ⟨_, rfl, runInsn_kept _ _ _ _ _ _ _ fun _ _ _ _ _ _ _ h => by split at h <;> cases h; simp⟩

theorem execDset_kept (i : LInsn) (s : State) : ∃ t, execDset i s = .next t ∧ t.kept = s.kept :=
  ⟨_, rfl, runInsn_kept _ _ _ _ _ _ _ fun _ _ _ _ _ _ _ h => by split at h <;> cases h; simp⟩

theorem execLkup_kept (i : LInsn) (s : State) : ∃ t, execLkup i s = .next t ∧ t.kept = s.kept :=
  ⟨_, rfl, runInsn_kept _ _ _ _ _ _ _ fun _ _ _ _ _ _ _ h => by dsimp only at h; (repeat' split at h) <;> cases h <;> simp⟩

theorem execBcopy_kept (i : LInsn) (s : State) : ∃ t, execBcopy i s = .next t ∧ t.kept = s.kept :=
  ⟨_, rfl, runInsn_kept _ _ _ _ _ _ _ fun _ _ _ _ _ _ _ h => by dsimp only at h; (repeat' split at h) <;> cases h <;> simp⟩

theorem execCrc_kept (i : LInsn) (s : State) : ∃ t, execCrc i s = .next t ∧ t.kept = s.kept :=
  ⟨_, rfl, runInsn_kept _ _ _ _ _ _ _ fun _ _ _ _ _ _ _ h => by dsimp only at h; (repeat' split at h) <;> cases h <;> simp⟩

theorem execSha_kept (i : LInsn) (s : State) : ∃ t, execSha i s = .next t ∧ t.kept = s.kept :=
  ⟨_, rfl, runInsn_kept _ _ _ _ _ _ _ fun _ _ _ _ _ _ _ h => by dsimp only at h; (repeat' split at h) <;> cases h <;> simp⟩

theorem execExit_kept (i : LInsn) (s : State) : ∃ t, execExit i s = .next t ∧ t.kept = s.kept :=
  ⟨_, rfl, runInsn_kept _ _ _ _ _ _ _ fun _ _ _ _ _ _ _ h => by cases h; rfl⟩

end Sys2Proof.Machine
end

