-- ==== Sys2Proof/Laws/KeptOwn.lean ====
section
/-! SUPPORT. The commands that change the ownership registers: they answer a next state and leave the queue alone. -/

set_option Elab.async false

namespace Sys2Proof.Machine
open State

@[simp] theorem updOwn_queue (s : State) (f : OwnSt → OwnSt) : (s.updOwn f).kept.2 = s.kept.2 := rfl

@[simp] theorem startDrain_queue (s : State) (k : DrainKind) (m : Master) : (startDrain s k m).kept.2 = s.kept.2 := rfl

@[simp] theorem postLapsed_queue (s : State) (c : Nat) (o : Option Master) (m : Master) :
    (postLapsed s c o m).kept.2 = s.kept.2 := by simp

@[simp] theorem cancelOffer_queue (s : State) (c : Nat) (o : Option Master) : (cancelOffer s c o).kept.2 = s.kept.2 := by
  unfold cancelOffer; split <;> simp

@[simp] theorem grant_queue (s : State) (m : Master) : (grant s m).kept.2 = s.kept.2 := rfl

@[simp] theorem disown_queue (s : State) : (disown s).kept.2 = s.kept.2 := rfl

@[simp] theorem setResult_queue (s : State) (m : Master) (r : Nat) : (setResult s m r).kept.2 = s.kept.2 := rfl

@[simp] theorem claimWrite_queue (s : State) (m : Master) (v : Word) : (claimWrite s m v).kept.2 = s.kept.2 := by
  unfold claimWrite; dsimp only; (repeat' split) <;> simp

@[simp] theorem renewWrite_queue (s : State) (m : Master) (v : Word) : (renewWrite s m v).kept.2 = s.kept.2 := by
  unfold renewWrite; split <;> simp

theorem runOrder_queue (f : Form) (o : Order) (s : State) (c : Checks) (body : State → State × Reply)
    (h : (body s).1.kept.2 = s.kept.2) : (runOrder f o s c body).kept.2 = s.kept.2 := by
  unfold runOrder; dsimp only; (repeat' split) <;> simp [h]

theorem execHandoverOffer_queue (o : Order) (s : State) :
    ∃ t, execHandoverOffer o s = .next t ∧ t.kept.2 = s.kept.2 :=
  ⟨_, rfl, runOrder_queue _ _ _ _ _ (by simp)⟩

theorem execHandoverAccept_queue (o : Order) (s : State) :
    ∃ t, execHandoverAccept o s = .next t ∧ t.kept.2 = s.kept.2 :=
  ⟨_, rfl, by (repeat' split) <;> simp⟩

theorem execHandoverWithdraw_queue (o : Order) (s : State) :
    ∃ t, execHandoverWithdraw o s = .next t ∧ t.kept.2 = s.kept.2 :=
  ⟨_, rfl, runOrder_queue _ _ _ _ _ (by simp)⟩

theorem execRelease_queue (o : Order) (s : State) : ∃ t, execRelease o s = .next t ∧ t.kept.2 = s.kept.2 :=
  ⟨_, rfl, runOrder_queue _ _ _ _ _ (by simp)⟩

theorem execClaimWrite_queue (m : Master) (v : Word) (s : State) :
    ∃ t, execClaimWrite m v s = .next t ∧ t.kept.2 = s.kept.2 := ⟨_, rfl, by split <;> simp⟩

theorem execRenewWrite_queue (m : Master) (v : Word) (s : State) :
    ∃ t, execRenewWrite m v s = .next t ∧ t.kept.2 = s.kept.2 := ⟨_, rfl, by split <;> simp⟩

theorem execLeaseLow_queue (s : State) : ∃ t, execLeaseLow s = .next t ∧ t.kept.2 = s.kept.2 :=
  ⟨_, rfl, by (repeat' split) <;> simp⟩

theorem execLeaseExpired_queue (s : State) : ∃ t, execLeaseExpired s = .next t ∧ t.kept.2 = s.kept.2 :=
  ⟨_, rfl, by dsimp only; (repeat' split) <;> simp⟩

theorem execExpiryDrainEnd_queue (s : State) : ∃ t, execExpiryDrainEnd s = .next t ∧ t.kept.2 = s.kept.2 :=
  ⟨_, rfl, by (repeat' split) <;> simp⟩

theorem execOfferLapsed_queue (s : State) : ∃ t, execOfferLapsed s = .next t ∧ t.kept.2 = s.kept.2 :=
  ⟨_, rfl, by (repeat' split) <;> simp⟩

theorem execHandoverCut_queue (s : State) : ∃ t, execHandoverCut s = .next t ∧ t.kept.2 = s.kept.2 :=
  ⟨_, rfl, by dsimp only; (repeat' split) <;> simp⟩

theorem execReleaseCut_queue (s : State) : ∃ t, execReleaseCut s = .next t ∧ t.kept.2 = s.kept.2 :=
  ⟨_, rfl, by dsimp only; (repeat' split) <;> simp⟩

@[simp] theorem globalWrite_queue (s : State) (a : Nat) (v : Word) : (globalWrite s a v).kept.2 = s.kept.2 := by
  unfold globalWrite; (repeat' split) <;> simp

@[simp] theorem ownerWrite_queue (s : State) (m : Master) (f : State → State) (h : (f s).kept.2 = s.kept.2) :
    (ownerWrite s m f).kept.2 = s.kept.2 := by
  unfold ownerWrite; (repeat' split) <;> simp [h]

@[simp] theorem localWrite_kept (s : State) (m : Master) (a : Nat) (v : Word) : (localWrite s m a v).kept = s.kept := by
  unfold localWrite; (repeat' split) <;> simp

@[simp] theorem wordWrite_queue (s : State) (m : Master) (off : Nat) (v : Word) :
    (wordWrite s m off v).kept.2 = s.kept.2 := by
  unfold wordWrite; (repeat' split) <;> simp

@[simp] theorem wordWrites_queue : ∀ (ws : List Word) (s : State) (m : Master) (off : Nat),
    (wordWrites s m off ws).kept.2 = s.kept.2
  | [], _, _, _ => rfl
  | v :: vs, s, m, off => by rw [wordWrites, wordWrites_queue vs, wordWrite_queue]

theorem execRegisterWrite_queue (m : Master) (a : Nat) (ws : List Word) (w : Bool) (s : State) :
    ∃ t, execRegisterWrite m a ws w s = .next t ∧ t.kept.2 = s.kept.2 :=
  ⟨_, rfl, by unfold registerWrite; dsimp only; (repeat' split) <;> simp⟩

@[simp] theorem vauxOff_queue (s : State) : (vauxOff s).kept.2 = s.kept.2 := rfl

theorem execVauxLost_queue (s : State) : ∃ t, execVauxLost s = .next t ∧ t.kept.2 = s.kept.2 := ⟨_, rfl, rfl⟩

theorem execVauxPowerUp_queue (straps : BitVec 4) (a b c : Bool) (s : State) :
    ∃ t, execVauxPowerUp straps a b c s = .next t ∧ t.kept.2 = s.kept.2 :=
  ⟨_, rfl, by dsimp only; (repeat' split) <;> simp⟩

@[simp] theorem registerReset_queue (s : State) : (registerReset s).kept.2 = s.kept.2 := by
  unfold registerReset; simp

theorem execSysresetN_queue (s : State) : ∃ t, execSysresetN s = .next t ∧ t.kept.2 = s.kept.2 :=
  ⟨_, rfl, by dsimp only; (repeat' split) <;> simp⟩

end Sys2Proof.Machine
end

