-- ==== Sys2Proof/Laws/KeptPtp.lean ====
section
/-! SUPPORT. What Machine/Ptp.lean keeps: no definition of it changes the ownership registers or the queue of commands. -/

set_option Elab.async false

namespace Sys2Proof.Machine
open State

@[simp] theorem ptpSend_kept (s : State) (n : Nat) (f : List Byte) : (ptpSend s n f).kept = s.kept := by
  simp [ptpSend]

theorem execPtpMessageTransmit_kept (n : Nat) (k : PtpKind) (s : State) : ∃ t, execPtpMessageTransmit n k s = .next t
    ∧ t.kept = s.kept :=
  ⟨_, rfl, by (repeat' split) <;> simp⟩

@[simp] theorem ptpPass_kept (s : State) (n : Nat) (f : List Byte) (inDt : Nat) : (ptpPass s n f inDt).kept = s.kept
    := rfl

@[simp] theorem takeAnnounce_kept (s : State) (n : Nat) (f : List Byte) : (takeAnnounce s n f).kept = s.kept := rfl

@[simp] theorem ptpSync_kept (s : State) (n : Nat) (t1 : Nat) (t2 : Nat) (cf : Int) (freq : Int) : (ptpSync s n t1 t2
    cf freq).kept = s.kept := by
  unfold ptpSync; dsimp only; (repeat' split) <;> simp

@[simp] theorem ptpTake_kept (s : State) (n : Nat) (f : List Byte) (inDt : Nat) (freq : Int) : (ptpTake s n f inDt
    freq).kept = s.kept := by
  unfold ptpTake; dsimp only; (repeat' split) <;> simp

theorem execPtpMessageReceived_kept (freq : Int) (s : State) : ∃ t, execPtpMessageReceived freq s = .next t ∧ t.kept =
    s.kept :=
  ⟨_, rfl, by (repeat' split) <;> simp⟩

theorem execPtpSlaveStateLost_kept (s : State) : ∃ t, execPtpSlaveStateLost s = .next t ∧ t.kept = s.kept :=
  ⟨_, rfl, by simp⟩

end Sys2Proof.Machine
end

