-- ==== Sys2Proof/Laws/Sparse.lean ====
section
/-! SUPPORT. The laws of a sparse map in canonical form: a read after a write, other keys left alone, the form kept. -/

namespace Sys2Proof.SMap

variable {α : Type}

theorem wfFrom_weaken [DecidableEq α] {d : Nat → α} {m : SMap α} {a b : Nat} (h : wfFrom d (some b) m = true) (hab : a ≤ b) :
    wfFrom d (some a) m = true := by
  cases m with
  | nil => rfl
  | cons x m =>
    obtain ⟨j, v⟩ := x
    simp only [wfFrom, Bool.and_eq_true, decide_eq_true_eq] at *
    exact ⟨⟨by omega, h.1.2⟩, h.2⟩

theorem get_below [DecidableEq α] {d : Nat → α} {m : SMap α} {b k : Nat} (h : wfFrom d (some b) m = true) (hk : k ≤ b) :
    get d m k = d k := by
  induction m generalizing b with
  | nil => rfl
  | cons x m ih =>
    obtain ⟨j, v⟩ := x
    simp only [wfFrom, Bool.and_eq_true, decide_eq_true_eq] at h
    have hj : k ≠ j := by omega
    simp only [get, hj, if_false]
    exact ih h.2 (by omega)

theorem wf_tail [DecidableEq α] {d : Nat → α} {m : SMap α} {lo : Option Nat} {j : Nat} {v : α}
    (h : wfFrom d lo ((j, v) :: m) = true) : wfFrom d (some j) m = true := by
  simp only [wfFrom, Bool.and_eq_true] at h; exact h.2

theorem get_erase [DecidableEq α] {d : Nat → α} {m : SMap α} {lo : Option Nat} (h : wfFrom d lo m = true) (k x : Nat) :
    get d (erase m k) x = if x = k then d k else get d m x := by
  induction m generalizing lo with
  | nil => simp only [erase, get]; split <;> simp_all
  | cons e m ih =>
    obtain ⟨j, v⟩ := e
    have ht := wf_tail h
    simp only [erase]
    split
    · subst k
      split
      · subst x; exact get_below ht (Nat.le_refl _)
      · simp [get, *]
    · split
      · split
        · subst x
          have : k ≠ j := by omega
          simp only [get, this, if_false]
          exact get_below ht (by omega)
        · rfl
      · have := ih ht
        simp only [get, this]
        split
        · subst x; have : j ≠ k := by omega
          simp [this]
        · rfl

theorem get_insert [DecidableEq α] {d : Nat → α} {m : SMap α} {lo : Option Nat} (h : wfFrom d lo m = true) (k : Nat) (v : α)
    (x : Nat) : get d (insert m k v) x = if x = k then v else get d m x := by
  induction m generalizing lo with
  | nil => simp only [insert, get]
  | cons e m ih =>
    obtain ⟨j, w⟩ := e
    have ht := wf_tail h
    simp only [insert]
    split
    · subst k; simp only [get]; split <;> simp [*]
    · split
      · simp only [get]
      · simp only [get, ih ht]
        split
        · subst x; have : j ≠ k := by omega
          simp [this]
        · rfl

/-- A read after a write: the key written gives the value, every other key what it gave. -/
theorem get_put [DecidableEq α] {d : Nat → α} {m : SMap α} (h : wf d m = true) (k : Nat) (v : α) (x : Nat) :
    get d (put d m k v) x = if x = k then v else get d m x := by
  unfold put
  split
  · rename_i e; rw [get_erase h]; simp [e]
  · exact get_insert h k v x

theorem wfFrom_erase [DecidableEq α] {d : Nat → α} {m : SMap α} {lo : Option Nat} (h : wfFrom d lo m = true) (k : Nat) :
    wfFrom d lo (erase m k) = true := by
  induction m generalizing lo with
  | nil => rfl
  | cons e m ih =>
    obtain ⟨j, v⟩ := e
    have ht := wf_tail h
    simp only [erase]
    split
    · cases lo with
      | none =>
        cases m with
        | nil => rfl
        | cons e m => simp only [wfFrom, Bool.and_eq_true] at *; exact ⟨⟨trivial, ht.1.2⟩, ht.2⟩
      | some b =>
        refine wfFrom_weaken ht ?_
        simp only [wfFrom, Bool.and_eq_true, decide_eq_true_eq] at h; omega
    · split
      · exact h
      · simp only [wfFrom, Bool.and_eq_true] at h ⊢
        exact ⟨h.1, ih ht⟩

theorem wfFrom_cons [DecidableEq α] {d : Nat → α} {m : SMap α} {lo : Option Nat} {j : Nat} {v : α} :
    wfFrom d lo ((j, v) :: m) = true ↔ (∀ b, lo = some b → b < j) ∧ v ≠ d j ∧ wfFrom d (some j) m = true := by
  cases lo <;> simp [wfFrom, and_assoc]

theorem wfFrom_insert [DecidableEq α] {d : Nat → α} {m : SMap α} {lo : Option Nat} (h : wfFrom d lo m = true) (k : Nat) (v : α)
    (hv : v ≠ d k) (hlo : ∀ b, lo = some b → b < k) : wfFrom d lo (insert m k v) = true := by
  induction m generalizing lo with
  | nil => rw [insert, wfFrom_cons]; exact ⟨hlo, hv, rfl⟩
  | cons e m ih =>
    obtain ⟨j, w⟩ := e
    rw [wfFrom_cons] at h
    simp only [insert]
    split
    · subst k; rw [wfFrom_cons]; exact ⟨h.1, hv, h.2.2⟩
    · split
      · rw [wfFrom_cons, wfFrom_cons]
        exact ⟨hlo, hv, by intro b e; cases e; assumption, h.2⟩
      · rw [wfFrom_cons]
        exact ⟨h.1, h.2.1, ih h.2.2 (by intro b e; cases e; omega)⟩

/-- A write keeps the canonical form. -/
theorem wf_put [DecidableEq α] {d : Nat → α} {m : SMap α} (h : wf d m = true) (k : Nat) (v : α) : wf d (put d m k v) = true := by
  unfold put wf
  split
  · exact wfFrom_erase h k
  · exact wfFrom_insert h k v (by assumption) (by intro b e; cases e)

end Sys2Proof.SMap
end

