-- ==== Sys2Proof/Laws/Memory.lean ====
section
/-! SUPPORT. The M0 window: every write keeps its canonical form, and a read after a write gives what was written. -/

namespace Sys2Proof.Machine

/-- The M0 window has the canonical form. -/
abbrev State.m0Wf (s : State) : Prop := SMap.wf (fun _ => (0 : Byte)) s.host.m0Win = true

theorem m0Store_wf (w : List Host.Cell) (a : Nat) (bs : List Byte) (h : SMap.wf (fun _ => (0 : Byte)) w = true) :
    SMap.wf (fun _ => (0 : Byte)) (m0Store w a bs) = true := by
  induction bs generalizing w a with
  | nil => exact h
  | cons b bs ih =>
    simp only [m0Store]
    refine ih _ _ ?_
    split
    · exact SMap.wf_put h _ _
    · exact h

theorem m0Store_get (w : List Host.Cell) (a : Nat) (bs : List Byte) (h : SMap.wf (fun _ => (0 : Byte)) w = true) (x : Nat) :
    SMap.get (fun _ => (0 : Byte)) (m0Store w a bs) x =
      if a ≤ x ∧ x < a + bs.length ∧ x < 0x8000 then bs.getD (x - a) 0 else SMap.get (fun _ => (0 : Byte)) w x := by
  induction bs generalizing w a with
  | nil => simp only [m0Store, List.length_nil, Nat.add_zero]; rw [if_neg (by omega)]
  | cons b bs ih =>
    simp only [m0Store, List.length_cons]
    have hw : SMap.wf (fun _ => (0 : Byte)) (if a < 0x8000 then SMap.put (fun _ => (0 : Byte)) w a b else w) = true := by
      split
      · exact SMap.wf_put h _ _
      · exact h
    rw [ih _ _ hw]
    by_cases hx : x = a
    · subst hx
      rw [if_neg (by omega)]
      by_cases hl : x < 0x8000
      · rw [if_pos hl, if_pos ⟨Nat.le_refl _, by omega, hl⟩, SMap.get_put h]; simp
      · rw [if_neg hl, if_neg (by omega)]
    · have hg : SMap.get (fun _ => (0 : Byte)) (if a < 0x8000 then SMap.put (fun _ => (0 : Byte)) w a b else w) x =
          SMap.get (fun _ => (0 : Byte)) w x := by
        split
        · rw [SMap.get_put h]; simp [hx]
        · rfl
      rw [hg]
      by_cases hc : a + 1 ≤ x ∧ x < a + 1 + bs.length ∧ x < 0x8000
      · rw [if_pos hc, if_pos ⟨by omega, by omega, hc.2.2⟩]
        obtain ⟨k, rfl⟩ : ∃ k, x = a + 1 + k := ⟨x - (a + 1), by omega⟩
        have e1 : a + 1 + k - (a + 1) = k := by omega
        have e2 : a + 1 + k - a = k + 1 := by omega
        rw [e1, e2]; simp
      · rw [if_neg hc, if_neg (by omega)]

theorem memWrite_m0Wf (s : State) (m : Master) (a : Nat) (bs : List Byte) (h : s.m0Wf) : (memWrite s m a bs).m0Wf := by
  cases m
  · exact h
  · exact h
  · exact m0Store_wf _ _ _ h

theorem reset_m0Wf : State.reset.m0Wf := rfl

end Sys2Proof.Machine
end

