-- ==== Sys2Proof/Laws/OrderTable.lean ====
section
/-! SUPPORT. The orders a ring brings: every one answers a next state and leaves the queue of commands alone. -/

set_option Elab.async false

namespace Sys2Proof.Machine
open State

/-- An order answers a next state and leaves the queue of commands alone. -/
def Meaning.KeepsQueue (f : Meaning) : Prop := ∀ o s, ∃ t, f o s = .next t ∧ t.kept.2 = s.kept.2

theorem Meaning.keepsQueue_of {f : Meaning} (h : ∀ o s, ∃ t, f o s = .next t ∧ t.kept = s.kept) : f.KeepsQueue := by
  intro o s
  obtain ⟨t, e, k⟩ := h o s
  exact ⟨t, e, congrArg Prod.snd k⟩

theorem orders2_queue : ∀ e ∈ orders2, Meaning.KeepsQueue e.2 := by
  intro e he
  simp only [orders2, List.mem_cons, List.not_mem_nil, or_false] at he
  rcases he with rfl | rfl | rfl | rfl | rfl | rfl
  · exact Meaning.keepsQueue_of execNop_kept
  · exact Meaning.keepsQueue_of execReadOwnership_kept
  · exact execHandoverOffer_queue
  · exact execHandoverAccept_queue
  · exact execHandoverWithdraw_queue
  · exact execRelease_queue

theorem orders3_queue : ∀ e ∈ orders3, Meaning.KeepsQueue e.2 := by
  intro e he
  simp only [orders3, List.mem_cons, List.not_mem_nil, or_false] at he
  rcases he with rfl | rfl | rfl | rfl
  · exact Meaning.keepsQueue_of execReadStart_kept
  · exact Meaning.keepsQueue_of execStart_kept
  · exact Meaning.keepsQueue_of execEnterService_kept
  · exact Meaning.keepsQueue_of execEnterProbe_kept

theorem orders4_queue : ∀ e ∈ orders4, Meaning.KeepsQueue e.2 := by
  intro e he
  simp only [orders4, List.mem_cons, List.not_mem_nil, or_false] at he
  rcases he with rfl | rfl | rfl | rfl | rfl | rfl | rfl | rfl | rfl | rfl | rfl | rfl
  · exact Meaning.keepsQueue_of execReadLane_kept
  · exact Meaning.keepsQueue_of execReadOe_kept
  · exact Meaning.keepsQueue_of execEyeScan_kept
  · exact Meaning.keepsQueue_of execRawCapture_kept
  · exact Meaning.keepsQueue_of execPortSet_kept
  · exact Meaning.keepsQueue_of execLaneSet_kept
  · exact Meaning.keepsQueue_of execRecalibrate_kept
  · exact Meaning.keepsQueue_of execSpare_kept
  · exact Meaning.keepsQueue_of execUnspare_kept
  · exact Meaning.keepsQueue_of execOeSet_kept
  · exact Meaning.keepsQueue_of execXpSet_kept
  · exact Meaning.keepsQueue_of execElsXfer_kept

theorem orders5_queue : ∀ e ∈ orders5, Meaning.KeepsQueue e.2 := by
  intro e he
  simp only [orders5, List.mem_cons, List.not_mem_nil, or_false] at he
  rcases he with rfl | rfl | rfl | rfl | rfl
  · exact Meaning.keepsQueue_of execReadPcs_kept
  · exact Meaning.keepsQueue_of execReadPm_kept
  · exact Meaning.keepsQueue_of execReadNeighbour_kept
  · exact Meaning.keepsQueue_of execPcsSet_kept
  · exact Meaning.keepsQueue_of execDefectAck_kept

theorem orders6_queue : ∀ e ∈ orders6, Meaning.KeepsQueue e.2 := by
  intro e he
  simp only [orders6, List.mem_cons, List.not_mem_nil, or_false] at he
  rcases he with rfl | rfl | rfl | rfl | rfl | rfl | rfl | rfl | rfl | rfl | rfl
  · exact Meaning.keepsQueue_of execReadTb_kept
  · exact Meaning.keepsQueue_of execReadLtt_kept
  · exact Meaning.keepsQueue_of execReadLogBlock_kept
  · exact Meaning.keepsQueue_of execReadCert_kept
  · exact Meaning.keepsQueue_of execTbSet_kept
  · exact Meaning.keepsQueue_of execTbAdjust_kept
  · exact Meaning.keepsQueue_of execPtpPortSet_kept
  · exact Meaning.keepsQueue_of execLttSet_kept
  · exact Meaning.keepsQueue_of execLogSet_kept
  · exact Meaning.keepsQueue_of execLogClose_kept
  · exact Meaning.keepsQueue_of execLogRelease_kept

theorem orders7_queue : ∀ e ∈ orders7, Meaning.KeepsQueue e.2 := by
  intro e he
  simp only [orders7, List.mem_cons, List.not_mem_nil, or_false] at he
  rcases he with rfl | rfl | rfl | rfl | rfl | rfl | rfl | rfl | rfl | rfl | rfl | rfl | rfl | rfl | rfl | rfl | rfl
  · exact Meaning.keepsQueue_of execReadVersions_kept
  · exact Meaning.keepsQueue_of execReadParser_kept
  · exact Meaning.keepsQueue_of execReadStage_kept
  · exact Meaning.keepsQueue_of execReadHostmap_kept
  · exact Meaning.keepsQueue_of execReadSprayRx_kept
  · exact Meaning.keepsQueue_of execReadMcast_kept
  · exact Meaning.keepsQueue_of execParserSet_kept
  · exact Meaning.keepsQueue_of execPortParseSet_kept
  · exact Meaning.keepsQueue_of execStageSet_kept
  · exact Meaning.keepsQueue_of execStageOpen_kept
  · exact Meaning.keepsQueue_of execCommit_kept
  · exact Meaning.keepsQueue_of execStageDiscard_kept
  · exact Meaning.keepsQueue_of execHostmapSet_kept
  · exact Meaning.keepsQueue_of execDealSet_kept
  · exact Meaning.keepsQueue_of execSpraySet_kept
  · exact Meaning.keepsQueue_of execSprayGroupSet_kept
  · exact Meaning.keepsQueue_of execMcastSet_kept

theorem orders8_queue : ∀ e ∈ orders8, Meaning.KeepsQueue e.2 := by
  intro e he
  simp only [orders8, List.mem_cons, List.not_mem_nil, or_false] at he
  rcases he with rfl | rfl | rfl | rfl | rfl | rfl | rfl | rfl | rfl | rfl | rfl | rfl | rfl | rfl
  · exact Meaning.keepsQueue_of execReadTables_kept
  · exact Meaning.keepsQueue_of execEmLookup_kept
  · exact Meaning.keepsQueue_of execLpmLookup_kept
  · exact Meaning.keepsQueue_of execTableDump_kept
  · exact Meaning.keepsQueue_of execTableDef_kept
  · exact Meaning.keepsQueue_of execEmWrite_kept
  · exact Meaning.keepsQueue_of execLpmWrite_kept
  · exact Meaning.keepsQueue_of execAclWrite_kept
  · exact Meaning.keepsQueue_of execActionWrite_kept
  · exact Meaning.keepsQueue_of execTableBulk_kept
  · exact Meaning.keepsQueue_of execLearnSet_kept
  · exact Meaning.keepsQueue_of execAgeSet_kept
  · exact Meaning.keepsQueue_of execShadowSet_kept
  · exact Meaning.keepsQueue_of execFlushLearned_kept

theorem orders9_queue : ∀ e ∈ orders9, Meaning.KeepsQueue e.2 := by
  intro e he
  simp only [orders9, List.mem_cons, List.not_mem_nil, or_false] at he
  rcases he with rfl | rfl | rfl | rfl | rfl | rfl | rfl
  · exact Meaning.keepsQueue_of execReadBuffer_kept
  · exact Meaning.keepsQueue_of execReadQueue_kept
  · exact Meaning.keepsQueue_of execReadPg_kept
  · exact Meaning.keepsQueue_of execPoolSet_kept
  · exact Meaning.keepsQueue_of execQueueAdmitSet_kept
  · exact Meaning.keepsQueue_of execPgSet_kept
  · exact Meaning.keepsQueue_of execDramSet_kept

theorem orders10_queue (test : Nat) : ∀ e ∈ orders10 test, Meaning.KeepsQueue e.2 := by
  intro e he
  simp only [orders10, List.mem_cons, List.not_mem_nil, or_false] at he
  rcases he with rfl | rfl | rfl | rfl | rfl | rfl | rfl | rfl | rfl | rfl | rfl | rfl
  · exact Meaning.keepsQueue_of execReadLathe_kept
  · exact Meaning.keepsQueue_of execReadBank_kept
  · exact Meaning.keepsQueue_of execShmRead_kept
  · exact Meaning.keepsQueue_of execReadControlStore_kept
  · exact Meaning.keepsQueue_of execImageLoad_kept
  · exact Meaning.keepsQueue_of execBankClear_kept
  · exact Meaning.keepsQueue_of execShmWrite_kept
  · exact Meaning.keepsQueue_of execLatheIsolate_kept
  · exact Meaning.keepsQueue_of execLatheRestore_kept
  · exact Meaning.keepsQueue_of execMicrocodeReload_kept
  · exact Meaning.keepsQueue_of fun o s => execMandrelTest_kept _ _ _
  · exact Meaning.keepsQueue_of execCsInject_kept

theorem orders11_queue : ∀ e ∈ orders11, Meaning.KeepsQueue e.2 := by
  intro e he
  simp only [orders11, List.mem_cons, List.not_mem_nil, or_false] at he
  rcases he with rfl | rfl | rfl | rfl | rfl | rfl | rfl | rfl | rfl | rfl
  · exact Meaning.keepsQueue_of execReadSched_kept
  · exact Meaning.keepsQueue_of execReadGcl_kept
  · exact Meaning.keepsQueue_of execReadShaper_kept
  · exact Meaning.keepsQueue_of execQueueSchedSet_kept
  · exact Meaning.keepsQueue_of execShaperSet_kept
  · exact Meaning.keepsQueue_of execGclSet_kept
  · exact Meaning.keepsQueue_of execGclCancel_kept
  · exact Meaning.keepsQueue_of execPfcSet_kept
  · exact Meaning.keepsQueue_of execEscSet_kept
  · exact Meaning.keepsQueue_of execStormRestore_kept

theorem orders12_queue : ∀ e ∈ orders12, Meaning.KeepsQueue e.2 := by
  intro e he
  simp only [orders12, List.mem_cons, List.not_mem_nil, or_false] at he
  rcases he with rfl | rfl | rfl | rfl | rfl | rfl | rfl | rfl | rfl
  · exact Meaning.keepsQueue_of execReadSeq_kept
  · exact Meaning.keepsQueue_of execReadFanout_kept
  · exact Meaning.keepsQueue_of execReadGrid_kept
  · exact Meaning.keepsQueue_of execReadTrim_kept
  · exact Meaning.keepsQueue_of execReadGroupConfig_kept
  · exact Meaning.keepsQueue_of execSeqGroupSet_kept
  · exact Meaning.keepsQueue_of execFanoutGroupSet_kept
  · exact Meaning.keepsQueue_of execTrimSet_kept
  · exact Meaning.keepsQueue_of execTrimMeasure_kept

theorem orders13_queue : ∀ e ∈ orders13, Meaning.KeepsQueue e.2 := by
  intro e he
  simp only [orders13, List.mem_cons, List.not_mem_nil, or_false] at he
  rcases he with rfl | rfl | rfl | rfl | rfl | rfl
  · exact Meaning.keepsQueue_of execReadContext_kept
  · exact Meaning.keepsQueue_of execReadCu_kept
  · exact Meaning.keepsQueue_of execContextSet_kept
  · exact Meaning.keepsQueue_of execContextMove_kept
  · exact Meaning.keepsQueue_of execContextReset_kept
  · exact Meaning.keepsQueue_of execCollSet_kept

theorem orders14_queue : ∀ e ∈ orders14, Meaning.KeepsQueue e.2 := by
  intro e he
  simp only [orders14, List.mem_cons, List.not_mem_nil, or_false] at he
  rcases he with rfl | rfl | rfl
  · exact Meaning.keepsQueue_of execReadArb_kept
  · exact Meaning.keepsQueue_of execArbSet_kept
  · exact Meaning.keepsQueue_of execArbCommit_kept

theorem orders15_queue : ∀ e ∈ orders15, Meaning.KeepsQueue e.2 := by
  intro e he
  simp only [orders15, List.mem_cons, List.not_mem_nil, or_false] at he
  rcases he with rfl | rfl | rfl | rfl | rfl | rfl | rfl | rfl | rfl | rfl | rfl | rfl | rfl | rfl | rfl | rfl | rfl | rfl | rfl | rfl
  · exact Meaning.keepsQueue_of execReadPortCounters_kept
  · exact Meaning.keepsQueue_of execReadSel_kept
  · exact Meaning.keepsQueue_of execReadHist_kept
  · exact Meaning.keepsQueue_of execReadSketch_kept
  · exact Meaning.keepsQueue_of execReadBw_kept
  · exact Meaning.keepsQueue_of execReadExport_kept
  · exact Meaning.keepsQueue_of execReadCapture_kept
  · exact Meaning.keepsQueue_of execSelSet_kept
  · exact Meaning.keepsQueue_of execSelCtrl_kept
  · exact Meaning.keepsQueue_of execReadClear_kept
  · exact Meaning.keepsQueue_of execHistSet_kept
  · exact Meaning.keepsQueue_of execSketchSet_kept
  · exact Meaning.keepsQueue_of execExportSet_kept
  · exact Meaning.keepsQueue_of execEvSet_kept
  · exact Meaning.keepsQueue_of execBwSet_kept
  · exact Meaning.keepsQueue_of execClassSet_kept
  · exact Meaning.keepsQueue_of execCaptureSet_kept
  · exact Meaning.keepsQueue_of execCaptureFreeze_kept
  · exact Meaning.keepsQueue_of execCaptureDrain_kept
  · exact Meaning.keepsQueue_of execExportTemplate_kept

theorem orders16_queue : ∀ e ∈ orders16, Meaning.KeepsQueue e.2 := by
  intro e he
  simp only [orders16, List.mem_cons, List.not_mem_nil, or_false] at he
  rcases he with rfl | rfl | rfl | rfl | rfl | rfl | rfl
  · exact Meaning.keepsQueue_of execReadPower_kept
  · exact Meaning.keepsQueue_of execReadPhase_kept
  · exact Meaning.keepsQueue_of execReadThermal_kept
  · exact Meaning.keepsQueue_of execPhaseSet_kept
  · exact Meaning.keepsQueue_of execPhaseSelect_kept
  · exact Meaning.keepsQueue_of execPhaseCancel_kept
  · exact Meaning.keepsQueue_of execPowerSet_kept

theorem orders17_queue : ∀ e ∈ orders17, Meaning.KeepsQueue e.2 := by
  intro e he
  simp only [orders17, List.mem_cons, List.not_mem_nil, or_false] at he
  rcases he with rfl | rfl | rfl | rfl | rfl
  · exact Meaning.keepsQueue_of execReadErrors_kept
  · exact Meaning.keepsQueue_of execReadFatal_kept
  · exact Meaning.keepsQueue_of execErrClose_kept
  · exact Meaning.keepsQueue_of execCuIsolate_kept
  · exact Meaning.keepsQueue_of execCuRestore_kept

theorem orderTable_queue (test : Nat) : ∀ e ∈ orderTable test, Meaning.KeepsQueue e.2 := by
  intro e he
  simp only [orderTable, List.mem_append, or_assoc] at he
  rcases he with h | h | h | h | h | h | h | h | h | h | h | h | h | h | h | h
  · exact orders2_queue e h
  · exact orders3_queue e h
  · exact orders4_queue e h
  · exact orders5_queue e h
  · exact orders6_queue e h
  · exact orders7_queue e h
  · exact orders8_queue e h
  · exact orders9_queue e h
  · exact orders10_queue _ e h
  · exact orders11_queue e h
  · exact orders12_queue e h
  · exact orders13_queue e h
  · exact orders14_queue e h
  · exact orders15_queue e h
  · exact orders16_queue e h
  · exact orders17_queue e h

theorem runOpcode_queue (op : BitVec 16) (o : Order) (test : Nat) (s : State) :
    ∃ t, runOpcode op o test s = .next t ∧ t.kept.2 = s.kept.2 := by
  unfold runOpcode
  split
  · rename_i e he
    exact orderTable_queue test e (List.mem_of_find?_eq_some he) o s
  · obtain ⟨t, e, k⟩ := execReservedOpcodeOrder_kept o op s
    exact ⟨t, e, congrArg Prod.snd k⟩

theorem execOrderFetch_queue (m : Master) (n : Nat) (bits : Option (BitVec 512)) (data : PtrData) (ok : Bool) (test : Nat)
    (s : State) : ∃ t, execOrderFetch m n bits data ok test s = .next t ∧ t.kept.2 = s.kept.2 := by
  unfold execOrderFetch
  split
  · exact ⟨s, rfl, rfl⟩
  · split
    · exact ⟨_, rfl, by simp⟩
    · have key : ∀ o op u, u.kept.2 = s.kept.2 →
          ∃ t, (if mustWait s o op then .next s else runOpcode op o test u) = Host.Outcome.next t ∧ t.kept.2 = s.kept.2 := by
        intro o op u hu
        split
        · exact ⟨s, rfl, rfl⟩
        · obtain ⟨t, e, k⟩ := runOpcode_queue op o test u
          exact ⟨t, e, k.trans hu⟩
      exact key _ _ _ (by rw [updRing_kept])

theorem execPayloadDmaDone_queue (i : Nat) (data : PtrData) (s : State) :
    ∃ t, execPayloadDmaDone i data s = .next t ∧ t.kept.2 = s.kept.2 := by
  unfold execPayloadDmaDone
  split
  · exact ⟨s, rfl, rfl⟩
  · split
    · exact ⟨s, rfl, rfl⟩
    · rename_i x _ _ _
      obtain ⟨t, e, k⟩ := runOpcode_queue x.opcode { x.order with data := payloadOf s x.order data } 0 s
      dsimp only at e ⊢
      rw [e]
      exact ⟨_, rfl, by rw [retryStarts_kept, updHost_kept]; exact k⟩

/-- The first entry of a key is the only one, where no two entries share a key. -/
theorem find_of_nodup {α : Type} (l : List (Nat × α)) (h : (l.map Prod.fst).Nodup) (e : Nat × α) (he : e ∈ l) :
    l.find? (fun x => x.1 == e.1) = some e := by
  induction l with
  | nil => cases he
  | cons a l ih =>
    simp only [List.map_cons, List.nodup_cons] at h
    rcases List.mem_cons.1 he with rfl | hm
    · simp
    · have : a.1 ≠ e.1 := fun x => h.1 (x ▸ List.mem_map.2 ⟨e, hm, rfl⟩)
      simp [this, ih h.2 hm]

/-- No two orders share an opcode. -/
theorem orderTable_nodup (test : Nat) : ((orderTable test).map Prod.fst).Nodup := by
  simp only [orderTable, orders2, orders3, orders4, orders5, orders6, orders7, orders8, orders9, orders10, orders11, orders12,
    orders13, orders14, orders15, orders16, orders17, List.map_cons, List.map_nil, List.cons_append, List.nil_append]
  decide +kernel

/-- An opcode of the table is dispatched to its own meaning. -/
theorem runOpcode_of_mem {test : Nat} {op : BitVec 16} {f : Meaning} (h : (op.toNat, f) ∈ orderTable test)
    (o : Order) (s : State) : runOpcode op o test s = f o s := by
  have k := find_of_nodup _ (orderTable_nodup test) _ h
  unfold runOpcode
  simp only at k
  rw [k]

end Sys2Proof.Machine
end

