-- ==== Sys2Proof/Laws/Orders.lean ====
section
/-! SUPPORT. What a work order does: refused, it only completes; accepted, it has its effect and then its reply. -/

set_option Elab.async false

namespace Sys2Proof.Machine

theorem firstFail_pass {f : Form} {s : State} {o : Order} {c : Checks} (h : firstFail f s o {} = none) (hc : c.pass = true) :
    firstFail f s o c = none := by
  obtain ⟨a, b, d, e, v, g, i, j⟩ := c
  simp only [Checks.pass, Bool.and_eq_true, Bool.not_eq_true', Option.isNone_iff_eq_none] at hc
  obtain ⟨⟨⟨⟨⟨⟨⟨rfl, rfl⟩, rfl⟩, rfl⟩, rfl⟩, rfl⟩, rfl⟩, rfl⟩ := hc
  exact h

theorem secondFail_pass {c : Checks} (hc : c.pass = true) : secondFail c = none := by
  obtain ⟨a, b, d, e, v, g, i, j⟩ := c
  simp only [Checks.pass, Bool.and_eq_true, Bool.not_eq_true', Option.isNone_iff_eq_none] at hc
  obtain ⟨⟨⟨⟨⟨⟨⟨rfl, rfl⟩, rfl⟩, rfl⟩, rfl⟩, rfl⟩, rfl⟩, rfl⟩ := hc
  rfl

theorem accepted_iff {f : Form} {s : State} {o : Order} :
    accepted f s o = true ↔ firstFail f s o {} = none ∧ (f.result = 0 ∨ resultFits o f.result = true) := by
  simp [accepted]

/-- Whether a result can be written does not depend on the payload buffer. -/
theorem resultFits_data (o : Order) (d : PtrData) (n : Nat) : resultFits { o with data := d } n = resultFits o n := rfl

/-- An order refused only completes (02 R68). -/
theorem runOrder_refused {f : Form} {o : Order} {s : State} {c : Checks} {body : State → State × Reply} {st : Nat}
    (h : firstFail f s o c = some st) : runOrder f o s c body = complete s o st 0 := by
  simp [runOrder, h]

/-- An order accepted has its effect and its reply. -/
theorem runOrder_accepted {f : Form} {o : Order} {s : State} {c : Checks} {body : State → State × Reply}
    (h : accepted f s o = true) (hc : c.pass = true) : runOrder f o s c body = reply f o (body s).1 (body s).2 := by
  rw [accepted_iff] at h
  have h1 := firstFail_pass h.1 hc
  simp only [runOrder, h1]
  rcases h.2 with h | h <;> simp [h]

/-- An order with a pointer payload that is here, accepted and found good. -/
theorem runPtr_accepted {f : Form} {o : Order} {s : State} {c1 : Checks} {c2 : List Byte → Checks}
    {body : List Byte → State → State × Reply} {bs : List Byte} (h : accepted f s o = true) (hc : c1.pass = true)
    (hp : payloadHere s o bs = true) (h2 : (c2 bs).pass = true) :
    runPtr f o s c1 c2 body = reply f o (body bs s).1 (body bs s).2 := by
  rw [accepted_iff] at h
  have h1 := firstFail_pass h.1 hc
  have h3 := secondFail_pass h2
  simp only [payloadHere, Bool.and_eq_true, beq_iff_eq, Option.isNone_iff_eq_none] at hp
  obtain ⟨⟨hp, hd⟩, ha⟩ := hp
  simp only [runPtr, hp, ha, h1, hd, runSecond, h3, Option.isSome_none, Bool.and_false, Bool.false_eq_true, if_false, if_true]
  rcases h.2 with h | h <;> simp [h]

/-- An order with an inline payload where a pointer was possible. -/
theorem runPtr_inline {f : Form} {o : Order} {s : State} {c1 : Checks} {c2 : List Byte → Checks}
    {body : List Byte → State → State × Reply} (h : accepted f s o = true) (hc : c1.pass = true)
    (hp : o.ptr = false) (h2 : (c2 (bytesLE 40 o.payload.toNat)).pass = true) :
    runPtr f o s c1 c2 body =
      reply f { o with data := .bytes (bytesLE 40 o.payload.toNat) } (body (bytesLE 40 o.payload.toNat) s).1
        (body (bytesLE 40 o.payload.toNat) s).2 := by
  rw [accepted_iff] at h
  have h1 := firstFail_pass h.1 hc
  have h3 := secondFail_pass h2
  simp only [runPtr, hp, h1, runSecond, h3, Bool.false_and, Bool.false_eq_true, if_false]
  rcases h.2 with h | h <;> simp [h, resultFits_data]

/-- The same for an effect and a reply known as a pair. -/
theorem runOrder_gives {f : Form} {o : Order} {s u : State} {r : Reply} {c : Checks} {body : State → State × Reply}
    (h : accepted f s o = true) (hc : c.pass = true) (hb : body s = (u, r)) : runOrder f o s c body = reply f o u r := by
  rw [runOrder_accepted h hc, hb]

theorem runPtr_gives {f : Form} {o : Order} {s u : State} {r : Reply} {c1 : Checks} {c2 : List Byte → Checks}
    {body : List Byte → State → State × Reply} {bs : List Byte} (h : accepted f s o = true) (hc : c1.pass = true)
    (hp : payloadHere s o bs = true) (h2 : (c2 bs).pass = true) (hb : body bs s = (u, r)) :
    runPtr f o s c1 c2 body = reply f o u r := by
  rw [runPtr_accepted h hc hp h2, hb]

theorem pass_empty : Checks.pass {} = true := rfl

end Sys2Proof.Machine
end

