-- ==== Sys2Proof/Laws/Ports.lean ====
section
/-! SUPPORT. What an event, an interrupt and a completion change: the record of the host ports and what was done outside,
nothing else. -/

set_option Elab.async false

namespace Sys2Proof.Machine

/-- All of the state but the record of the host ports and what was done outside. -/
def State.rest (s : State) : State := { s with host := HostSt.reset, out := [] }

/-- Two states with the same rest agree on whatever does not look at the ports. -/
theorem State.eq_of_rest {α : Type} {s t : State} (h : s.rest = t.rest) (f : State → α) (hf : ∀ u : State, f u.rest = f u) :
    f s = f t := by rw [← hf s, ← hf t, h]

@[simp] theorem updHost_rest (s : State) (f : HostSt → HostSt) : (s.updHost f).rest = s.rest := rfl
@[simp] theorem emit_rest (s : State) (x : Out) : (s.emit x).rest = s.rest := rfl
@[simp] theorem updRing_rest (s : State) (m : Master) (n : Nat) (f : Ring → Ring) : (updRing s m n f).rest = s.rest := rfl
@[simp] theorem updVec_rest (s : State) (m : Master) (n : Nat) (f : MsiVec → MsiVec) : (updVec s m n f).rest = s.rest := rfl
@[simp] theorem updPort_rest (s : State) (m : Master) (f : Port → Port) : (updPort s m f).rest = s.rest := rfl

@[simp] theorem memWrite_rest (s : State) (m : Master) (a : Nat) (bs : List Byte) : (memWrite s m a bs).rest = s.rest := by
  cases m <;> rfl

@[simp] theorem fire_rest (s : State) (m : Master) (v : Nat) : (fire s m v).rest = s.rest := by
  unfold fire; dsimp only; (repeat' split) <;> simp

@[simp] theorem signal_rest (s : State) (m : Master) (v : Nat) : (signal s m v).rest = s.rest := by
  unfold signal; dsimp only; split <;> simp

@[simp] theorem ringPut_rest (s : State) (m : Master) (n : Nat) (i : Bool) (e : Bool → List Byte) :
    (ringPut s m n i e).rest = s.rest := by
  unfold ringPut; dsimp only; split <;> simp

@[simp] theorem eventTo_rest (s : State) (m : Master) (n c o d : Nat) : (eventTo s m n c o d).rest = s.rest := by
  unfold eventTo; split <;> simp

@[simp] theorem raiseZero_rest (s t : State) (m : Master) : (raiseZero s t m).rest = t.rest := by
  unfold raiseZero; dsimp only; (repeat' split) <;> simp

@[simp] theorem postTo_rest (s : State) (c o d : Nat) (m : Master) : (postTo s c o d m).rest = s.rest := by
  unfold postTo; dsimp only; (repeat' split) <;> simp

@[simp] theorem postAll_rest (s : State) (c o d : Nat) : (postAll s c o d).rest = s.rest := by simp [postAll]

@[simp] theorem winEvent_rest (s : State) (c k d lo len n : Nat) : (winEvent s c k d lo len n).rest = s.rest := rfl

theorem rest_foldl {α : Type} (f : State → α → State) (h : ∀ t a, (f t a).rest = t.rest) (l : List α) (s : State) :
    (l.foldl f s).rest = s.rest := by
  induction l generalizing s with
  | nil => rfl
  | cons a l ih => simp [ih, h]

@[simp] theorem winFlush_rest (s : State) : (winFlush s).rest = s.rest := by
  unfold winFlush; dsimp only
  rw [rest_foldl _ (fun t w => postAll_rest _ _ _ _)]; rfl

@[simp] theorem eventsLost_rest (s : State) (m : Master) (n : Nat) : (eventsLost s m n).rest = s.rest := by
  unfold eventsLost; dsimp only; split <;> simp

@[simp] theorem complete_rest (s : State) (o : Order) (st d : Nat) : (complete s o st d).rest = s.rest := by
  unfold complete; dsimp only; (repeat' split) <;> simp

@[simp] theorem completeAll_rest (s : State) (os : List Order) (st d : Nat) : (completeAll s os st d).rest = s.rest :=
  rest_foldl _ (fun _ _ => complete_rest _ _ _ _) _ _

@[simp] theorem dropRunning_rest (s : State) (r : Running) : (dropRunning s r).rest = s.rest := rfl

@[simp] theorem postError_rest (s : State) (g i : Nat) (b : Bool) (r : ErrRec) : (postError s g i b r).rest = s.rest := by
  simp [postError]

end Sys2Proof.Machine
end

