-- ==== Sys2Proof/Tests/Slice0.lean ====
section
/-! SUPPORT. Tests: terms that WellFormed refuses, small steps, and states that meet the statements' hypotheses. -/

set_option Elab.async false
set_option linter.unusedVariables false

namespace Sys2Proof.Tests
open Machine

set_option exponentiation.threshold 2048

/-- An order of H0 with every field zero. -/
def order0 : Order :=
  { master := .h0, ring := 0, index := 0, flags := 0, tag := 0, rsvd := 0, object := 0, ownGen := 0, resultAddr := 0,
    payload := 0, data := .later, resultOk := true }

/-- H0 owner at generation 0, in SERVICE. -/
def owned : State :=
  (State.reset.updOwn fun w => { w with owner := some .h0, leaseValid := true }).updMode fun m =>
    { m with mode := .service, ready := true }

/-- H0 attached with a command ring 0, its completion ring 1 and an event ring 2. -/
def withRings : State :=
  let a := owned.updHost fun h => { h with ports := { h.ports with h0 := { h.ports.h0 with linkUp := true, busMaster := true } } }
  let b := updRing a .h0 0 fun r => { r with enable := true, cmpl := 1, host := 1 }
  let c := updRing b .h0 1 fun r => { r with enable := true, type := 1, baseLo := 0x1000 }
  updRing c .h0 2 fun r => { r with enable := true, type := 2, baseLo := 0x2000 }

/-- The event ring full. -/
def fullRing : State := updRing withRings .h0 2 fun r => { r with dev := 63 }

/-- M0 attached, with no ring. -/
def withM0 : State := owned.updHost fun h => { h with m0Addr := some 0x10 }

/-- A NOP as ring 0 brings it. -/
def fetched : Order := order0

/-- Another elapsed time. -/
def setNow (s : State) (n : Nat) : State := s.updTb fun b => { b with now := n }

/-- H0 owner at generation 0, in another mode, with READY. -/
def inMode (m : Mode) : State := owned.updMode fun x => { x with mode := m }

/-- A native port 0 of one lane, the spare port of engine 0, its spare standing by. -/
def sparing : State := owned.updOpt fun x =>
  { x with ports := [(0, some ⟨0, 2⟩)], engines := [(0, { Engine.reset with spareState := 2, sparePort := some 0 })],
           lanes := [(0, { Lane.reset 0 with ll := some 0 })] }

/-- Lane 0 spared, the failed lane in lock since time 0. -/
def spared : State := setNow (owned.updOpt fun x =>
  { x with engines := [(0, { Engine.reset with spared := some 0, sparePort := some 0, revertLockSince := some 0 })] }) 10000000

/-- The log holds one closed block, not signed. -/
def oneBlock : State := owned.updLog fun l => { l with blocks := [⟨0, 0, none, [], 3⟩] }

/-- An order of H0 with an inline payload. -/
def st (object payload : Nat) : Order := { order0 with object := BitVec.ofNat 32 object, payload := BitVec.ofNat 320 payload }

/-- The same, with a result. -/
def rd (object payload : Nat) : Order := { st object payload with resultAddr := 0x40 }

/-- An order of H0 with a pointer payload that is here. -/
def pt (object : Nat) (bs : List Byte) : Order :=
  { st object (bs.length * 2 ^ 64) with flags := 1, data := .bytes bs }

/-- An offer to M0 that lapses at 1 ns. -/
def offered : State := withM0.updOwn fun w => { w with offer := some ⟨.m0, 1⟩ }

/-- A lease of one second with nothing left. -/
def leaseRunning : State := owned.updOwn fun w => { w with leaseLen := 1000000000 }


/-- An instruction of lathe 0 with every field zero. -/
def insn0 : LInsn :=
  { lathe := 0, opc := 0, fn := 0, rd := 0, ra := 0, rb := 0, imm := 0, useImm := false, lo := 0, len := 0, width := 0, sel := 0,
    flag := false, badFn := false, stall := 0, cycles := [], upset := .none }

/-- A packet of 64 bytes from port 0. -/
def pkt0 : Pkt :=
  { id := 0, port := 0, frame := List.replicate 64 0, len0 := 64, head := List.replicate 64 0, inDt := 0, arrSeq := 0,
    hv := List.replicate 64 0, ver := 0, dec := Decision.reset, diverged := false, unlocked := false, rx := none, tx := none,
    escTag := 0, esc := 0, sat := false, lathe := 0, prog := 0, late := false, origin := none }

/-- Its run on lathe 0: a budget of 1,600 microcycles and a window of one page. -/
def run0 : Run :=
  { dealt := ⟨pkt0, 0, 0⟩, bank := false, pc := 3, executed := 0, entry := BitVec.ofNat 64 (100 * 2 ^ 16 + 2 ^ 48), edited := false,
    finished := false }

/-- Lathe 0 running it from a program of ten words. -/
def running : State := owned.updLat fun x =>
  { x with lathes := [(0, { Lathe.reset with cur := some run0 })],
           bankA := { x.bankA with state := 2, textWords := 10, dataBytes := 64 } }
theorem witness_idle : State.reset.pending = [] := rfl

theorem witness_touchesOwnership : Instr.touchesOwnership .leaseLow = true ∧ Instr.touchesOwnership .haltEntryDone = false :=
  ⟨rfl, rfl⟩

theorem witness_sane : State.reset.own.Sane ∧ ∃ t, step State.reset = .next t :=
  ⟨⟨rfl, nofun, nofun, nofun, nofun, by decide⟩, tick State.reset, rfl⟩

theorem witness_m0Window : SMap.wf (fun _ => (0 : Byte)) (memWrite State.reset .m0 0x7FFE [1, 2, 3]).host.m0Win = true ∧
    m0Byte (memWrite State.reset .m0 0x7FFE [1, 2, 3]) 0x7FFF = 2 ∧
    m0Byte (memWrite State.reset .m0 0x7FFE [1, 2, 3]) 0x8000 = 0 ∧ Master.h0 ≠ Master.m0 := by decide

theorem witness_malformed :
    (Instr.portSet { order0 with rsvd := 1 }).workOrder = some (0x4401, { order0 with rsvd := 1 }) ∧
    ({ order0 with rsvd := 1 } : Order).rsvd ≠ 0 ∧ awaitOf State.reset { order0 with rsvd := 1 } = none ∧
    fld ({ order0 with flags := 0x10 } : Order).flags 4 12 ≠ 0 ∧
    headForm (readForm 0x0201 [] 0 [] 0 modesAll) { order0 with object := 1 } = false := by decide

theorem witness_noOwner : (Instr.laneSet order0).workOrder = some (0x4402, order0) ∧ clsOf 0x4402 = .mutating ∧
    awaitOf State.reset order0 = none ∧ State.reset.own.owner ≠ some order0.master ∧
    owned.own.owner = some order0.master ∧ ({ order0 with ownGen := 5 } : Order).ownGen ≠ owned.own.gen ∧
    awaitOf owned { order0 with ownGen := 5 } = none := by decide

theorem witness_fetch : (Instr.nop fetched).workOrder = some (0x0201, fetched) ∧ Master.h0 ≠ Master.m0 ∧
    fetchReady withRings .h0 0 = true ∧ (0x0201 : BitVec 512).extractLsb' 0 16 = 0x0201 ∧
    orderOfBits .h0 0 (getRing withRings .h0 0).dev 0x0201 .later true = fetched ∧
    mustWait withRings fetched 0x0201 = false := by decide

/-- M0 with a command ring 0 whose completions go to its ring 1, an order written in its window's first entry. -/
def m0Fetch : State :=
  let a := updRing withM0 .m0 0 fun r => { r with enable := true, cmpl := 1, host := 1 }
  memWrite (updRing a .m0 1 fun r => { r with enable := true, type := 1, baseLo := 0x1000 }) .m0 0 [0x01, 0x02]
/-- An order of ring 0 still runs, so that a fenced one waits. -/
def fenced : State := withRings.updHost fun h => { h with running := [⟨0x4404, order0, 0, 0⟩] }
theorem witness_fetchCompletes : fetchReady m0Fetch .m0 0 = true ∧
    (m0Order m0Fetch 0).extractLsb' 0 16 = 0x0201 ∧ bit (m0Order m0Fetch 0) 16 = false ∧
    mustWait m0Fetch (orderOfBits .m0 0 (getRing m0Fetch .m0 0).dev (m0Order m0Fetch 0) .later true) 0x0201 = false ∧
    accepted (readForm 0x0201 [] 0 [] 0 modesAll)
      (updRing m0Fetch .m0 0 fun r => { r with dev := r.dev + 1, ownLast := false })
      (orderOfBits .m0 0 (getRing m0Fetch .m0 0).dev (m0Order m0Fetch 0) .later true) = true ∧
    fetchReady State.reset .h0 0 = false ∧
    fetchReady fenced .h0 0 = true ∧
    mustWait fenced (orderOfBits .h0 0 (getRing fenced .h0 0).dev 0x00020201 .later true) 0x0201 = true ∧
    accepted (readForm 0x0201 [] 0 [] 0 modesAll)
      (updRing withRings .h0 0 fun r => { r with dev := r.dev + 1, ownLast := false }) fetched = true := by decide

theorem witness_completion : cmplDue order0 0 = true ∧ cmplDue { order0 with flags := 4 } 0 = false ∧
    (getRing withRings order0.master order0.ring).cmpl = 1 ∧ cmplReady (getRing withRings .h0 1) = true ∧
    ringFull (getRing withRings .h0 1) = false ∧
    ringFull { getRing withRings .h0 1 with dev := 63 } = true ∧
    cmplReady (getRing State.reset .h0 0) = false := by decide

theorem witness_event : attached State.reset .h0 = false ∧ attached withRings .h0 = true ∧
    eventRing withRings .h0 = some 2 ∧ ringFull (getRing withRings .h0 2) = false ∧ vectorZeroEvent 0x0204 = false ∧
    vectorZeroEvent 0x1001 = true ∧ attached withM0 .m0 = true ∧ eventRing withM0 .m0 = none ∧
    eventRing fullRing .h0 = some 2 ∧ ringFull (getRing fullRing .h0 2) = true ∧ attached fullRing .h0 = true ∧
    (getRing withRings .h0 2).irqEn = false ∧
    (getRing (updRing withRings .h0 2 fun r => { r with irqEn := true }) .h0 2).irqEn = true ∧
    ringVector .h0 (getRing withRings .h0 2) = 0 := by decide

theorem witness_ownershipOrders :
    accepted (readForm 0x0201 [] 0 [] 0 modesAll) State.reset order0 = true ∧
    accepted (readForm 0x0202 [0x02] 0 [] 0 modesAll) State.reset { order0 with object := 0x02000000 } = true ∧
    accepted (readForm 0x8201 [0x02] 0 [(0, 2), (16, 16)] 0 modesAll) withM0
      { order0 with object := 0x02000000, payload := 0x27100002 } = true ∧
    ({ order0 with payload := 0x27100002 } : Order).f 0 2 = 2 ∧ ({ order0 with payload := 0x27100002 } : Order).f 16 16 = 10000 ∧
    withM0.own.owner ≠ some .m0 ∧ attached withM0 .m0 = true ∧ withM0.own.offer = none ∧
    headForm (readForm 0x8202 [0x02] 0 [(0, 2)] 0 modesAll) { order0 with master := .m0, object := 0x02000000 } = true ∧
    offered.own.offer = some ⟨.m0, 1⟩ ∧ offered.tb.now < 1 ∧ offered.own.drain = none ∧ offered.own.owner = some .h0 ∧
    accepted (readForm 0x8203 [0x02] 0 [] 0 modesAll) offered { order0 with object := 0x02000000 } = true ∧
    accepted (readForm 0x8204 [0x02] 0 [] 0 modesAll) owned { order0 with object := 0x02000000 } = true ∧
    owned.own.offer = none := by decide

theorem witness_lease : barOk withM0 .m0 = true ∧ barOk (disown withM0) .m0 = true ∧ barOk State.reset .h0 = false ∧
    claimResult (withM0.updOwn fun w => { w with leaseValid := false, drain := some ⟨.expiry, .h0, 0⟩ }) .m0 0 = 4 ∧
    claimResult (disown withM0) .m0 7 = 3 ∧ withM0.own.owner ≠ some .m0 ∧ attached withM0 .m0 = true ∧ (disown withM0).own.leaseValid = false ∧ attached (disown withM0) .m0 = true ∧
    (disown withM0).own.drain = none ∧ (1 : Word) = (disown withM0).own.gen ∧ claimResult State.reset .h0 0 = 7 ∧
    claimResult withM0 .m0 0 = 2 ∧ owned.own.owner = some .h0 ∧ owned.own.owner ≠ some .h1 ∧ owned.own.lowPosted = false ∧
    owned.own.leaseEnd ≤ owned.tb.now ∧ remainMs leaseRunning * 4 < leaseRunning.own.leaseLen / 1000000 := by decide

theorem witness_cuts : drainWaits owned .h0 = false ∧
    (startDrain owned .expiry .h0).own.drain = some ⟨.expiry, .h0, 0⟩ ∧ drainWaits (startDrain owned .expiry .h0) .h0 = false ∧
    (startDrain offered (.accept order0) .h0).own.drain = some ⟨.accept order0, .h0, 0⟩ ∧
    (startDrain owned (.release order0) .h0).own.drain = some ⟨.release order0, .h0, 0⟩ ∧
    (setNow offered 1).own.offer = some ⟨.m0, 1⟩ ∧ 1 ≤ (setNow offered 1).tb.now := by decide

theorem wit_readStart : let o : Order := st 0x03000000 0; let s : State := State.reset;
    accepted (readForm 0x0301 [0x03] 0 [] 0 modesAll) s o = true := by decide

theorem wit_start1 : let o : Order := st 0x03000000 0; let s : State := owned;
    headForm (setForm 0x4301 [0x03] 0 [(0, 1)] modesAll false) o = true ∧ s.own.owner = some o.master ∧ s.own.drain = none ∧ o.ownGen = s.own.gen ∧ mutatingRuns s o.master = false ∧ s.mode.haltEntry = false ∧ s.mode.active = false ∧ s.mode.pendCold = none ∧ s.mode.restore = none ∧ o.b 0 = false ∧ s.mode.mode ≠ .dormant ∧ s.mode.mode ≠ .halt := by decide

theorem wit_start2 : let o : Order := st 0x03000000 1; let s : State := owned.updMode fun m => { m with forceCold := true };
    headForm (setForm 0x4301 [0x03] 0 [(0, 1)] modesAll false) o = true ∧ s.own.owner = some o.master ∧ s.own.drain = none ∧ o.ownGen = s.own.gen ∧ mutatingRuns s o.master = false ∧ s.mode.haltEntry = false ∧ s.mode.active = false ∧ s.mode.pendCold = none ∧ s.mode.restore = none ∧ o.b 0 = true ∧ s.mode.forceCold = true ∧ s.mode.mode ≠ .dormant ∧ s.mode.mode ≠ .halt := by decide

theorem wit_start3 : let o : Order := st 0x03000000 1; let s : State := owned.updFp fun f => { f with committedValid := true };
    headForm (setForm 0x4301 [0x03] 0 [(0, 1)] modesAll false) o = true ∧ s.own.owner = some o.master ∧ s.own.drain = none ∧ o.ownGen = s.own.gen ∧ mutatingRuns s o.master = false ∧ s.mode.haltEntry = false ∧ s.mode.active = false ∧ s.mode.pendCold = none ∧ s.mode.restore = none ∧ o.b 0 = true ∧ s.mode.forceCold = false ∧ (s.mode.mode = .service ∨ (s.mode.mode = .prepare ∧ s.mode.warmFailPrepare = true)) ∧ s.fp.committedValid = true ∧ s.fp.diverged = false := by decide

theorem wit_start4 : let o : Order := st 0x03000000 0; let s : State := inMode .halt;
    headForm (setForm 0x4301 [0x03] 0 [(0, 1)] modesAll false) o = true ∧ s.own.owner = some o.master ∧ s.own.drain = none ∧ o.ownGen = s.own.gen ∧ mutatingRuns s o.master = false ∧ s.mode.haltEntry = false ∧ s.mode.active = false ∧ s.mode.pendCold = none ∧ s.mode.restore = none ∧ o.b 0 = false ∧ s.mode.mode = .halt ∧ haltCause s = false := by decide

theorem wit_start_prepare : ((inMode .prepare).updMode fun m => { m with warmFailPrepare := true }).mode.warmFailPrepare = true := by decide
theorem wit_enterService : let o : Order := st 0x03000000 0; let s : State := (inMode .prepare).updFp fun f => { f with committedValid := true };
    accepted (setForm 0x4302 [0x03] 0 [] [.prepare] false) s o = true ∧ s.mode.ready = true ∧ s.fp.committedValid = true := by decide

theorem wit_enterProbe : let o : Order := st 0x03000000 0; let s : State := owned;
    accepted (setForm 0x4303 [0x03] 0 [] modesSet false) s o = true ∧ s.mode.ready = true := by decide


theorem wit_readLane : let o : Order := rd 0x4100021F 0; let s : State := owned;
    accepted (readForm 0x0401 [0x41] 0xFFFFFF [] 64 modesOn) s o = true ∧ noLane o = false := by decide

theorem wit_readOe : let o : Order := st 0x4200001F 0; let s : State := owned;
    accepted (readForm 0x0402 [0x42] 0xFFFFFF [] 0 modesOn) s o = true ∧ o.inst < 32 := by decide

theorem wit_eyeScan : let o : Order := rd 0x41000000 (packN [(16, 4, 1), (32, 4, 1), (36, 6, 40)]); let s : State := owned;
    let g := getEng s (o.inst / 17)
    accepted (readForm 0x0403 [0x41] 0xFFFFFF [(0, 42)] 16 [.prepare, .service, .coast, .probe]) s o = true ∧ noLane o = false ∧ signed 7 (o.f 2 7) ≤ signed 7 (o.f 9 7) ∧ signed 6 (o.f 20 6) ≤ signed 6 (o.f 26 6) ∧ o.f 16 4 ≠ 0 ∧ o.f 32 4 ≠ 0 ∧ 20 ≤ o.f 36 6 ∧ o.f 36 6 ≤ 40 ∧ (g.scans.any (fun x => x.pl == o.inst)) = false ∧ g.scans.length < 4 := by decide

theorem wit_rawCapture : let o : Order := rd 0x41000000 4096; let s : State := (inMode .probe).updOpt fun x => { x with lanes := [(0, { Lane.reset 0 with role := 5 })] };
    let w := o.f 0 16
    accepted (readForm 0x0404 [0x41] 0xFFFFFF [(0, 16)] 16 [.probe]) s o = true ∧ noLane o = false ∧ (w % 4 != 0) = false ∧ 4 ≤ w ∧ w ≤ 4096 ∧ ((getLane s o.inst).role != 5) = false := by decide

theorem wit_portSet : let o : Order := st 0x43000000 1; let s : State := owned;
    let n := o.inst
    let w := 2 ^ o.f 1 2
    accepted (setForm 0x4401 [0x43] 0xFFFFFF [(0, 5)] [.prepare, .service] true) s o = true ∧ n < 512 ∧ o.f 3 2 ≠ 3 ∧ (o.f 3 2 == 2 && Config.codeS) = false ∧ (if portSetIdle s o then none else if o.b 0 && n % w != 0 then some 0x8401 else if o.b 0 && (List.range w).any (fun i => laneInUse s n (n + i)) then some 0x8402 else if portExists s n && gatewayInUse s n then some 0x840A else none) = none := by decide

theorem wit_laneSet : let o : Order := st 0x41000000 7; let s : State := owned;
    let l := getLane s o.inst
    accepted (setForm 0x4402 [0x41] 0xFFFFFF [(0, 146)] [.prepare, .service, .probe] true) s o = true ∧ o.f 5 3 ≠ 6 ∧ o.f 5 3 ≠ 7 ∧ (o.b 4 && o.f 144 2 == 2 && Config.codeS) = false ∧ (laneSetProbe o && orderMode s != .probe) = false ∧ noLane o = false ∧ laneSetFixed s o = false ∧ (o.b 4 && o.f 144 2 == 3) = false ∧ (o.b 4 && (l.role == 1 || l.role == 2 || l.role == 3 || l.role == 4)) = false := by decide

theorem wit_recalibrate : let o : Order := st 0x41000000 0; let s : State := owned;
    accepted (setForm 0x4403 [0x41] 0xFFFFFF [] [.prepare, .service, .probe] true) s o = true ∧ noLane o = false ∧ laneBusy s o.inst = false ∧ (getEng s (o.inst / 17)).lowLatch = false := by decide

theorem wit_spare : let o : Order := st 0x41000000 0; let s : State := sparing;
    let e := o.inst / 17
    accepted (setForm 0x4404 [0x41] 0xFFFFFF [] [.service] false) s o = true ∧ noLane o = false ∧ spareReady s e o.inst = true ∧ laneBusy s o.inst = false ∧ (getEng s e).lowLatch = false := by decide

theorem wit_unspare : let o : Order := st 0x42000000 0; let s : State := spared;
    let g := getEng s o.inst
    accepted (setForm 0x4405 [0x42] 0xFFFFFF [] [.service] false) s o = true ∧ o.inst < 32 ∧ g.spared.isSome = true ∧ g.hs.isSome = false ∧ revertReady s g = true := by decide

theorem wit_oeSet : let o : Order := st 0x42000000 (packN [(0, 9, 0x1FF), (10, 10, 10), (20, 10, 5), (30, 10, 50), (40, 4, 2), (44, 12, 1)]); let s : State := owned;
    let e := o.inst
    let g := getEng s e
    let change := sparePortOf o != g.sparePort
    let sl := getLane s (sparePL e)
    accepted (setForm 0x4406 [0x42] 0xFFFFFF [(0, 56)] [.prepare, .service] true) s o = true ∧ o.inst < 32 ∧ ((sparePortOf o).isSome && Config.codeS) = false ∧ oeSetBad o = false ∧ (change && g.spared.isSome) = false ∧ ((sparePortOf o).isSome && (sl.role == 3 || sl.role == 4 || sl.role == 5)) = false := by decide

theorem wit_xpSet1 : let o : Order := st 0x44000000 (2 ^ 320 - 1); let s : State := owned;
    let src := o.inst % 1024
    let rate := o.inst / 1024
    let ds := xpDests o
    let old := getXp s src
    accepted (setForm 0x4407 [0x44] 0xFFF [(0, 320)] [.prepare, .service] true) s o = true ∧ rate ≠ 3 ∧ (rate == 2 && Config.codeS) = false ∧ src < 544 ∧ (ds.any (fun d => decide (544 ≤ d))) = false ∧ noRepeat ds = true ∧ (!ds.isEmpty && (!xpFree s src src || ds.any (fun d => !xpFree s src d || d == src))) = false ∧ (match old with | some x => x.rate != rate && ds.any (fun d => x.dests.contains d) | none => false) = false ∧ ds.isEmpty = true := by decide

theorem wit_xpSet2 : let o : Order := st 0x44000000 (2 ^ 320 - 1024 + 1); let s : State := owned;
    let src := o.inst % 1024
    let rate := o.inst / 1024
    let ds := xpDests o
    let old := getXp s src
    accepted (setForm 0x4407 [0x44] 0xFFF [(0, 320)] [.prepare, .service] true) s o = true ∧ rate ≠ 3 ∧ (rate == 2 && Config.codeS) = false ∧ src < 544 ∧ (ds.any (fun d => decide (544 ≤ d))) = false ∧ noRepeat ds = true ∧ (!ds.isEmpty && (!xpFree s src src || ds.any (fun d => !xpFree s src d || d == src))) = false ∧ (match old with | some x => x.rate != rate && ds.any (fun d => x.dests.contains d) | none => false) = false ∧ ds.isEmpty = false := by decide

theorem wit_elsXfer : let o : Order := st 0x42000000 (8 * 2 ^ 16); let s : State := owned;
    accepted (setForm 0x4408 [0x42] 0 [(0, 84)] [.prepare, .service, .probe] true) s o = true ∧ 1 ≤ o.f 16 4 ∧ o.f 16 4 ≤ 8 := by decide


theorem wit_readPcs : let o : Order := rd 0x51000000 0; let s : State := sparing;
    accepted (readForm 0x0501 [0x51] 0xFFFFFF [] 128 modesOn) s o = true ∧ portExists s o.inst = true := by decide

theorem wit_readPm : let o : Order := rd 0x51000000 (packN [(8, 8, 0), (16, 8, 97)]); let s : State := sparing;
    let first := o.f 8 8
    let count := o.f 16 8
    accepted (readForm 0x0502 [0x51] 0xFFFFFF [(0, 1), (8, 16)] 64 modesOn) s o = true ∧ portExists s o.inst = true ∧ 1 ≤ count ∧ count ≤ 97 ∧ first + count ≤ (if o.b 0 then 2 else 97) := by decide

theorem wit_readNeighbour : let o : Order := rd 0x51000000 0; let s : State := sparing;
    accepted (readForm 0x0503 [0x51] 0xFFFFFF [] 64 modesOn) s o = true ∧ portExists s o.inst = true := by decide

set_option maxRecDepth 10000 in
theorem wit_pcsSet : let o : Order := st 0x51000000 (packN [(80, 20, 0), (120, 20, 0), (160, 20, 0), (200, 20, 1000), (220, 20, 1000), (240, 8, 1), (248, 8, 1), (256, 4, 9), (262, 14, 1518)]); let s : State := sparing;
    accepted (setForm 0x4501 [0x51] 0xFFFFFF [(0, 261), (262, 24)] [.prepare, .service] true) s o = true ∧ portExists s o.inst = true ∧ pcsSetBad (pcsSetFields o (getPcsSet s o.inst) s.tb.now) = false := by decide

theorem wit_defectAck : let o : Order := st 0x51000000 127; let s : State := sparing;
    accepted (setForm 0x4502 [0x51] 0xFFFFFF [(0, 7)] [.prepare, .service, .coast] true) s o = true ∧ portExists s o.inst = true := by decide

theorem wit_readTb : let o : Order := rd 0x61000000 0; let s : State := owned;
    accepted (readForm 0x0601 [0x61] 0 [] 64 modesOn) s o = true := by decide

theorem wit_readLtt : let o : Order := rd 0x62000000 0; let s : State := sparing;
    accepted (readForm 0x0602 [0x62] 0xFFFFFF [] 64 modesOn) s o = true ∧ portExists s o.inst = true := by decide

set_option maxRecDepth 10000 in
theorem wit_readLogBlock : let o : Order := rd 0x63000000 0; let s : State := oneBlock; let b : Block := ⟨0, 0, none, [], 3⟩;
    accepted (readForm 0x0603 [0x63] 0 [(0, 64)] 262400 modesOn) s o = true ∧ heldBlock s (o.f 0 64) = some b := by decide

theorem wit_readCert : let o : Order := rd 0x61000000 0; let s : State := owned;
    accepted (readForm 0x0604 [0x61] 0 [] 2048 modesOn) s o = true := by decide

theorem wit_tbSet : let o : Order := st 0x61000000 (packN [(13, 12, 3600), (25, 20, 100), (45, 20, 100), (98, 8, 24)]); let s : State := owned;
    accepted (setForm 0x4601 [0x61] 0 [(0, 106)] modesOn false) s o = true ∧ o.f 0 3 ≤ 3 ∧ (o.f 0 3 == 3 && Config.codeS) = false ∧ tbSetBad (tbSetOf o) = false ∧ (o.f 0 3 == 3 && !isNative s (o.f 4 9)) = false := by decide

theorem wit_tbAdjust : let o : Order := st 0x61000000 0; let s : State := owned;
    let k := o.f 0 2
    let freq := signed 32 (o.f 32 32)
    let off := signed 64 (o.f 64 64)
    accepted (setForm 0x4602 [0x61] 0 [(0, 2), (32, 32), (64, 64), (128, 48)] modesOn false) s o = true ∧ (k == 0 && decide (50000000 < freq.natAbs)) = false ∧ (k == 2 && !stepFits s off) = false ∧ ¬ (s.tb.set.source ≠ 0 ∧ ¬ (k = 3 ∧ s.tb.set.source = 1)) := by decide

theorem wit_ptpPortSet : let o : Order := st 0x62000000 16; let s : State := sparing;
    accepted (setForm 0x4603 [0x62] 0xFFFFFF [(0, 44)] modesOn false) s o = true ∧ o.f 0 2 ≠ 3 ∧ portExists s o.inst = true ∧ 1 ≤ o.f 4 8 := by decide

theorem wit_lttSet : let o : Order := st 0x62000000 1; let s : State := sparing;
    accepted (setForm 0x4604 [0x62] 0xFFFFFF [(0, 33)] modesOn false) s o = true ∧ portExists s o.inst = true ∧ isNative s o.inst = true := by decide

theorem wit_logSet : let o : Order := st 0x63000000 (packN [(0, 15, 16), (16, 16, 60000)]); let s : State := owned;
    accepted (setForm 0x4605 [0x63] 0 [(0, 32)] modesOn false) s o = true ∧ 16 ≤ o.f 0 15 ∧ o.f 0 15 ≤ 16383 ∧ 10 ≤ o.f 16 16 ∧ o.f 16 16 ≤ 60000 := by decide

theorem wit_logClose : let o : Order := st 0x63000000 0; let s : State := owned;
    accepted (setForm 0x4606 [0x63] 0 [] modesOn false) s o = true := by decide

theorem wit_logRelease : let o : Order := st 0x63000000 0; let s : State := oneBlock;
    accepted (setForm 0x4607 [0x63] 0 [(0, 64)] modesOn false) s o = true ∧ (heldBlock s (o.f 0 64)).isSome = true := by decide


/-- Version 1 staged, its fingerprint zero. -/
def staged : State :=
  (owned.updVer fun x => { x with slots := [⟨2, 0, 0, none, 0⟩, ⟨1, 1, 0, none, 0⟩, .free, .free, .free] }).updVer fun x =>
    { x with stagedFp := versionElement 0 - versionElement 1 + bankElement (selDigest owned none) - bankElement (selDigest owned none) }

theorem wit_readVersions : let o : Order := rd 0x74000000 0; let s : State := owned;
    accepted (readForm 0x0701 [0x74] 0 [] 128 modesOn) s o = true := by decide

theorem wit_readParser : let o : Order := rd 0x710000FF 0; let s : State := owned;
    accepted (readForm 0x0702 [0x71] 0x8000FF [] 64 modesOn) s o = true := by decide

theorem wit_readStage : let o : Order := rd 0x73800017 0; let s : State := owned;
    accepted (readForm 0x0703 [0x73] 0x80001F [] 128 modesOn) s o = true ∧ o.inst % 32 ≤ 23 := by decide

set_option maxRecDepth 10000 in
theorem wit_parserSet : let o : Order := st 0x71800000 (0x101 * 2 ^ 174); let s : State := owned;
    let d := directBit o
    accepted (setForm 0x4701 [0x71] 0x8000FF parserFields modesSet true) s o = true ∧ versionCheck s d = none ∧ parserBad o.payload = false := by decide

theorem wit_portParseSet : let o : Order := st 0x720001FF (0x101 + 0x101 * 2 ^ 9); let s : State := staged;
    let d := directBit o
    accepted (setForm 0x4702 [0x72] 0x8001FF [(0, 19)] modesSet true) s o = true ∧ versionCheck s d = none ∧ o.f 0 9 ≤ 0x101 ∧ o.f 9 9 ≤ 0x101 := by decide

set_option maxRecDepth 10000 in
theorem wit_stageSet : let o : Order := pt 0x73000000 (List.replicate 128 0); let s : State := staged; let bs : List Byte := List.replicate 128 0;
    let d := directBit o
    let n := o.inst % 32
    let word := fun (bs : List Byte) => BitVec.ofNat 1024 (leNat (padTo 128 bs))
    accepted (ptrForm 0x4703 [0x73] 0x80001F modesSet true) s o = true ∧ ptrLen o = 128 ∧ versionCheck s d = none ∧ n ≤ 23 ∧ payloadHere s o bs = true ∧ onlyFields (word bs).toNat stageFields = true ∧ stageBad s n (targetSeq s d) (word bs) = false := by decide

theorem wit_stageOpen : let o : Order := st 0x74000000 0; let s : State := owned;
    accepted (setForm 0x4704 [0x74] 0 [] modesSet true) s o = true ∧ (stagedSeq s).isSome = false ∧ (slotIn s 0).isSome = true := by decide

theorem wit_commit_fingerprint :
    stagedFingerprint staged (commitBank staged (st 0x74000000 (2 ^ 226))) = BitVec.ofNat 128 ((st 0x74000000 (2 ^ 226)).f 0 128) := by
  have h1 : commitBank staged (st 0x74000000 (2 ^ 226)) = none := by decide
  have h2 : (st 0x74000000 (2 ^ 226)).f 0 128 = 0 := by decide
  rw [h1, h2]
  show versionElement 0 - versionElement 1 + bankElement (selDigest owned none) - bankElement (selDigest owned none) -
    versionElement 0 + versionElement 1 - bankElement (selDigest owned none) + bankElement (selDigest owned none) = 0
  generalize versionElement 0 = a, versionElement 1 = b, bankElement (selDigest owned none) = c
  grind
theorem wit_commit : let o : Order := st 0x74000000 (2 ^ 226); let s : State := staged;
    accepted (setForm 0x4705 [0x74] 0 [(0, 227)] modesSet true) s o = true ∧
    (o.b 128 = true → dtOk (o.f 129 96) = true ∧ dtCount (o.f 129 96) ≤ s.tb.dt + dtSec) ∧ (stagedSeq s).isSome = true ∧
    s.ver.pend = none ∧ stagedFingerprint s (commitBank s o) = BitVec.ofNat 128 (o.f 0 128) ∧
    (∀ b, commitBank s o = some b → (bankOf s b).state = 2) :=
  ⟨by decide, by decide, by decide, by decide, wit_commit_fingerprint, by decide⟩

theorem wit_stageDiscard : let o : Order := st 0x74000000 0; let s : State := staged;
    accepted (setForm 0x4706 [0x74] 0 [] modesSet true) s o = true ∧ (stagedSeq s).isSome = true ∧ s.ver.pend.isSome = false := by decide

theorem wit_readHostmap : let o : Order := st 0x7500003F 0; let s : State := owned;
    accepted (readForm 0x0704 [0x75] 0x3F [] 0 modesOn) s o = true := by decide

theorem wit_hostmapSet : let o : Order := st 0x7500003F 2; let s : State := owned;
    accepted (setForm 0x4707 [0x75] 0x3F [(0, 11)] modesSet true) s o = true ∧ o.f 0 2 ≠ 3 := by decide

theorem wit_readSprayRx : let o : Order := st 0x77000000 0; let s : State := owned;
    accepted (readForm 0x0705 [0x77] 0 [] 0 modesOn) s o = true := by decide

theorem wit_spraySet : let o : Order := st 0x77000000 (packN [(17, 12, 1), (29, 16, 10)]); let s : State := owned;
    accepted (setForm 0x4709 [0x77] 0 [(0, 45)] modesSet true) s o = true ∧ o.f 17 12 ≠ 0 ∧ 10 ≤ o.f 29 16 := by decide

theorem wit_sprayGroupSet1 : let o : Order := st 0x78000000 0; let s : State := owned;
    let ms := sprayMembers o
    let fields := (0, 6) :: (List.range (min 16 (o.f 0 5))).map fun m => (6 + 9 * m, 9)
    accepted (setForm 0x470A [0x78] 0x3F [(0, 150)] modesSet true) s o = true ∧ (decide (o.f 0 5 ≤ 16) && !onlyFields o.payload.toNat fields) = false ∧ o.f 0 5 ≤ 16 ∧ ms.length ≤ ms.eraseDups.length ∧ (ms.any (fun n => !portExists s n)) = false ∧ (getGroup s o.inst).waits = false ∧ (getGroup s o.inst).members = ms ∧ (getGroup s o.inst).mode = o.b 5 := by decide

theorem wit_sprayGroupSet2 : let o : Order := st 0x78000000 1; let s : State := sparing;
    let ms := sprayMembers o
    let fields := (0, 6) :: (List.range (min 16 (o.f 0 5))).map fun m => (6 + 9 * m, 9)
    accepted (setForm 0x470A [0x78] 0x3F [(0, 150)] modesSet true) s o = true ∧ (decide (o.f 0 5 ≤ 16) && !onlyFields o.payload.toNat fields) = false ∧ o.f 0 5 ≤ 16 ∧ ms.length ≤ ms.eraseDups.length ∧ (ms.any (fun n => !portExists s n)) = false ∧ (getGroup s o.inst).waits = false ∧ ¬ ((getGroup s o.inst).members = ms ∧ (getGroup s o.inst).mode = o.b 5) := by decide

theorem wit_readMcast : let o : Order := rd 0x79000FFF 0; let s : State := owned;
    accepted (readForm 0x0706 [0x79] 0xFFF [] 128 modesOn) s o = true := by decide

set_option maxRecDepth 10000 in
theorem wit_mcastSet : let o : Order := pt 0x79000FFF (List.replicate 128 0); let s : State := owned; let bs : List Byte := List.replicate 128 0;
    accepted (ptrForm 0x470B [0x79] 0xFFF modesSet true) s o = true ∧ ptrLen o = 128 ∧ payloadHere s o bs = true ∧ onlyFields (leNat (padTo 128 bs)) [(0, 7), (512, 512)] = true := by decide

theorem wit_dealSet : let o : Order := st 0x7600001F 256; let s : State := owned;
    accepted (setForm 0x4708 [0x76] 0x1F [(0, 6), (8, 12)] modesSet true) s o = true ∧ o.f 8 12 ≠ 0 := by decide


/-- Exact-match table 0 with 8-bit keys, LPM table 0 of IPv4 and ACL table 0 with 32-bit keys, in version 0. -/
def tabled : State := owned.updVer fun x => { x with defs := [(16, [(0, 17)]), (32, [(0, 1)]), (48, [(0, 65)])] }

theorem wit_readTables : let o : Order := rd 0x85000000 0; let s : State := owned;
    accepted (readForm 0x0801 [0x85] 0 [] 128 modesOn) s o = true := by decide

set_option maxRecDepth 10000 in
theorem wit_emLookup : let o : Order := st 0x81800000 (0xFF * 2 ^ 136); let s : State := tabled;
    let v := readSeq s o
    let table := o.inst % 16
    accepted (readForm 0x0802 [0x81] 0x80000F [(16, 128)] 0 modesOn) s o = true ∧ tableExists s 1 table v = true ∧ keyFits 128 (tableKeyBits s 1 table v) (o.f 16 128) = true := by decide

set_option maxRecDepth 10000 in
theorem wit_lpmLookup : let o : Order := st 0x82800000 0; let s : State := tabled;
    let v := readSeq s o
    let table := o.inst % 8
    accepted (readForm 0x0803 [0x82] 0x800007 [(32, 128)] 0 modesOn) s o = true ∧ tableExists s 2 table v = true := by decide

theorem wit_tableDump : let o : Order := rd 0x85000000 (2 ^ 26); let s : State := owned;
    let mem := o.f 0 2
    let n := o.f 26 23
    accepted (readForm 0x0804 [0x85] 0 [(0, 49)] 64 modesOn) s o = true ∧ (o.b 2 && s.own.owner != some o.master) = false ∧ 1 ≤ n ∧ n ≤ 4194304 ∧ o.f 3 23 + n ≤ memLocations mem := by decide

set_option maxRecDepth 20000 in
theorem wit_tableDef : let o : Order := st 0x81800000 17; let s : State := owned;
    let d := directBit o
    let m := o.kind - 0x80
    let table := if m = 3 then nfld o.inst 16 4 else if m = 2 then o.inst % 8 else o.inst % 16
    let mask := if m = 3 then 0x8F0000 else if m = 2 then 0x800007 else 0x80000F
    let w := BitVec.ofNat 36 (o.f 0 36)
    accepted (setForm 0x4801 [0x81, 0x82, 0x83] 0x8FFFFF [(0, 36)] modesSet true) s o = true ∧ (o.inst &&& mask != o.inst) = false ∧ versionCheck s d = none ∧ tableDefBad m w = false ∧ tableInUse s m table = false := by decide

theorem wit_emWrite : ∃ t m, let o := st 0x81800000 1; let w := emOrder tabled o.inst o.payload.toNat;
    accepted (setForm 0x4802 [0x81] 0x80000F [(0, 2), (16, 192)] modesSet true) tabled o = true ∧ w.malformed = false ∧
    w.version = none ∧ w.badObject = false ∧ w.badArgument = false ∧ w.run = .ok (t, m) :=
  ⟨_, _, by decide, by decide, by decide, by decide, by decide, rfl⟩
theorem wit_lpmWrite : ∃ t m, let o := st 0x82800000 0; let w := lpmOrder tabled o.inst o.payload.toNat;
    accepted (setForm 0x4803 [0x82] 0x800007 [(0, 10), (32, 149)] modesSet true) tabled o = true ∧ w.malformed = false ∧
    w.version = none ∧ w.badObject = false ∧ w.badArgument = false ∧ w.run = .ok (t, m) :=
  ⟨_, _, by decide, by decide, by decide, by decide, by decide, rfl⟩
theorem wit_actionWrite : ∃ t m, let o := st 0x84800000 (2 ^ 21); let w := actOrder tabled o.inst o.payload.toNat;
    accepted (setForm 0x4805 [0x84] 0x800000 [(0, 23), (64, 192)] modesSet true) tabled o = true ∧ w.malformed = false ∧
    w.version = none ∧ w.badObject = false ∧ w.badArgument = false ∧ w.run = .ok (t, m) :=
  ⟨_, _, by decide, by decide, by decide, by decide, by decide, rfl⟩
set_option maxRecDepth 10000 in
theorem wit_aclWrite : ∃ t m, let bs := List.replicate 192 0; let o := pt 0x83800000 bs; let w := aclOrder tabled o.inst bs;
    accepted (ptrForm 0x4804 [0x83] 0x8FFFFF modesSet true) tabled o = true ∧ ptrLen o = 192 ∧ payloadHere tabled o bs = true ∧
    versionCheck tabled (directBit o) = none ∧
    tableExists tabled 3 (nfld o.inst 16 4) (targetSeq tabled (directBit o)) = true ∧
    w.malformed = false ∧ w.version = none ∧ w.badObject = false ∧ w.badArgument = false ∧ w.run = .ok (t, m) :=
  ⟨_, _, by decide, by decide, by decide, by decide, by decide, by decide, by decide, by decide, by decide, rfl⟩
set_option maxRecDepth 10000 in
theorem wit_tableBulk : let o : Order := pt 0x85000000 (List.replicate 64 0); let s : State := owned; let bs : List Byte := List.replicate 64 0;
    accepted (ptrForm 0x4806 [0x85] 0 modesSet true) s o = true ∧ payloadHere s o bs = true := by decide

theorem wit_learnSet : let o : Order := st 0x8100000F 1; let s : State := owned;
    accepted (setForm 0x4807 [0x81] 0xF [(0, 68)] [.prepare, .service, .coast] true) s o = true := by decide

theorem wit_ageSet : let o : Order := st 0x85000000 1000000; let s : State := owned;
    accepted (setForm 0x4808 [0x85] 0 [(0, 20)] modesSet true) s o = true ∧ 100 ≤ o.f 0 20 ∧ o.f 0 20 ≤ 1000000 := by decide

theorem wit_shadowSet : let o : Order := st 0x85000000 3; let s : State := owned;
    let p := o.f 0 2
    accepted (setForm 0x4809 [0x85] 0 [(0, 2), (76, 52)] modesSet true) s o = true ∧ p ≠ 2 := by decide

theorem wit_flushLearned : let o : Order := st 0x8100000F 0; let s : State := owned;
    accepted (setForm 0x480A [0x81] 0xF [(0, 10)] [.prepare, .service, .coast] true) s o = true := by decide


theorem wit_readBuffer : let o : Order := rd 0x91000000 0; let s : State := owned;
    accepted (readForm 0x0901 [0x91] 0 [] 128 modesOn) s o = true := by decide

theorem wit_readQueue : let o : Order := rd 0x92001FFF 0; let s : State := owned;
    accepted (readForm 0x0902 [0x92] 0x1FFF [] 64 modesOn) s o = true := by decide

theorem wit_readPg : let o : Order := st 0x93000FFF 0; let s : State := owned;
    accepted (readForm 0x0903 [0x93] 0xFFF [] 0 modesOn) s o = true := by decide

theorem wit_poolSet : let o : Order := st 0x91000000 256; let s : State := inMode .prepare;
    let g := [0, 1, 2, 3].map fun p => o.f (9 * p) 9
    accepted (setForm 0x4901 [0x91] 0 [(0, 36)] [.prepare] true) s o = true ∧ (g.any fun x => decide (256 < x)) = false ∧ s.buf.busy.isEmpty = true ∧ sumN g ≤ 256 := by decide

theorem wit_queueAdmitSet : let o : Order := st 0x92001FFF (15 * 2 ^ 16); let s : State := owned;
    let a := o.f 16 4
    accepted (setForm 0x4902 [0x92] 0x1FFF [(0, 37)] modesSet true) s o = true ∧ (decide (10 ≤ a) && decide (a ≤ 14)) = false := by decide

theorem wit_pgSet : let o : Order := st 0x93000FFF (2 + 2 ^ 17); let s : State := owned;
    accepted (setForm 0x4903 [0x93] 0xFFF [(0, 49)] modesSet true) s o = true ∧ o.f 17 16 ≤ o.f 1 16 := by decide

theorem wit_dramSet : let o : Order := st 0x91000000 27584; let s : State := owned;
    let cap := o.f 0 15
    accepted (setForm 0x4904 [0x91] 0 [(0, 15)] modesSet true) s o = true ∧ cap ≤ 27584 ∧ s.log.slots * 260 + (cap + 1024) * 1024 ≤ 32768 * 1024 := by decide


/-- The bytes of a program image of one instruction word before its trailer, made for the device's own microcode. -/
def imgBody : List Byte :=
  bytesLE 4 0x53564F31 ++ (bytesLE 2 1 ++ (bytesLE 2 0 ++ (bytesLE 4 1 ++ (bytesLE 4 0 ++
    (bytesBE 32 Config.microcodeDigest.toNat ++ List.replicate 2096 0)))))

/-- The image. -/
def img : List Byte := imgBody ++ bytesBE 32 (sha256 imgBody).toNat

theorem img_parts : imgBody.length = 2144 ∧ img.length = 2176 := by
  constructor <;> simp only [img, imgBody, List.length_append, bytesBE, List.length_reverse, bytesLE_length, List.length_replicate]

theorem beNat_bytesBE (n v : Nat) : beNat (bytesBE n v) = v % 256 ^ n := by
  unfold beNat bytesBE; rw [List.reverse_reverse, leNat_bytesLE]

theorem digest_trailer (b : List Byte) :
    (imageDigest (b ++ bytesBE 32 (sha256 b).toNat) != sha256 (imageBody (b ++ bytesBE 32 (sha256 b).toNat))) = false := by
  have hl : (b ++ bytesBE 32 (sha256 b).toNat).length - 32 = b.length := by
    rw [List.length_append, bytesBE, List.length_reverse, bytesLE_length]; omega
  have hb : imageBody (b ++ bytesBE 32 (sha256 b).toNat) = b := by
    unfold imageBody; rw [hl]; exact List.take_left' rfl
  have hd : imageDigest (b ++ bytesBE 32 (sha256 b).toNat) = sha256 b := by
    unfold imageDigest; rw [hl, List.drop_left' rfl, beNat_bytesBE]
    generalize sha256 b = x
    apply BitVec.eq_of_toNat_eq
    rw [BitVec.toNat_ofNat]
    have h := x.isLt
    generalize x.toNat = y at h ⊢
    simp [Nat.mod_eq_of_lt h]
  rw [hb, hd, bne_self_eq_false]

theorem img_digest : (imageDigest img != sha256 (imageBody img)) = false := digest_trailer imgBody

theorem slice_zeros {p t : List Byte} {z i n : Nat} (h : p.length ≤ i) (h2 : i + n ≤ p.length + z) :
    slice (p ++ (List.replicate z 0 ++ t)) i n = List.replicate n 0 := by
  have e : ((p ++ (List.replicate z 0 ++ t)).drop i).take n = List.replicate n 0 := by
    rw [List.drop_append, List.drop_eq_nil_of_le h, List.nil_append, List.drop_append, List.drop_replicate,
      List.take_append_of_le_length (by rw [List.length_replicate]; omega), List.take_replicate, Nat.min_eq_left (by omega)]
  unfold slice
  dsimp only
  rw [e, List.length_replicate, Nat.sub_self]; simp only [List.replicate_zero, List.append_nil]

theorem img_zeros {i n : Nat} (h : 48 ≤ i) (h2 : i + n ≤ 2144) : slice img i n = List.replicate n 0 := by
  have e : img = (bytesLE 4 0x53564F31 ++ (bytesLE 2 1 ++ (bytesLE 2 0 ++ (bytesLE 4 1 ++ (bytesLE 4 0 ++
      bytesBE 32 Config.microcodeDigest.toNat))))) ++ (List.replicate 2096 0 ++ bytesBE 32 (sha256 imgBody).toNat) := by
    simp only [img, imgBody, List.append_assoc]
  have hl : (bytesLE 4 0x53564F31 ++ (bytesLE 2 1 ++ (bytesLE 2 0 ++ (bytesLE 4 1 ++ (bytesLE 4 0 ++
      bytesBE 32 Config.microcodeDigest.toNat))))).length = 48 := by
    simp only [List.length_append, bytesBE, List.length_reverse, bytesLE_length]
  rw [e]
  exact slice_zeros (by rw [hl]; exact h) (by rw [hl]; exact h2)

theorem img_table : (imageTable img).any (entryBad 1) = false := by
  rw [List.any_eq_false]
  intro x hx
  unfold imageTable at hx
  rw [List.mem_map] at hx
  obtain ⟨p, hp, rfl⟩ := hx
  rw [List.mem_range] at hp
  rw [img_zeros (by omega) (by omega)]
  decide

theorem wit_imageLoad_good : imageInvalid img = false := by
  have h1 : imageText img = 1 := rfl
  have h2 : imageData img = 0 := rfl
  have h3 : slice img 48 16 = List.replicate 16 0 := img_zeros (by decide) (by decide)
  have h4 : slice img 64 8 = List.replicate 8 0 := img_zeros (by decide) (by decide)
  have h5 : slice img (2112 + 4 * 1 + 0) (2176 - 32 - (2112 + 4 * 1 + 0)) = List.replicate 28 0 :=
    img_zeros (by decide) (by decide)
  have h6 : leNat (slice img 0 4) = 0x53564F31 ∧ leNat (slice img 4 2) = 1 ∧ leNat (slice img 6 2) = 0 := ⟨rfl, rfl, rfl⟩
  unfold imageInvalid
  dsimp only
  rw [img_digest, h1, h2, img_table, img_parts.2, h3, h4, h5, h6.1, h6.2.1, h6.2.2]
  decide

theorem wit_imageLoad_digest : beNat (slice img 16 32) = Config.microcodeDigest.toNat := by
  have h : slice img 16 32 = bytesBE 32 Config.microcodeDigest.toNat := rfl
  rw [h, beNat_bytesBE]
  exact Nat.mod_eq_of_lt Config.microcodeDigest.isLt

set_option maxRecDepth 20000 in
theorem wit_imageLoad : accepted (ptrForm 0x4A01 [0xA2] 1 modesSet true) owned (pt 0xA2000001 img) = true ∧
    payloadHere owned (pt 0xA2000001 img) img = true ∧ bankInUse owned (orderBank (pt 0xA2000001 img)) = false := by
  have hp : payloadHere owned (pt 0xA2000001 img) img = true := by simp [payloadHere, pt, Order.ptr, bit]; decide
  refine ⟨?_, hp, by decide⟩
  have e : pt 0xA2000001 img = { pt 0xA2000001 (List.replicate 2176 0) with data := .bytes img } := by
    unfold pt; rw [img_parts.2, List.length_replicate]
  rw [e]; decide

theorem wit_readLathe : let o : Order := rd 0xA10000BF 0; let s : State := owned;
    accepted (readForm 0x0A01 [0xA1] 0xFF [] 128 modesOn) s o = true ∧ o.inst < 192 := by decide

theorem wit_readBank : let o : Order := rd 0xA2000001 0; let s : State := owned;
    accepted (readForm 0x0A02 [0xA2] 1 [] 128 modesOn) s o = true := by decide

theorem wit_shmRead : let o : Order := rd 0xA300001F (2 ^ 21 - 64 + 2 ^ 21); let s : State := owned;
    let a := o.f 0 21
    let n := o.f 21 11
    accepted (readForm 0x0A03 [0xA3] 0x1F [(0, 32)] 64 modesOn) s o = true ∧ a % 64 = 0 ∧ n ≠ 0 ∧ n ≤ 1024 ∧ a + 64 * n ≤ 2 ^ 21 := by decide

theorem wit_readControlStore : let o : Order := rd 0xA10000BF (2 * 8191 + 2 ^ 14); let s : State := owned;
    let first := o.f 1 13
    let n := o.f 14 14
    let mandrel := o.b 28
    accepted (readForm 0x0A04 [0xA1] 0xFF [(0, 29)] 64 modesOn) s o = true ∧ o.inst < 192 ∧ n ≠ 0 ∧ n ≤ 8192 ∧ first + n ≤ (if mandrel then 1024 else 8192) := by decide

theorem wit_bankClear : let o : Order := st 0xA2000001 0; let s : State := owned;
    let b := orderBank o
    accepted (setForm 0x4A02 [0xA2] 1 [] modesSet true) s o = true ∧ bankInUse s b = false := by decide

set_option maxRecDepth 10000 in
theorem wit_shmWrite : let o : Order := pt 0xA300001F (bytesLE 64 (2 ^ 21 - 64) ++ List.replicate 64 7); let s : State := owned; let bs : List Byte := bytesLE 64 (2 ^ 21 - 64) ++ List.replicate 64 7;
    let h := leNat (slice bs 0 64)
    accepted (ptrForm 0x4A03 [0xA3] 0x1F modesSet true) s o = true ∧ payloadHere s o bs = true ∧ onlyFields h [(0, 21)] = true ∧ h % 64 = 0 ∧ h + (bs.length - 64) ≤ 2 ^ 21 := by decide

theorem wit_latheIsolate : let o : Order := st 0xA10000BF 0; let s : State := owned;
    accepted (setForm 0x4A04 [0xA1] 0xFF [] modesSet true) s o = true ∧ o.inst < 192 ∧ (getLathe s o.inst).iso = 0 := by decide

theorem wit_latheRestore : let o : Order := st 0xA10000BF 0; let s : State := isolateLathe owned 191 3;
    accepted (setForm 0x4A05 [0xA1] 0xFF [] modesSet true) s o = true ∧ o.inst < 192 ∧ (getLathe s o.inst).iso ≠ 0 := by decide

theorem wit_microcodeReload : let o : Order := st 0xA400001F 0; let s : State := owned;
    accepted (setForm 0x4A06 [0xA4] 0x1F [] modesSet true) s o = true ∧ (getSlice s o.inst).reload.isSome = false := by decide

theorem wit_mandrelTest : let o : Order := st 0xA10000BF 0; let res : Nat := 0; let s : State := inMode .probe;
    accepted (setForm 0x4A07 [0xA1] 0xFF [] [.probe] false) s o = true ∧ o.inst < 192 := by decide

theorem wit_csInject : let o : Order := st 0xA10000BF (2 ^ 18 - 1); let s : State := inMode .probe;
    accepted (setForm 0x4A08 [0xA1] 0xFF [(0, 18)] [.probe] false) s o = true ∧ o.inst < 192 := by decide


theorem wit_readSched : let o : Order := rd 0xB10001FF 0; let s : State := owned;
    accepted (readForm 0x0B01 [0xB1] 0x1FF [] 128 modesOn) s o = true := by decide

theorem wit_readGcl : let o : Order := rd 0xB10001FF 1; let s : State := owned;
    accepted (readForm 0x0B02 [0xB1] 0x1FF [(0, 1)] 2112 modesOn) s o = true := by decide

theorem wit_readShaper : let o : Order := rd 0xB30021FF 0; let s : State := owned;
    accepted (readForm 0x0B03 [0xB3] 0x3FFF [] 64 modesOn) s o = true ∧ o.inst < 8704 := by decide

theorem wit_queueSchedSet : let o : Order := st 0xB2001FFF 16; let s : State := owned;
    accepted (setForm 0x4B01 [0xB2] 0x1FFF [(0, 12)] modesSet true) s o = true ∧ o.f 4 8 ≠ 0 := by decide

theorem wit_shaperSet : let o : Order := st 0xB30021FF (1 + 3200000 * 4 + 64 * 2 ^ 24 + 192 * 2 ^ 48); let s : State := owned;
    let burst := o.f 24 24
    let ovh := signed 8 (o.f 48 8)
    accepted (setForm 0x4B02 [0xB3] 0x3FFF [(0, 56)] modesSet true) s o = true ∧ o.inst < 8704 ∧ (o.b 0 && (decide (o.f 2 22 = 0) || decide (3200000 < o.f 2 22))) = false ∧ 64 ≤ burst ∧ -64 ≤ ovh := by decide

set_option maxRecDepth 10000 in
theorem wit_gclSet : let o : Order := pt 0xB1000000 (bytesLE 64 512); let s : State := owned; let bs : List Byte := bytesLE 64 512;
    let acc := acceptDt s o
    accepted (ptrForm 0x4B03 [0xB1] 0x1FF modesSet true) s o = true ∧ (o.ptr && decide (2112 < ptrLen o)) = false ∧ payloadHere s o bs = true ∧ (gclChecks o acc bs).pass = true := by decide

theorem wit_gclCancel : let o : Order := st 0xB1000000 0; let s : State := setPend owned 0 (some ⟨[], true, [], 0, 1, false⟩);
    accepted (setForm 0x4B04 [0xB1] 0x1FF [] modesSet true) s o = true ∧ (getPend (takeover s o.inst) o.inst).isSome = true := by decide

theorem wit_pfcSet : let o : Order := st 0xB10001FF (2 ^ 16 + 1000000 * 2 ^ 33 + 60000 * 2 ^ 53); let s : State := owned;
    let wd := o.f 33 20
    let rst := o.f 53 16
    accepted (setForm 0x4B05 [0xB1] 0x1FF [(0, 69)] modesSet true) s o = true ∧ o.f 16 16 ≠ 0 ∧ 100 ≤ wd ∧ wd ≤ 1000000 ∧ 10 ≤ rst ∧ rst ≤ 60000 := by decide

theorem wit_escSet : let o : Order := st 0xB1000000 (2 + 5 * 8 + 6 * 128); let s : State := owned;
    let n := o.f 0 3
    let qs := (List.range n).map fun k => o.f (3 + 4 * k) 4
    accepted (setForm 0x4B06 [0xB1] 0x1FF [(0, 22)] modesSet true) s o = true ∧ n < 5 ∧ o.f (3 + 4 * n) (16 - 4 * n) = 0 ∧ qs.length ≤ qs.eraseDups.length ∧ ((o.b 19 || o.b 20) && !isNative s o.inst) = false := by decide

theorem wit_stormRestore : let o : Order := st 0xB2000000 0; let s : State := updQs owned 0 fun q => { q with storm := true };
    accepted (setForm 0x4B07 [0xB2] 0x1FFF [] modesSet true) s o = true ∧ (getQs s o.inst).storm = true := by decide


theorem wit_readSeq : let o : Order := rd 0xC100000F 0; let s : State := owned;
    accepted (readForm 0x0C01 [0xC1] 0xF [] 64 modesOn) s o = true := by decide

theorem wit_readFanout : let o : Order := rd 0xC200003F 0; let s : State := owned;
    accepted (readForm 0x0C02 [0xC2] 0x3F [] 64 modesOn) s o = true := by decide

theorem wit_readGrid : let o : Order := rd 0xC4000000 0; let s : State := owned;
    accepted (readForm 0x0C03 [0xC4] 0 [] 64 modesOn) s o = true := by decide

theorem wit_readGroupConfig : let o : Order := rd 0xC200003F 0; let s : State := owned;
    let fan := decide (o.kind = 0xC2)
    accepted (readForm 0x0C05 [0xC1, 0xC2] (if fan then 0x3F else 0xF) [] (if fan then 128 else 1088) modesOn) s o = true := by decide

set_option maxRecDepth 20000 in
theorem wit_seqGroupSet : let o : Order := pt 0xC100000F (List.replicate 1088 0); let s : State := owned; let bs : List Byte := List.replicate 1088 0;
    let acc := acceptDt s o
    accepted (ptrForm 0x4C01 [0xC1] 0xF modesSet true) s o = true ∧ ptrLen o = 1088 ∧ payloadHere s o bs = true ∧ (seqChecks s o.inst acc bs).pass = true := by decide

set_option maxRecDepth 20000 in
theorem wit_fanoutGroupSet : let o : Order := pt 0xC200003F (bytesLE 64 (1 + 2 ^ 8 + 1000 * 2 ^ 32 + 2 ^ 160) ++ List.replicate 64 0); let s : State := owned; let bs : List Byte := bytesLE 64 (1 + 2 ^ 8 + 1000 * 2 ^ 32 + 2 ^ 160) ++ List.replicate 64 0;
    accepted (ptrForm 0x4C02 [0xC2] 0x3F modesSet true) s o = true ∧ ptrLen o = 128 ∧ payloadHere s o bs = true ∧ (fanChecks s o.inst bs).pass = true := by decide

theorem wit_readTrim : let o : Order := st 0xC30001FF 0; let s : State := owned;
    accepted (readForm 0x0C04 [0xC3] 0x1FF [] 0 modesOn) s o = true := by decide

theorem wit_trimSet : let o : Order := st 0xC30001FF 96; let s : State := owned;
    let v := signed 7 (o.f 0 7)
    accepted (setForm 0x4C03 [0xC3] 0x1FF [(0, 7)] modesSet true) s o = true ∧ -32 ≤ v ∧ v ≤ 32 := by decide

theorem wit_trimMeasure : let o : Order := st 0xC30001FF 0; let s : State := owned;
    accepted (setForm 0x4C04 [0xC3] 0x1FF [] modesSet true) s o = true := by decide


theorem wit_readContext : let o : Order := rd 0xD1000FFF 0; let s : State := owned;
    accepted (readForm 0x0D01 [0xD1] 0xFFF [] 64 modesOn) s o = true := by decide

theorem wit_readCu : let o : Order := rd 0xD200000F 0; let s : State := owned;
    accepted (readForm 0x0D02 [0xD2] 0xF [] 64 modesOn) s o = true := by decide

set_option maxRecDepth 20000 in
theorem wit_contextSet : let o : Order := pt 0xD1000FFF (List.replicate 192 0); let s : State := owned; let bs : List Byte := List.replicate 192 0;
    accepted (ptrForm 0x4D01 [0xD1] 0xFFF modesSet true) s o = true ∧ ptrLen o = 192 ∧ payloadHere s o bs = true ∧ (ctxChecks s o.inst bs).pass = true := by decide

theorem wit_contextMove : let o : Order := st 0xD1000FFF 15; let s : State := owned;
    let x := getCtx s o.inst
    let home := o.f 0 4
    accepted (setForm 0x4D02 [0xD1] 0xFFF [(0, 4)] modesSet true) s o = true ∧ x.home ≠ home ∧ x.move.isSome = false ∧ (x.enabled && decide (accBytes < reserved s home + slotsOf x.cfg)) = false := by decide

theorem wit_contextReset : let o : Order := st 0xD1000FFF 0; let s : State := updCtx owned 4095 fun x => { x with faulted := true };
    let x := getCtx s o.inst
    accepted (setForm 0x4D03 [0xD1] 0xFFF [] modesSet true) s o = true ∧ x.move.isSome = false ∧ (!x.enabled && !x.faulted) = false := by decide

theorem wit_collSet : let o : Order := st 0xD3000000 (256 * 2 ^ 16); let s : State := owned;
    accepted (setForm 0x4D04 [0xD3] 0 [(0, 32)] modesSet true) s o = true ∧ 256 ≤ o.f 16 16 := by decide

theorem wit_readArb : let o : Order := rd 0xE1000000 0; let s : State := owned;
    accepted (readForm 0x0E01 [0xE1, 0xE2, 0xE3] (arbMask o.kind) [] 64 modesOn) s o = true := by decide

theorem wit_arbSet : let o : Order := st 0xE2400000 (2 ^ 125 + 4096 * 2 ^ 112); let s : State := owned;
    let n := if o.kind = 0xE3 then 6 else 7
    let all := decide (nfld o.inst 22 1 = 1)
    let js := (List.range 7).filter fun j => (setEntry o j).1
    accepted (setForm 0x4E01 [0xE1, 0xE2, 0xE3] (arbMask o.kind + 2 ^ 22) [(0, 112), (112, 14)] modesSet true) s o = true ∧ (all && decide (o.inst ≠ 2 ^ 22)) = false ∧ (js.any fun j => o.f (16 * j + 9) 7 != 0) = false ∧ (o.kind != 0xE1 && (js.any (fun j => decide (n ≤ j) || decide ((setEntry o j).2.burst = 0) || decide (16 < (setEntry o j).2.burst)) || (o.b 125 && (decide (o.f 112 13 < 16) || decide (4096 < o.f 112 13))))) = false ∧ s.arb.pend.isSome = false ∧ o.kind ≠ 0xE1 := by decide

theorem wit_arbCommit : let o : Order := st 0xE4000000 0; let s : State := owned;
    accepted (setForm 0x4E02 [0xE4] 0 [] modesSet true) s o = true ∧ s.arb.pend.isSome = false := by decide


theorem wit_readPortCounters : let o : Order := rd 0xF10001FF 0; let s : State := owned;
    accepted (readForm 0x0F01 [0xF1] 0x1FF [] 512 modesOn) s o = true := by decide

theorem wit_readSel : let o : Order := rd 0xF200001F (255 * 256); let s : State := owned;
    let first := o.f 0 8
    let n := o.f 8 8 + 1
    accepted (readForm 0x0F02 [0xF2] 0x1F [(0, 16)] 64 modesOn) s o = true ∧ first + n ≤ 256 := by decide

theorem wit_readHist : let o : Order := rd 0xF400003F 0; let s : State := owned;
    accepted (readForm 0x0F03 [0xF4] 0x3F [] 512 modesOn) s o = true := by decide

theorem wit_readSketch : let o : Order := rd 0xF5000007 0; let s : State := owned;
    accepted (readForm 0x0F04 [0xF5] 0x7 [] 66048 modesOn) s o = true := by decide

theorem wit_readClear : let o : Order := rd 0xF400003F 0; let s : State := owned;
    accepted { setForm 0x4F03 [0xF4, 0xF5] (if o.kind = 0xF4 then 0x3F else 0x7) [] [.prepare, .service, .coast] true with result := if o.kind = 0xF4 then 512 else 66048 } s o = true := by decide

theorem wit_readClear_sketch : accepted { setForm 0x4F03 [0xF4, 0xF5] 0x7 [] [.prepare, .service, .coast] true with result := 66048 }
    owned (rd 0xF5000007 0) = true := by decide
theorem wit_readBw : let o : Order := rd 0xF10001FF 0; let s : State := owned;
    accepted (readForm 0x0F05 [0xF1] 0x1FF [] 64 modesOn) s o = true := by decide

theorem wit_selSet : let o : Order := st 0xF200001F (255 + 0x5FF * 256); let s : State := owned;
    let i := o.f 0 8
    let chain := o.b 36
    accepted (setForm 0x4F01 [0xF2] 0x1F [(0, 37)] modesSet true) s o = true ∧ (!chain && !selEvents (o.f 8 12)) = false ∧ (chain && (i == 0 || (getSel s o.inst (i - 1)).chain)) = false := by decide

theorem wit_selCtrl : let o : Order := st 0xF200001F (255 * 2 ^ 99); let s : State := owned;
    let at_ := o.f 3 96
    let first := o.f 99 8
    let n := o.f 107 8 + 1
    accepted (setForm 0x4F02 [0xF2] 0x1F [(0, 115)] modesSet true) s o = true ∧ o.f 0 2 ≠ 3 ∧ (o.b 2 && !dtOk at_) = false ∧ first + n ≤ 256 := by decide

theorem wit_histSet : let o : Order := st 0xF400003F (2 ^ 64 + 2 ^ 100); let s : State := owned;
    let log := o.b 67
    accepted (setForm 0x4F04 [0xF4] 0x3F [(0, 132)] modesSet true) s o = true ∧ filterReserved (o.f 0 64) = false ∧ o.f 65 2 ≠ 3 ∧ (o.b 64 && (if log then decide (o.f 68 32 = 0) else decide (o.f 100 32 = 0))) = false := by decide

theorem wit_sketchSet : let o : Order := st 0xF5000007 (2 ^ 64 + 2 ^ 66); let s : State := owned;
    accepted (setForm 0x4F05 [0xF5] 0x7 [(0, 98)] modesSet true) s o = true ∧ filterReserved (o.f 0 64) = false ∧ (o.b 64 && decide (o.f 66 32 = 0)) = false := by decide

set_option maxRecDepth 10000 in
theorem wit_evSet : let o : Order := pt 0xF6000003 (bytesLE 128 (2 ^ 64)); let s : State := owned; let bs : List Byte := bytesLE 128 (2 ^ 64);
    let h := leNat (slice bs 0 64)
    accepted (ptrForm 0x4F07 [0xF6] 0x3 modesSet true) s o = true ∧ ptrLen o = 128 ∧ payloadHere s o bs = true ∧ onlyFields h [(0, 39), (64, 1)] = true ∧ nfld h 24 2 ≠ 3 := by decide

theorem wit_bwSet : let o : Order := st 0xF10001FF 10000000000; let s : State := owned;
    let w := o.f 0 34
    accepted (setForm 0x4F08 [0xF1] 0x1FF [(0, 34)] modesSet true) s o = true ∧ 1000 ≤ w ∧ w ≤ 10000000000 := by decide


theorem wit_readExport : let o : Order := st 0xF300000F 0; let s : State := owned;
    accepted (readForm 0x0F06 [0xF3] 0xF [] 0 modesOn) s o = true := by decide

theorem wit_readCapture : let o : Order := st 0xF7000000 0; let s : State := owned;
    accepted (readForm 0x0F07 [0xF7] 0 [] 0 modesOn) s o = true := by decide

theorem wit_exportSet : let o : Order := st 0xF300000F 0; let s : State := owned;
    let x := getExport s o.inst
    let coll := o.b 65
    let len := o.f 173 7
    let bad := decide (o.f 68 16 = 0) || decide (o.f 84 20 = 0) || decide (400000 < o.f 84 20) || decide (o.f 104 16 = 0) || (if coll then decide (o.f 143 14 < 256) || decide (9000 < o.f 143 14) || decide (len < 42) || decide (66 < len) || !x.tmplOk || len != x.tmplLen else !exportRingOk s o)
    accepted (setForm 0x4F06 [0xF3] 0xF [(0, 180)] modesSet true) s o = true ∧ filterReserved (o.f 0 64) = false ∧ o.f 120 2 ≠ 3 ∧ (o.b 64 && bad) = false := by decide

set_option maxRecDepth 10000 in
theorem wit_exportTemplate : let o : Order := pt 0xF300000F (List.replicate 128 0); let s : State := owned; let bs : List Byte := List.replicate 128 0;
    accepted (ptrForm 0x4F0D [0xF3] 0xF modesSet true) s o = true ∧ ptrLen o = 128 ∧ payloadHere s o bs = true ∧ ((bs.drop (getExport s o.inst).tmplLen).any fun b => b != 0) = false := by decide

theorem wit_classSet : let o : Order := st 0xF700000F (64 * 2); let s : State := owned;
    let n := o.f 1 15
    accepted (setForm 0x4F09 [0xF7] 0xF [(0, 16)] [.prepare, .service, .coast] true) s o = true ∧ o.inst ≠ 0 ∧ 64 ≤ n ∧ n ≤ 16384 ∧ n % 64 = 0 := by decide

theorem wit_captureSet : let o : Order := st 0xF7000000 0; let s : State := owned;
    accepted (setForm 0x4F0A [0xF7] 0 [(0, 31)] [.prepare, .service, .coast] true) s o = true ∧ o.f 1 2 ≠ 3 ∧ s.tel.cap.state ≠ 2 := by decide

theorem wit_captureFreeze : let o : Order := st 0xF7000000 0; let s : State := owned;
    accepted (setForm 0x4F0B [0xF7] 0 [] [.prepare, .service, .coast] true) s o = true ∧ s.tel.cap.state = 0 ∧ s.tel.cap.post.isSome = false := by decide

theorem wit_captureDrain : let o : Order := st 0xF7000000 0; let s : State := updCap owned fun c => { c with state := 1 };
    accepted (setForm 0x4F0C [0xF7] 0 [] [.prepare, .service, .coast] true) s o = true ∧ s.tel.cap.state = 1 := by decide


theorem wit_readPower : let o : Order := rd 0x16000000 0; let s : State := State.reset;
    accepted (readForm 0x1001 [0x16] 0 [] 128 modesAll) s o = true := by decide

theorem wit_readPhase : let o : Order := st 0x17000007 0; let s : State := owned;
    accepted (readForm 0x1002 [0x17] 7 [] 0 modesAll) s o = true := by decide

theorem wit_readThermal : let o : Order := rd 0x16000000 0; let s : State := owned;
    accepted (readForm 0x1003 [0x16] 0 [] 128 modesAll) s o = true := by decide

theorem wit_phaseSet : let o : Order := st 0x17000007 (5 + 1350 * 8 + 80 * 2 ^ 14 + 5 * 2 ^ 21); let s : State := owned;
    let ph : Phase := { opp := o.f 0 3, capW := o.f 3 11, slope := o.f 14 7, order := o.f 21 3 }
    accepted (setForm 0x5001 [0x17] 7 [(0, 24)] modesSet true) s o = true ∧ ph.order ≤ 5 ∧ ph.opp ≤ 5 ∧ 600 ≤ ph.capW ∧ ph.capW ≤ 1350 ∧ 5 ≤ ph.slope ∧ ph.slope ≤ 80 := by decide

theorem wit_phaseSelect : let o : Order := st 0x16000000 7; let s : State := owned;
    let at_ := o.f 4 96
    accepted (setForm 0x5002 [0x16] 0 [(0, 100)] modesSet true) s o = true ∧ (o.b 3 && (!dtOk at_ || decide (s.tb.dt + 3600 * dtSec < dtCount at_))) = false := by decide

theorem wit_phaseCancel : let o : Order := st 0x16000000 0; let s : State := owned.updPwr fun p => { p with pend := some ⟨1, 0⟩ };
    accepted (setForm 0x5003 [0x16] 0 [] modesSet true) s o = true ∧ s.pwr.pend.isSome = true := by decide

theorem wit_powerSet : let o : Order := st 0x16000000 20; let s : State := owned;
    accepted (setForm 0x5004 [0x16] 0 [(0, 6)] modesSet true) s o = true ∧ 1 ≤ o.f 1 4 ∧ o.f 1 4 ≤ 10 := by decide

theorem wit_readErrors : let o : Order := rd 0x18000013 1; let s : State := owned;
    let g := o.inst
    accepted (readForm 0x1101 [0x18] 31 [(0, 1)] 1024 modesAll) s o = true ∧ g < 20 := by decide

theorem wit_readFatal : let o : Order := rd 0x19000000 0; let s : State := owned;
    accepted (readForm 0x1102 [0x19] 0 [] 64 modesAll) s o = true := by decide

theorem wit_errClose : let o : Order := st 0x18000013 1; let s : State := owned;
    let g := o.inst
    accepted (setForm 0x5101 [0x18] 31 [(0, 16)] modesOn false) s o = true ∧ g < 20 := by decide

theorem wit_cuIsolate : let o : Order := st 0xD200000F 0; let s : State := owned;
    accepted (setForm 0x5102 [0xD2] 15 [] modesSet true) s o = true ∧ unitIsolated s o.inst = false := by decide

theorem wit_cuRestore : let o : Order := st 0xD200000F 0; let s : State := owned.updErr fun e => { e with cuIsolated := 0x8000 };
    accepted (setForm 0x5103 [0xD2] 15 [] modesSet true) s o = true ∧ unitIsolated s o.inst = true := by decide


theorem wit_add : let i : LInsn := insn0; let s : State := running; let r : Run := run0;
    runsOn i s (aluSrcs i) 2 r = true := by decide

theorem wit_sub : let i : LInsn := insn0; let s : State := running; let r : Run := run0;
    runsOn i s (aluSrcs i) 2 r = true := by decide

theorem wit_and : let i : LInsn := insn0; let s : State := running; let r : Run := run0;
    runsOn i s (aluSrcs i) 2 r = true := by decide

theorem wit_or : let i : LInsn := insn0; let s : State := running; let r : Run := run0;
    runsOn i s (aluSrcs i) 2 r = true := by decide

theorem wit_xor : let i : LInsn := insn0; let s : State := running; let r : Run := run0;
    runsOn i s (aluSrcs i) 2 r = true := by decide

theorem wit_shl : let i : LInsn := insn0; let s : State := running; let r : Run := run0;
    runsOn i s (aluSrcs i) 2 r = true := by decide

theorem wit_shr : let i : LInsn := insn0; let s : State := running; let r : Run := run0;
    runsOn i s (aluSrcs i) 2 r = true := by decide

theorem wit_sar : let i : LInsn := insn0; let s : State := running; let r : Run := run0;
    runsOn i s (aluSrcs i) 2 r = true := by decide

theorem wit_cmp : let i : LInsn := insn0; let s : State := running; let r : Run := run0;
    runsOn i s (aluSrcs i) 2 r = true := by decide

theorem wit_mul : let i : LInsn := insn0; let s : State := running; let r : Run := run0;
    runsOn i s (aluSrcs i) 6 r = true := by decide

theorem wit_mulh : let i : LInsn := insn0; let s : State := running; let r : Run := run0;
    runsOn i s (aluSrcs i) 6 r = true := by decide

theorem wit_ext : let i : LInsn := { insn0 with lo := 60, len := 4, rd := 1, ra := 2 }; let s : State := running; let r : Run := run0;
    runsOn i s [i.ra] 3 r = true ∧ i.len ≠ 0 ∧ i.lo + i.len ≤ 64 := by decide

theorem wit_ins : let i : LInsn := { insn0 with lo := 60, len := 4, rd := 1, ra := 2 }; let s : State := running; let r : Run := run0;
    runsOn i s [i.rd, i.ra] 3 r = true ∧ i.len ≠ 0 ∧ i.lo + i.len ≤ 64 := by decide


theorem wit_beq : let i : LInsn := { insn0 with imm := 0xFFFD }; let s : State := running; let r : Run := run0;
    runsOn i s [i.rd, i.ra] 3 r = true := by decide

theorem wit_bne : let i : LInsn := { insn0 with imm := 0xFFFD }; let s : State := running; let r : Run := run0;
    runsOn i s [i.rd, i.ra] 3 r = true := by decide

theorem wit_blt : let i : LInsn := { insn0 with imm := 0xFFFD }; let s : State := running; let r : Run := run0;
    runsOn i s [i.rd, i.ra] 3 r = true := by decide

theorem wit_bge : let i : LInsn := { insn0 with imm := 0xFFFD }; let s : State := running; let r : Run := run0;
    runsOn i s [i.rd, i.ra] 3 r = true := by decide

theorem wit_bltu : let i : LInsn := { insn0 with imm := 0xFFFD }; let s : State := running; let r : Run := run0;
    runsOn i s [i.rd, i.ra] 3 r = true := by decide

theorem wit_bgeu : let i : LInsn := { insn0 with imm := 0xFFFD }; let s : State := running; let r : Run := run0;
    runsOn i s [i.rd, i.ra] 3 r = true := by decide

theorem wit_jmp : let i : LInsn := { insn0 with imm := 0xFFFD }; let s : State := running; let r : Run := run0;
    runsOn i s [] 3 r = true := by decide


theorem wit_ldl : let i : LInsn := { insn0 with width := 8, imm := 8 }; let s : State := running; let r : Run := run0;
    let l := getLathe s i.lathe
    let a := addrOf i l
    runsOn i s [i.ra] 3 r = true ∧ widthOk i.width = true ∧ localOk a i.width = true ∧ badLocal l a i.width = none := by decide

theorem wit_stl : let i : LInsn := { insn0 with width := 8, imm := 8 }; let s : State := running; let r : Run := run0;
    let l := getLathe s i.lathe
    let a := addrOf i l
    runsOn i s [i.rd, i.ra] 3 r = true ∧ widthOk i.width = true ∧ localOk a i.width = true := by decide

theorem wit_ldc : let i : LInsn := { insn0 with imm := 56 }; let s : State := running; let r : Run := run0;
    let l := getLathe s i.lathe
    let a := addrOf i l
    runsOn i s [i.ra] 3 r = true ∧ a + 8 ≤ (bankOf s r.bank).dataBytes := by decide

theorem wit_lds : let i : LInsn := { insn0 with imm := 4088 }; let s : State := running; let r : Run := run0;
    let l := getLathe s i.lathe
    let a := addrOf i l
    let k := latheSlice i.lathe
    runsOn i s [i.ra] 4 r = true ∧ inWindow r a = true ∧ s.lat.badShm.contains (2 ^ 18 * k + a / 8) = false := by decide

theorem wit_sts : let i : LInsn := { insn0 with imm := 4088 }; let s : State := running; let r : Run := run0;
    let l := getLathe s i.lathe
    let a := addrOf i l
    runsOn i s [i.rd, i.ra] 4 r = true ∧ inWindow r a = true := by decide

theorem wit_fadd : let i : LInsn := insn0; let s : State := running; let r : Run := run0;
    let l := getLathe s i.lathe
    let a := (greg l i.ra).toNat
    let k := latheSlice i.lathe
    runsOn i s [i.ra, i.rb] 6 r = true ∧ inWindow r a = true ∧ s.lat.badShm.contains (2 ^ 18 * k + a / 8) = false := by decide

theorem wit_cas : let i : LInsn := insn0; let s : State := running; let r : Run := run0;
    let l := getLathe s i.lathe
    let a := (greg l i.ra).toNat
    let k := latheSlice i.lathe
    runsOn i s [i.rd, i.ra, i.rb] 6 r = true ∧ inWindow r a = true ∧ s.lat.badShm.contains (2 ^ 18 * k + a / 8) = false := by decide

theorem wit_swap : let i : LInsn := insn0; let s : State := running; let r : Run := run0;
    let l := getLathe s i.lathe
    let a := (greg l i.ra).toNat
    let k := latheSlice i.lathe
    runsOn i s [i.ra, i.rb] 6 r = true ∧ inWindow r a = true ∧ s.lat.badShm.contains (2 ^ 18 * k + a / 8) = false := by decide


theorem wit_hvl : let i : LInsn := { insn0 with sel := 63 }; let s : State := running; let r : Run := run0;
    runsOn i s [] 2 r = true ∧ i.sel < 64 := by decide

theorem wit_hvs : let i : LInsn := { insn0 with sel := 8 }; let s : State := running; let r : Run := run0;
    runsOn i s [i.rd] 2 r = true ∧ 8 ≤ i.sel ∧ i.sel < 64 := by decide

theorem wit_pbl : let i : LInsn := { insn0 with width := 8, imm := 56 }; let s : State := running; let r : Run := run0;
    let l := getLathe s i.lathe
    let a := addrOf i l
    let f := r.dealt.pkt.frame
    runsOn i s [i.ra] 3 r = true ∧ 1 ≤ i.width ∧ i.width ≤ 8 ∧ a + i.width ≤ f.length := by decide

theorem wit_pbs : let i : LInsn := { insn0 with width := 8, imm := 56 }; let s : State := running; let r : Run := run0;
    let l := getLathe s i.lathe
    let a := addrOf i l
    let f := r.dealt.pkt.frame
    runsOn i s [i.rd, i.ra] 3 r = true ∧ 1 ≤ i.width ∧ i.width ≤ 8 ∧ a + i.width ≤ f.length := by decide

theorem wit_hedit : let i : LInsn := { insn0 with width := 128, flag := true }; let s : State := running; let r : Run := run0;
    let l := getLathe s i.lathe
    let a := (greg l i.ra).toNat
    let f := r.dealt.pkt.frame
    let n := i.width
    let m := if i.flag then f.length + n else f.length - n
    runsOn i s [i.ra] 12 r = true ∧ r.edited = false ∧ n ≤ 128 ∧ a < 256 ∧ a ≤ f.length ∧ (i.flag = true ∨ a + n ≤ f.length) ∧ 64 ≤ m ∧ m ≤ 16384 := by decide

theorem wit_dget : let i : LInsn := { insn0 with sel := 9 }; let s : State := running; let r : Run := run0;
    runsOn i s [] 2 r = true ∧ i.sel < 10 := by decide

theorem wit_dset : let i : LInsn := { insn0 with sel := 9 }; let s : State := running; let r : Run := run0; let d : Decision := Decision.reset;
    let l := getLathe s i.lathe
    runsOn i s [i.rd] 2 r = true ∧ decSet r.dealt.pkt.dec i.sel (greg l i.rd).toNat = some d := by decide

theorem wit_lkup : let i : LInsn := { insn0 with sel := 15 }; let s : State := running; let r : Run := run0;
    runsOn i s [i.ra, i.rb] 4 r = true ∧ i.sel < 16 := by decide

theorem wit_bcopy1 : let i : LInsn := { insn0 with flag := true }; let s : State := running; let r : Run := run0;
    let l := getLathe s i.lathe
    let n := (greg l i.rb).toNat
    let a := (greg l i.ra).toNat
    let d := (greg l i.rd).toNat
    runsOn i s [i.rd, i.ra, i.rb] (bcopyCost n) r = true ∧ a + n ≤ r.dealt.pkt.frame.length ∧ d + n ≤ 65536 ∧ i.flag = true := by decide

theorem wit_bcopy2 : let i : LInsn := insn0; let s : State := running; let r : Run := run0;
    let l := getLathe s i.lathe
    let n := (greg l i.rb).toNat
    let a := (greg l i.ra).toNat
    let d := (greg l i.rd).toNat
    runsOn i s [i.rd, i.ra, i.rb] (bcopyCost n) r = true ∧ a + n ≤ r.dealt.pkt.frame.length ∧ d + n ≤ 65536 ∧ i.flag = false ∧ badLocal l d n = none := by decide

theorem wit_crc : let i : LInsn := insn0; let s : State := running; let r : Run := run0;
    let l := getLathe s i.lathe
    let n := (greg l i.rb).toNat
    let a := (greg l i.ra).toNat
    let f := r.dealt.pkt.frame
    runsOn i s [i.rd, i.ra, i.rb] (crcCost n) r = true ∧ a + n ≤ f.length := by decide

theorem wit_sha : let i : LInsn := insn0; let s : State := running; let r : Run := run0;
    let l := getLathe s i.lathe
    let a := (greg l i.ra).toNat
    runsOn i s [i.ra] 72 r = true ∧ a + 64 ≤ 65536 ∧ badLocal l a 64 = none := by decide

theorem wit_exit : let i : LInsn := insn0; let s : State := running; let r : Run := run0;
    runsOn i s [] 4 r = true := by decide


/-- H0 with its BAR mapped. -/
def mapped : State := updPort withRings .h0 fun p => { p with memEn := true }
/-- M0 attached, its ring 0 a command ring. -/
def m0Rings : State := updRing (updRing withM0 .m0 1 fun r => { r with enable := true, type := 1 }) .m0 0 fun r =>
  { r with enable := true, cmpl := 1 }
theorem wit_doorbellWrite1 : let m : Master := .h0; let page : Nat := 0; let v : BitVec 64 := 0x10000; let s : State := mapped;
    let n := fld v 0 8
    let x := BitVec.ofNat 16 (fld v 16 16)
    m ≠ .m0 ∧ barOk s m = true ∧ n / 16 = page ∧ doorbellOk (getRing s m n) v.toNat x = true ∧ (getRing s m n).type ≠ 1 ∧ (getRing s m n).type ≠ 2 := by decide

theorem wit_doorbellWrite2 : let m : Master := .h0; let page : Nat := 0; let v : BitVec 64 := 0x0101; let s : State := updRing mapped .h0 1 fun r => { r with dev := 63 };
    let n := fld v 0 8
    let x := BitVec.ofNat 16 (fld v 16 16)
    m ≠ .m0 ∧ barOk s m = true ∧ n / 16 = page ∧ doorbellOk (getRing s m n) v.toNat x = true ∧ (getRing s m n).type = 1 := by decide

theorem wit_doorbellWrite3 : let m : Master := .h0; let page : Nat := 0; let v : BitVec 64 := 0x0102; let s : State := updRing mapped .h0 2 fun r => { r with dev := 63 };
    let n := fld v 0 8
    let x := BitVec.ofNat 16 (fld v 16 16)
    m ≠ .m0 ∧ barOk s m = true ∧ n / 16 = page ∧ doorbellOk (getRing s m n) v.toNat x = true ∧ (getRing s m n).type = 2 := by decide

theorem wit_doorbellWrite4 : let m : Master := .h0; let page : Nat := 0; let v : BitVec 64 := 0x0003; let s : State := mapped;
    let n := fld v 0 8
    let x := BitVec.ofNat 16 (fld v 16 16)
    m ≠ .m0 ∧ barOk s m = true ∧ (n / 16 ≠ page ∨ doorbellOk (getRing s m n) v.toNat x = false) := by decide

theorem wit_ringCtrlWrite1 : let m : Master := .h0; let n : Nat := 5; let v : Word := 0x00000101; let s : State := mapped;
    let r := getRing s m n
    let q : Ring := { r with type := fld v 1 3, size := fld v 4 4, cmpl := if fld v 1 3 = 0 then fld v 8 8 else 0,
                             vector := fld v 16 6, irqEn := bit v 22, slot := fld v 24 2 }
    barOk s m = true ∧ n < ringCount m ∧ r.enable = false ∧ bit v 0 = true ∧ enableOk s m q = true := by decide

theorem wit_ringCtrlWrite2 : let m : Master := .h0; let n : Nat := 5; let v : Word := 0x00000201; let s : State := mapped;
    let r := getRing s m n
    let q : Ring := { r with type := fld v 1 3, size := fld v 4 4, cmpl := if fld v 1 3 = 0 then fld v 8 8 else 0,
                             vector := fld v 16 6, irqEn := bit v 22, slot := fld v 24 2 }
    barOk s m = true ∧ n < ringCount m ∧ r.enable = false ∧ (bit v 0 = false ∨ enableOk s m q = false) := by decide

theorem wit_ringCtrlWrite3 : let m : Master := .h0; let n : Nat := 1; let v : Word := 0; let s : State := mapped;
    let r := getRing s m n
    barOk s m = true ∧ n < ringCount m ∧ r.enable = true ∧ bit v 0 = false ∧ r.type = 1 ∧ namedByCommand s m n = true := by decide

theorem wit_ringCtrlWrite4 : let m : Master := .h0; let n : Nat := 0; let v : Word := 0; let s : State := mapped;
    let r := getRing s m n
    barOk s m = true ∧ n < ringCount m ∧ r.enable = true ∧ (bit v 0 = true ∨ r.type ≠ 1 ∨ namedByCommand s m n = false) := by decide

theorem wit_ringFault1 : let m : Master := .h0; let n : Nat := 0; let s : State := withRings;
    (getRing s m n).enable = true ∧ (getRing s m n).type ≠ 2 := by decide

theorem wit_ringFault2 : let m : Master := .h0; let n : Nat := 2; let s : State := withRings;
    (getRing s m n).enable = true ∧ (getRing s m n).type = 2 := by decide

theorem wit_msixModerationTimer : let m : Master := .h0; let v : Nat := 3; let s : State := setNow (updVec owned .h0 3 fun x => { x with timeUs := 5, since := some 1000 }) 6000; let t : Nat := 1000;
    let x := getVec s m v
    x.since = some t ∧ x.timeUs ≠ 0 ∧ t + x.timeUs * 1000 ≤ s.tb.now := by decide

theorem wit_portInfoRead2 : let m : Master := .h0; let s : State := mapped;
    m ≠ .m0 ∧ barOk s m = true := by decide

theorem wit_ringStatusRead1 : let n : _ := 255;
    n < 256 := by decide

theorem wit_ringStatusRead2 : let m : Master := .h0; let n : Nat := 255; let s : State := mapped;
    m ≠ .m0 ∧ barOk s m = true ∧ n < ringCount m := by decide

theorem wit_fpActive0Read : let m : Master := .h0; let s : State := mapped;
    m ≠ .m0 ∧ barOk s m = true ∧ s.mode.mode ≠ .dormant := by decide

theorem wit_fpCommit0Read : let m : Master := .h0; let s : State := mapped;
    m ≠ .m0 ∧ barOk s m = true ∧ s.mode.mode ≠ .dormant := by decide

theorem wit_dtSnap0Read : let m : Master := .h0; let s : State := mapped;
    m ≠ .m0 ∧ barOk s m = true ∧ s.mode.mode ≠ .dormant := by decide

theorem wit_registerWrite1 : let m : Master := .h0; let off : Nat := 0x1180; let ws : List Word := [1, 2]; let s : State := mapped;
    barOk s m = true ∧ off % 4 = 0 ∧ (m = .m0 ∨ ws.length = 1 ∨ (ws.length = 2 ∧ off % 8 = 0)) := by decide

theorem wit_registerWrite2 : let m : Master := .h0; let off : Nat := 0x1184; let ws : List Word := [1, 2]; let s : State := mapped;
    (barOk s m = false ∨ off % 4 ≠ 0 ∨ (m ≠ .m0 ∧ ws.length ≠ 1 ∧ ¬ (ws.length = 2 ∧ off % 8 = 0))) := by decide

theorem wit_wordWrite : barOk mapped .h0 = true ∧ globalReg 0x1184 = true ∧ mapped.own.owner = some .h0 ∧
    (mapped.updOwn fun w => { w with owner := some .m0 }).own.owner ≠ some .h0 ∧ (0x1184 : Nat) ≠ 0x0108 ∧
    (0x1184 : Nat) ≠ 0x010C ∧ globalReg 0x0400 = false ∧ barOk owned .h0 = false ∧ barOk withM0 .m0 = true := by decide

theorem wit_payloadDmaDone : let e : Running := ⟨0x4A01, pt 0 [], 0, 0⟩; let i : Nat := 0; let data : PtrData := .bytes []; let s : State := owned.updHost fun h => { h with awaiting := [e] };
    s.host.awaiting[i]? = some e ∧ payloadOf s e.order data ≠ .later := by decide

theorem wit_perstNAssert : let m : Master := .h1; let s : State := owned;
    m ≠ .m0 := by decide

theorem wit_pcieLinkDown : let m : Master := .h0; let s : State := withRings;
    m ≠ .m0 ∧ (s.host.ports.get m).linkUp ≠ false := by decide

theorem wit_pcieLinkUp : let m : Master := .h1; let rate : Nat := 5; let width : Nat := 4; let s : State := owned;
    m ≠ .m0 ∧ s.mode.mode ≠ .dormant ∧ (m ≠ .h1 ∨ bit s.pin.straps 2 ≠ true) := by decide

theorem wit_busMasterEnableSet : let m : Master := .h0; let c : CfgSpace := ⟨true, true, false, false⟩; let s : State := withRings;
    m ≠ .m0 ∧ (s.host.ports.get m).linkUp ≠ false := by decide

theorem wit_busMasterEnableClear : let m : Master := .h0; let c : CfgSpace := ⟨true, true, false, false⟩; let s : State := withRings;
    m ≠ .m0 ∧ (s.host.ports.get m).linkUp ≠ false := by decide

theorem wit_entdaa : let a : BitVec 7 := 0x10; let s : State := owned;
    s.pin.vaux = true ∧ s.host.m0Addr.isNone = true := by decide

theorem wit_setdasa : let target : BitVec 7 := 0x50; let a : BitVec 7 := 0x10; let s : State := owned;
    s.pin.vaux = true ∧ s.host.m0Addr.isNone = true ∧ target = m0Static s := by decide

theorem wit_rstdaa : let s : State := withM0;
    s.pin.vaux = true := by decide

theorem wit_getpid : let s : State := withM0;
    s.pin.vaux = true ∧ s.host.m0Addr.isSome = true := by decide

theorem wit_getbcr : let s : State := withM0;
    s.pin.vaux = true ∧ s.host.m0Addr.isSome = true := by decide

theorem wit_getdcr : let s : State := withM0;
    s.pin.vaux = true ∧ s.host.m0Addr.isSome = true := by decide

theorem wit_getstatus : let s : State := withM0;
    s.pin.vaux = true ∧ s.host.m0Addr.isSome = true := by decide

theorem wit_enec : let s : State := withM0;
    s.pin.vaux = true := by decide

theorem wit_disec : let s : State := withM0;
    s.pin.vaux = true := by decide


/-- In DORMANT with STRAP3 set. -/
def strapped : State := State.reset.updPin fun p => { p with straps := 8 }
theorem wit_v48InputLost : let cv : Nat := 3799; let s : State := owned;
    (cv < 3800 ∨ 6200 < cv) := by decide

theorem wit_v48InputInRange : let cv : Nat := 4000; let s : State := State.reset;
    s.pin.vaux = true ∧ 4000 ≤ cv ∧ cv ≤ 6000 := by decide

theorem wit_pwrgoodLost : let chatter : Bool := false; let s : State := owned;
    s.pin.vaux = true := by decide

theorem wit_powerConditionsHeld : let s : State := setNow (State.reset.updMode fun m => { m with condSince := some 5 }) 10000005; let t : Nat := 5;
    s.mode.condSince = some t ∧ s.mode.mode = .dormant ∧ s.mode.ramp = false ∧ t + 10000000 ≤ s.tb.now := by decide

theorem wit_railsInRegulation : let s : State := State.reset.updMode fun m => { m with ramp := true };
    s.mode.ramp = true := by decide

theorem wit_sysresetN : let s : State := owned;
    s.pin.vaux = true ∧ s.pin.sysreset = false := by decide

theorem wit_sysresetDeassert : let straps : BitVec 4 := 5; let s : State := owned.updPin fun p => { p with sysreset := true };
    s.pin.sysreset = true := by decide

theorem wit_tapReset : let s : State := owned;
    s.pin.vaux = true := by decide

theorem wit_idcode : let s : State := owned;
    s.pin.vaux = true := by decide

theorem wit_bypass : let s : State := owned;
    s.pin.vaux = true := by decide

theorem wit_samplePreload : let sample : List Bool := [true]; let load : List Bool := [false]; let s : State := owned;
    s.pin.vaux = true := by decide

theorem wit_extest1 : let s : State := strapped;
    s.pin.vaux = true := by decide

theorem wit_clamp : let s : State := strapped;
    s.pin.vaux = true := by decide

theorem wit_highz : let s : State := strapped;
    s.pin.vaux = true := by decide

theorem wit_gpioEdgeDetect : let i : Nat := 7; let driven : Bool := true; let s : State := owned;
    let level := if bit s.pin.gpioDir i then bit s.pin.gpioOut i else driven
    s.pin.vaux = true ∧ i < 8 ∧ bit s.pin.gpioIn i ≠ level := by decide


/-- The owner's BAR mapped, time well on, and the latches changed. -/
def latched (f : RivSt → RivSt) : State := setNow (mapped.updRiv f) 2000000000
theorem wit_flowfailFault : let c : Bool := false; let s : State := owned;
    s.pin.vaux = true := by decide

theorem wit_traystopFault : let c : Bool := true; let s : State := owned;
    s.pin.vaux = true := by decide

theorem wit_rivelInputUnfaulted : let i : Nat := 2; let s : State := owned;
    s.pin.vaux = true ∧ i ≤ 2 ∧ (getIn s.riv i).chatter = false := by decide

theorem wit_chatterEnd1 : let i : Nat := 0; let faulted : Bool := true; let s : State := owned.updRiv fun r => { r with flow := ⟨true, true, none⟩ };
    s.pin.vaux = true ∧ i ≤ 2 ∧ (getIn s.riv i).chatter = true ∧ faulted = true := by decide

theorem wit_chatterEnd2 : let i : Nat := 0; let faulted : Bool := false; let s : State := owned.updRiv fun r => { r with flow := ⟨true, true, none⟩ };
    s.pin.vaux = true ∧ i ≤ 2 ∧ (getIn s.riv i).chatter = true ∧ faulted = false := by decide

theorem wit_flowLatchClear1 : let m : Master := .h0; let s : State := latched fun r => { r with flowLatch := true, flow := ⟨false, false, some 5⟩ };
    barOk s m = true ∧ s.own.owner = some m ∧ s.riv.flowLatch = true ∧ s.riv.flow.fault = false ∧ s.riv.flow.chatter = false ∧ longClean s s.riv.flow.cleanSince = true := by decide

theorem wit_flowLatchClear2 : let m : Master := .h0; let s : State := latched fun r => { r with flowLatch := true };
    barOk s m = true ∧ s.own.owner = some m ∧ longClean s s.riv.flow.cleanSince = false := by decide

theorem wit_flowLatchClear3 : let m : Master := .h0; let s : State := (latched fun r => r).updOwn fun w => { w with owner := none };
    barOk s m = true ∧ s.own.owner ≠ some m := by decide

theorem wit_traystopLatchClear : let m : Master := .h0; let s : State := latched fun r => { r with trayLatch := true, tray := ⟨false, false, some 5⟩ };
    barOk s m = true ∧ s.own.owner = some m ∧ s.riv.trayLatch = true ∧ s.riv.tray.fault = false ∧ s.riv.tray.chatter = false ∧ longClean s s.riv.tray.cleanSince = true := by decide

theorem wit_crittempLatchClear : let m : Master := .h0; let s : State := latched fun r => { r with critLatch := true, critCleanSince := some 5 };
    barOk s m = true ∧ s.own.owner = some m ∧ s.riv.critLatch = true ∧ awake s = true ∧ longClean s s.riv.critCleanSince = true := by decide

theorem wit_trayBusFaultClear : let m : Master := .h0; let s : State := latched fun r => { r with busFault := true };
    barOk s m = true ∧ s.own.owner = some m ∧ s.riv.busFault = true := by decide

theorem wit_fatalLatchClear : let m : Master := .h0; let s : State := mapped.updErr fun e => { e with fatalLatch := true, fatalRead := true };
    barOk s m = true ∧ s.own.owner = some m ∧ s.err.fatalLatch = true ∧ s.err.fatalRead = true := by decide

theorem wit_laserAlarmClear : let m : Master := .h0; let v : Word := 1; let s : State := mapped;
    barOk s m = true ∧ s.own.owner = some m := by decide

theorem wit_traySetdasa : let target : BitVec 7 := 0x2A; let a : BitVec 7 := 0x10; let s : State := owned;
    s.pin.vaux = true ∧ s.riv.trayAddr.isNone = true ∧ target = 0x2A := by decide

theorem wit_trayEntdaa : let a : BitVec 7 := 0x10; let s : State := owned;
    s.pin.vaux = true ∧ s.riv.trayAddr.isNone = true := by decide

theorem wit_trayRstdaa : let s : State := owned;
    s.pin.vaux = true := by decide

theorem wit_trayGetpid : let s : State := owned.updRiv fun r => { r with trayAddr := some 1 };
    trayBusOn s = true := by decide

theorem wit_trayGetstatus : let s : State := owned.updRiv fun r => { r with trayAddr := some 1 };
    trayBusOn s = true := by decide

theorem wit_trayEnec : let s : State := owned;
    s.pin.vaux = true := by decide

theorem wit_trayDisec : let s : State := owned;
    s.pin.vaux = true := by decide

theorem wit_trayRegisterWrite : let index : Byte := 0x10; let data : List Byte := [1]; let reads : Nat := 2; let s : State := owned.updRiv fun r => { r with trayAddr := some 1 };
    trayBusOn s = true := by decide

theorem wit_heartbeat : let v : Byte := 1; let s : State := owned.updRiv fun r => { r with trayAddr := some 1 };
    trayBusOn s = true := by decide

theorem wit_trayBusFault : let s : State := owned;
    s.pin.vaux = true ∧ s.riv.busFault = false := by decide

theorem wit_trayAdvisory1 : let s : State := latched fun r => { r with advFlowAt := some 5 };
    s.pin.vaux = true ∧ heldSecond s s.riv.advFlowAt = true := by decide

theorem wit_trayAdvisory2 : let s : State := latched fun r => { r with advInletAt := some 5 };
    s.pin.vaux = true ∧ heldSecond s s.riv.advInletAt = true := by decide

theorem wit_trayAdvisory3 : let s : State := latched fun r => r;
    s.pin.vaux = true ∧ awake s = true ∧ s.riv.advHeart = false ∧ s.riv.heartbeatAt + 1000000000 ≤ s.tb.now := by decide

theorem wit_laserAlarmClear_one : let s := setNow (updEng owned 0 fun g => { g with lowLatch := true, clearSince := some 5 }) 2000000000
    let g := getEng s 0; (g.lowLatch || g.highLatch) = true ∧ g.clearSince = some 5 ∧ 5 + 100000000 ≤ s.tb.now := by decide

/-- A cold start at a step. -/
def starting (k : Nat) : State := owned.updMode fun m => { m with mode := .prepare, active := true, step := k }
theorem wit_startStepDone1 : let lanes : Bool := true; let fail : Option Nat := none; let cals : List (Nat × LaneCal) := []; let test : SelfTest := ⟨[], 0⟩; let s : State := starting 8;
    s.mode.active = true ∧ s.mode.haltEntry = false ∧ lanes = true ∧ s.mode.laneDone = false ∧ 5 ≤ s.mode.step ∧ s.mode.step ≤ 8 ∧ s.mode.step = 8 := by decide

theorem wit_startStepDone2 : let lanes : Bool := true; let fail : Option Nat := none; let cals : List (Nat × LaneCal) := []; let test : SelfTest := ⟨[], 0⟩; let s : State := starting 5;
    s.mode.active = true ∧ s.mode.haltEntry = false ∧ lanes = true ∧ s.mode.laneDone = false ∧ 5 ≤ s.mode.step ∧ s.mode.step ≤ 8 ∧ s.mode.step ≠ 8 := by decide

theorem wit_startStepDone3 : let lanes : Bool := false; let fail : Option Nat := none; let cals : List (Nat × LaneCal) := []; let test : SelfTest := ⟨[], 0⟩; let s : State := starting 7;
    s.mode.active = true ∧ s.mode.haltEntry = false ∧ lanes = false ∧ s.mode.step ≠ 8 ∧ stepReady s = true := by decide

theorem wit_startStepDone4 : let s : State := starting 6; let cals : List (Nat × LaneCal) := []; let test : SelfTest := ⟨[], 0⟩;
    s.mode.active = true ∧ s.mode.haltEntry = false ∧ s.mode.warm = false ∧ s.mode.step = 6 ∧ s.mode.pendCold = none := by decide

theorem wit_crittempTrip : let s : State := owned;
    awake s = true := by decide

theorem wit_haltEntryDone : let s : State := owned.updMode fun m => { m with haltEntry := true };
    s.mode.haltEntry = true := by decide

theorem wit_haltBlockSigned : let s : State := owned.updLog fun l => { l with blocks := [⟨0, 0, none, [], 5⟩] }; let b : Block := ⟨0, 0, none, [], 5⟩;
    (s.log.blocks.find? fun x => x.sig.isNone && x.why == 5) = some b := by decide

theorem wit_dramSelfRefresh : let s : State := inMode .halt;
    s.mode.mode = .halt := by decide

theorem wit_haltRailsRestored : let s : State := (inMode .halt).updMode fun m => { m with restore := some order0 }; let o : Order := order0;
    s.mode.mode = .halt ∧ s.mode.restore = some o := by decide


/-- A request of context 3 for 100 W. -/
def ask : PreRamp := { ctx := 3, unit := 0, askW := 100, grantW := 0, sentAt := 0, relAt := none, received := false, done := false }
theorem wit_powerControlTick1 : let vin : Nat := 4800; let inputW : Nat := 500; let loadW : Nat := 400; let demand : List Nat := [1]; let floors : List Nat := [1]; let rails : List Nat := [1]; let s : State := owned;
    s.pin.vaux = true ∧ awake s = true := by decide

theorem wit_powerControlTick2 : let vin : Nat := 4800; let inputW : Nat := 0; let loadW : Nat := 0; let demand : List Nat := []; let floors : List Nat := []; let rails : List Nat := []; let s : State := State.reset;
    s.pin.vaux = true ∧ awake s = false := by decide

theorem wit_slopeTick : let want : Nat := 5; let s : State := owned;
    awake s = true := by decide

theorem wit_railLimitExceeded : let j : Nat := 5; let current : Nat := 100000; let held : Bool := false; let s : State := State.reset;
    j < 6 ∧ railLimit j < current ∧ (awake s = true ∨ j = 5) ∧ s.pin.vaux = true := by decide

theorem wit_prerampRequest : let s : State := owned.updPwr fun p => { p with requests := [ask] }; let r : PreRamp := ask;
    (s.pwr.requests.find? fun r => !r.received) = some r := by decide

theorem wit_rampComplete : let n : Nat := 3; let s : State := owned.updPwr fun p => { p with ballastDw := 1000, requests := [{ ask with grantW := 100, received := true }] };
    let mine := fun (r : PreRamp) => r.ctx == n && r.received && !r.done
    s.pwr.prerampEn = true ∧ s.pwr.requests.any mine = true ∧ 10 * grants s.pwr ≤ s.pwr.ballastDw := by decide

theorem wit_rampWaitExpiry : let n : Nat := 3; let s : State := updCtx owned 3 fun x => { x with relWait := true };
    (getCtx s n).relWait = true ∧ rampHolds s n = false := by decide

theorem wit_phaseTakesEffect : let s : State := owned.updPwr fun p => { p with pend := some ⟨2, 0⟩ }; let x : PendPhase := ⟨2, 0⟩;
    s.pwr.pend = some x ∧ awake s = true ∧ x.tp ≤ s.tb.dt := by decide

theorem wit_oppChangeDone : let s : State := owned.updPwr fun p => { p with oppMoving := true };
    s.pwr.oppMoving = true := by decide

theorem wit_tempSample : let temps : List Int := [1600]; let s : State := owned;
    awake s = true := by decide

theorem wit_thermalCapStep : let s : State := owned;
    awake s = true := by decide


/-- Lane `p` changed on a native port 0. -/
def lane (p : Nat) (f : Lane → Lane) : State := updLane sparing p f
/-- A scan of lane 0 with two points to go, and the calibration that passes. -/
def scan0 : Scan := { pl := 0, points := [(0, 0, 0), (1, 0, 0)], done := [], valid := true, order := ⟨0x0403, order0, 0, 0⟩ }
def calOk : LaneCal := { cause := 0, awaiting := false, tx := 0, ctle := 0, dfe := 0, ffe := 0, temp := 0 }
theorem wit_laneSignalPresent1 : let p : Nat := 0; let power : Int := 100; let s : State := lane 0 fun l => { l with role := 1, state := 2 };
    let l := getLane s p
    l.role ≠ 0 ∧ l.role ≠ 6 ∧ l.state = 2 := by decide

theorem wit_laneSignalPresent2 : let p : Nat := 0; let power : Int := 100; let s : State := owned;
    let l := getLane s p
    (l.role = 0 ∨ l.role = 6 ∨ l.state ≠ 2) := by decide

theorem wit_laneAdaptDone1 : let p : Nat := 0; let c : LaneCal := calOk; let s : State := spared;
    let e := p / 17
    (getEng s e).spared = some p := by decide

theorem wit_laneAdaptDone2 : let p : Nat := 0; let c : LaneCal := { calOk with cause := 1 }; let s : State := lane 0 fun l => { l with state := 3 };
    let l := getLane s p
    let e := p / 17
    (getEng s e).spared ≠ some p ∧ (l.state = 3 ∨ (l.role = 5 ∧ l.cdr = false)) ∧ c.cause ≠ 0 := by decide

theorem wit_laneAdaptDone3 : let p : Nat := 16; let c : LaneCal := calOk; let s : State := lane 16 fun l => { l with state := 3, role := 2 };
    let l := getLane s p
    let e := p / 17
    (getEng s e).spared ≠ some p ∧ (l.state = 3 ∨ (l.role = 5 ∧ l.cdr = false)) ∧ c.cause = 0 ∧ p % 17 = 16 ∧ l.role = 2 := by decide

theorem wit_laneAdaptDone4 : let p : Nat := 0; let c : LaneCal := calOk; let s : State := lane 0 fun l => { l with state := 3 };
    let l := getLane s p
    let e := p / 17
    (getEng s e).spared ≠ some p ∧ (l.state = 3 ∨ (l.role = 5 ∧ l.cdr = false)) ∧ c.cause = 0 ∧ (p % 17 ≠ 16 ∨ l.role ≠ 2) := by decide

theorem wit_recalibrateDone : let p : Nat := 0; let c : LaneCal := calOk; let s : State := lane 0 fun l => { l with recal := true };
    (getLane s p).recal = true := by decide

theorem wit_eyeScanPoint : let p : Nat := 0; let errors : Nat := 3; let compared : Nat := 100; let s : State := updEng sparing 0 fun g => { g with scans := [scan0] }; let x : Scan := scan0; let pt : Nat × Int × Int := (0, 0, 0); let rest : List (Nat × Int × Int) := [(1, 0, 0)];
    ((getEng s (p / 17)).scans.find? fun x => x.pl == p) = some x ∧ x.points = pt :: rest := by decide

theorem wit_laserSample : let e : Nat := 31; let power : Int := 1000; let temp : Int := 400; let s : State := owned;
    e < 32 := by decide


/-- A requester's handshake begun at time 0. -/
def asking : Handshake :=
  { requester := true, peer := none, revert := false, pos := 0, pl := 0, seq := 1, cause := 1, order := false, merged := false,
    deskewed := false, acked := false, sentAck := false, sw := 0, taken := false, began := 0 }
theorem wit_spareStandby : let e : Nat := 0; let s : State := setNow (updEng owned 0 fun g => { g with spareState := 1, spareLockSince := some 5 }) 10000005; let t : Nat := 5;
    let g := getEng s e
    g.spareLockSince = some t ∧ g.spareState = 1 ∧ t + 10000000 ≤ s.tb.now := by decide

theorem wit_spareLockLost : let e : Nat := 0; let s : State := sparing;
    let g := getEng s e
    (g.spareState = 2 ∨ g.spareState = 1) := by decide

theorem wit_spareTrigger : let p : Nat := 0; let cause : Nat := 1; let s : State := setNow (updEng sparing 0 fun g => { g with autoSpare := true, above := [(0, 0)] }) 100000000;
    triggerHolds s p cause = true ∧ spareReady s (p / 17) p = true := by decide

theorem wit_spareAckTimeout : let e : Nat := 0; let s : State := setNow (updEng owned 0 fun g => { g with hs := some asking }) 1000000; let h : Handshake := asking;
    (getEng s e).hs = some h ∧ h.requester = true ∧ h.acked = false ∧ h.taken = false ∧ h.began + 1000000 ≤ s.tb.now := by decide

theorem wit_xpSourceLost1 : let p : Nat := 0; let s : State := setXp owned 0 (some ⟨2, [17], false⟩); let x : Xp := ⟨2, [17], false⟩;
    getXp s p = some x ∧ x.squelched = false := by decide

theorem wit_xpSourceLost2 : let p : Nat := 0; let s : State := setXp owned 0 (some ⟨2, [17], true⟩); let x : Xp := ⟨2, [17], true⟩;
    getXp s p = some x ∧ x.squelched = true := by decide

theorem wit_xpResume1 : let p : Nat := 0; let s : State := setNow (setXp (lane 0 fun l => { l with cdr := true }) 0 (some ⟨2, [17], true⟩)) 1000000; let x : Xp := ⟨2, [17], true⟩;
    getXp s p = some x ∧ x.squelched = true ∧ (getLane s p).cdr = true ∧ (getLane s p).cdrAt + 1000000 ≤ s.tb.now := by decide

theorem wit_xpResume2 : let p : Nat := 0; let s : State := setXp owned 0 (some ⟨2, [17], true⟩); let x : Xp := ⟨2, [17], true⟩;
    getXp s p = some x ∧ (x.squelched = false ∨ (getLane s p).cdr = false ∨ s.tb.now < (getLane s p).cdrAt + 1000000) := by decide


theorem wit_markerTransmit1 : let p : Nat := 0; let s : State := setPort sparing 0 (some ⟨0, 1⟩); let n : Nat := 0;
    portOfPL s p = some n ∧ isNative s n = false ∧ switchNow s p = false := by decide

theorem wit_markerTransmit2 : let p : Nat := 0; let s : State := sparing; let n : Nat := 0;
    portOfPL s p = some n ∧ isNative s n = true := by decide

set_option maxRecDepth 20000 in
theorem wit_markerReceived1 : let p : Nat := 0; let m : MarkerSeen := ⟨0, 7, markerBlock 0 0 false 1, false⟩; let s : State := lane 0 fun l => { l with cdr := true, search := [Search.reset] }; let n : Nat := 0; let c : PortCfg := ⟨0, 2⟩;
    markerPort s p = some n ∧ getPort s n = some c ∧ (getLane s p).cdr = true ∧ patternSeen s n m = true ∧ m.pcsLane < (getLane s p).search.length := by decide

theorem wit_markerReceived2 : let p : Nat := 0; let m : MarkerSeen := ⟨0, 7, 0, false⟩; let s : State := sparing; let n : Nat := 0;
    markerPort s p = some n ∧ ((getLane s p).cdr = false ∨ patternSeen s n m = false ∨ (getLane s p).search.length ≤ m.pcsLane) := by decide

theorem wit_markerPositionMiss1 : let p : Nat := 0; let k : Nat := 0; let pos : Nat := 7; let s : State := lane 0 fun l => { l with marker := true, search := [Search.reset] }; let n : Nat := 0; let c : PortCfg := ⟨0, 2⟩;
    markerPort s p = some n ∧ getPort s n = some c ∧ k < (getLane s p).search.length := by decide

theorem wit_fpAdvertise1 : let s : State := sparing.updTb fun b => { b with dt := dtMs };
    s.mode.mode ≠ .dormant ∧ s.mode.mode ≠ .halt ∧ s.tb.dt / dtMs ≠ s.pcs.advMs := by decide

theorem wit_fpAdvertise2 : let s : State := sparing;
    s.tb.dt / dtMs = s.pcs.advMs := by decide

theorem wit_linkIdleStructReceived1 : let n : Nat := 0; let k : Nat := 0; let v : BitVec 1024 := BitVec.ofNat 1024 (0x53 * 2 ^ 1016 + (crc32c (bytesBE 124 (0x53 * 2 ^ 984))).toNat); let s : State := lane 0 fun l => { l with marker := true };
    structOk s n k v = true ∧ structCopy s n k v = false := by decide +kernel

theorem wit_linkIdleStructReceived2 : let n : Nat := 0; let k : Nat := 0; let v : BitVec 1024 := BitVec.ofNat 1024 (0x53 * 2 ^ 1016 + (crc32c (bytesBE 124 (0x53 * 2 ^ 984))).toNat); let s : State := sparing;
    (structOk s n k v = false ∨ structCopy s n k v = true) := by decide +kernel

theorem wit_neighbourStale : let n : Nat := 0; let s : State := setNow (updPcsPort sparing 0 fun p => { p with nb := { p.nb with never := false } }) 3000000;
    let b := (getPcs s n).nb
    isNative s n = true ∧ b.never = false ∧ b.stale = false ∧ b.arrivedAt + 3000000 ≤ s.tb.now := by decide

theorem wit_localFaultOnset : let n : Nat := 0; let src : Nat := 3; let k : Nat := 0; let power : Int := 100; let s : State := sparing;
    portExists s n = true := by decide

theorem wit_localFaultEnd : let n : Nat := 0; let gone : BitVec 4 := 15; let power : Int := 100; let ago : Nat := 0; let s : State := sparing;
    portExists s n = true := by decide

theorem wit_remoteFaultReceived1 : let n : Nat := 0; let s : State := sparing;
    portExists s n = true ∧ (getPcs s n).recvRf = false := by decide

theorem wit_remoteFaultReceived2 : let n : Nat := 0; let s : State := updPcsPort sparing 0 fun p => { p with recvRf := true };
    portExists s n = true ∧ (getPcs s n).recvRf = true := by decide

theorem wit_remoteFaultEnd1 : let n : Nat := 0; let s : State := updPcsPort sparing 0 fun p => { p with recvRf := true };
    portExists s n = true ∧ (getPcs s n).recvRf = true := by decide

theorem wit_remoteFaultEnd2 : let n : Nat := 0; let s : State := sparing;
    portExists s n = true ∧ (getPcs s n).recvRf = false := by decide

theorem wit_defect : let n : Nat := 0; let b : Nat := 3; let on : Bool := true; let s : State := updPcsPort sparing 0 fun p => { p with hiser := [true, true] };
    let p := getPcs s n
    portExists s n = true ∧ b ≤ 6 ∧ (b ≠ 6 ∨ isNative s n = true) ∧ bit p.defects b ≠ on ∧ (if on then defectSets s n b else defectClears s n b) = true := by decide

theorem wit_hiserWindowEnd : let n : Nat := 0; let errs : Nat := 418; let s : State := sparing;
    portExists s n = true := by decide

theorem wit_serMsTick : let n : Nat := 0; let c : MsCounts := ⟨1, 0, 0, [(0, 0, 0)]⟩; let s : State := sparing;
    portExists s n = true := by decide

theorem wit_pmSecondEnd : let s : State := sparing.updTb fun b => { b with dt := dtSec };
    let cur := s.tb.dt / dtSec
    s.pcs.lastSec < cur := by decide


/-- Locked to a PPS that is qualified. -/
def timed : State := owned.updTb fun b => { b with set := { b.set with source := 1 }, refOk := true, ppsOk := true, servo := .locked }
theorem wit_ppsInEdge1 : let highNs : Nat := 99; let freq : Int := 0; let s : State := owned;
    s.mode.mode ≠ .dormant ∧ ppsAccepts s.tb highNs = false := by decide

theorem wit_ppsInEdge2 : let highNs : Nat := 100; let freq : Int := 0; let s : State := owned;
    s.mode.mode ≠ .dormant ∧ ppsAccepts s.tb highNs = true := by decide

theorem wit_ppsBadSecond : let s : State := setNow owned 1500000000;
    s.mode.mode ≠ .dormant ∧ s.tb.ppsFrom + 1500000000 ≤ s.tb.now := by decide

theorem wit_refInQualified : let s : State := owned;
    s.mode.mode ≠ .dormant := by decide

theorem wit_servoEvaluation1 : let freq : Int := 0; let s : State := (setPort timed 5 (some ⟨0, 2⟩)).updTb fun b => { b with set := { b.set with source := 3, sourcePort := 5 }, ltt := [(5, { Ltt.reset with samples := [(0, 0)], farLocked := true })] };
    s.tb.set.source = 3 ∧ qualified s = true ∧ s.tb.evalMs ≠ some (s.tb.now / 1000000) := by decide

/-- A PTP message of version 2. -/
def ptp0 : Pkt := { pkt0 with frame := List.replicate 15 0 ++ [2] ++ List.replicate 48 0 }
theorem wit_ptpMessageReceived1 : let freq : Int := 0; let s : State := owned.updFwd fun w => { w with ptpIn := [pkt0] }; let x : Pkt := pkt0; let xs : List Pkt := [];
    let n := x.port
    let u := s.updFwd fun w => { w with ptpIn := xs }
    let u1 := countFlight (finalise (portEvent u n 60 1) x none 0 Finish.eaten) x.ver 0 1
    s.fwd.ptpIn = x :: xs ∧ ((getPtp u1 n).role = 0 ∨ portExists u1 n = false ∨ ptpVersion x.frame ≠ 2) := by decide

theorem wit_ptpMessageReceived2 : let freq : Int := 0; let s : State := (sparing.updTb fun b => { b with ptp := [(0, { PtpPort.reset with role := 1 })] }).updFwd fun w => { w with ptpIn := [ptp0] }; let x : Pkt := ptp0; let xs : List Pkt := [];
    let n := x.port
    let u := s.updFwd fun w => { w with ptpIn := xs }
    let u1 := countFlight (finalise (portEvent u n 60 1) x none 0 Finish.eaten) x.ver 0 1
    s.fwd.ptpIn = x :: xs ∧ (getPtp u1 n).role ≠ 0 ∧ portExists u1 n = true ∧ ptpVersion x.frame = 2 := by decide

theorem wit_ptpMessageTransmit1 : let n : Nat := 0; let s : State := sparing.updTb fun b => { b with ptp := [(0, { PtpPort.reset with role := 1, masterOnly := true })] };
    let r := getPtpRun s n
    portFree s n = true ∧ clearOfProtected s n (psUnits (wirePs s n 64)) = true ∧ ptpState s n = .master ∧ since s r.syncAt 62500000 = true := by decide

theorem wit_ptpMessageTransmit2 : let n : Nat := 0; let s : State := sparing.updTb fun b => { b with ptp := [(0, { PtpPort.reset with role := 1, masterOnly := true })] };
    let r := getPtpRun s n
    portFree s n = true ∧ clearOfProtected s n (psUnits (wirePs s n 82)) = true ∧ ptpState s n = .master ∧ since s r.annSent 125000000 = true := by decide

/-- Port 0 hears a grandmaster of class 6 that is not this device. -/
def slaved : State := sparing.updTb fun b =>
  { b with ptp := [(0, { PtpPort.reset with role := 1 })],
           ptpRun := [(0, { PtpRun.reset with ann := some ⟨6, 0x21, 0, 128, 1, 0, (clockId + 1) * 65536, 0, 0⟩, annPrev := some 0 })] }
theorem slaved_offer : ptpOffer slaved 0 = some ⟨6, 0x21, 0, 128, 1, 0, (clockId + 1) * 65536, 0, 0⟩ := by
  have e : (clockId + 1) * 65536 / 65536 ≠ clockId := by omega
  have h0 : (getPtp slaved 0).role = 1 := by decide
  have h1 : portExists slaved 0 = true := by decide
  have h2 : getPtpRun slaved 0 =
    { PtpRun.reset with ann := some ⟨6, 0x21, 0, 128, 1, 0, (clockId + 1) * 65536, 0, 0⟩, annPrev := some 0 } := rfl
  have h3 : slaved.tb.now = 0 := rfl
  simp [ptpOffer, h0, h1, h2, h3, e, PtpRun.reset]
theorem slaved_slave : ptpState slaved 0 = .slave := by
  have h : slaved.tb.ptp = [(0, { PtpPort.reset with role := 1 })] := rfl
  have h0 : getPtp slaved 0 = { PtpPort.reset with role := 1 } := rfl
  have h1 : portExists slaved 0 = true := by decide
  have h2 : (ownDs slaved).cls = 248 := by decide
  have b : ptpBest slaved = some (0, ⟨6, 0x21, 0, 128, 1, 0, (clockId + 1) * 65536, 0, 0⟩, [6, 0x21, 0, 128, 128, 0]) := by
    simp [ptpBest, h, slaved_offer, dsRank, PtpPort.reset]
  simp [ptpState, h0, h1, h2, slaved_offer, b, PtpPort.reset, dsRank, lexLt]
theorem wit_ptpMessageTransmit3 : let n : Nat := 0; let s : State := slaved;
    let r := getPtpRun s n
    portFree s n = true ∧ clearOfProtected s n (psUnits (wirePs s n 64)) = true ∧ ptpState s n = .slave ∧ since s r.reqAt 62500000 = true :=
  ⟨by decide, by decide, slaved_slave, by decide⟩

theorem wit_ptpMessageTransmit4 : let n : Nat := 0; let s : State := sparing.updTb fun b => { b with ptpOut := [⟨0, [], none⟩] }; let m : PtpMsg := ⟨0, [], none⟩;
    portFree s n = true ∧ (s.tb.ptpOut.find? fun m => m.port == n) = some m ∧ clearOfProtected s n (psUnits (wirePs s n (m.frame.length + 4))) = true := by decide

theorem wit_holdoverLimit : let s : State := owned.updTb fun b => { b with servo := .holdover };
    s.tb.servo = .holdover := by decide

theorem wit_ppsOutEdge : let s : State := owned;
    s.tb.set.ppsOutEn = true ∧ s.mode.mode ≠ .dormant ∧ s.mode.mode ≠ .halt ∧ ppsPasses s.tb = true := by decide

theorem wit_tbAdjustSecondBoundary : let s : State := owned.updTb fun b => { b with dt := dtSec, setSec := some (9, 0) }; let v : Nat := 9; let sec : Nat := 0;
    s.tb.setSec = some (v, sec) ∧ sec < s.tb.dt / dtSec := by decide

theorem wit_tbSlewComplete : let s : State := owned.updTb fun b => { b with ownerSlew := true };
    s.tb.ownerSlew = true ∧ s.tb.slew = 0 := by decide


/-- A record, and a block that fills with one. -/
def rec0 : Rec := { type := 7, diverged := false, unlocked := false, late := false, moved := false, dt := 0, source := 0, body := 0 }
def fill0 : Filling := { number := 0, records := [0], firstDt := 0, lastDt := 0, real := 1, closeAt := 5 }
theorem wit_evidenceRecordStore : let m : DramUse := ⟨0, []⟩; let s : State := owned.updLog fun l => { l with queue := [rec0] }; let r : Rec := rec0; let rs : List Rec := [];
    s.log.queue = r :: rs ∧ (∀ t, s.log.storedAt = some t → t + 40 ≤ s.tb.now) := by decide

theorem wit_blockCloseTimer : let s : State := setNow (owned.updLog fun l => { l with fill := some fill0 }) 5; let f : Filling := fill0;
    s.log.fill = some f ∧ f.closeAt ≤ s.tb.now := by decide

theorem wit_blockSigned1 : let s : State := oneBlock; let b : Block := ⟨0, 0, none, [], 3⟩;
    (s.log.blocks.find? fun x => x.sig.isNone && x.why != 5) = some b := by decide

theorem wit_blockSigned2 : let s : State := owned;
    (s.log.blocks.find? fun x => x.sig.isNone && x.why != 5) = none := by decide


/-- A learned cell that only an ended version sees, a request to learn, and a dump. -/
def cell0 : EmCell := { table := 0, key := 0, ad := 0, learned := true, hits := 0, from_ := 0, to_ := some 0, visit := 0 }
def learn0 : LearnReq := { move := false, table := 0, key := 0, port := 1 }
def dump0 : Dump := { mem := 0, lock := true, began := 0, order := order0 }
def tbl (f : TblSt → TblSt) : State := owned.updTbl f
theorem wit_commitInstant : let s : State := owned.updVer fun x => { x with slots := [⟨2, 0, 0, none, 0⟩, ⟨1, 1, 0, none, 0⟩], pend := some ⟨0, false, none, 0⟩ }; let p : PendCommit := ⟨0, false, none, 0⟩; let v : Nat := 1;
    s.ver.pend = some p ∧ stagedSeq s = some v ∧ p.tc ≤ s.tb.dt := by decide

theorem wit_versionRetired : let s : State := (owned.updVer fun x => { x with slots := [⟨2, 1, 0, none, 0⟩, ⟨3, 0, 0, none, 0⟩] }).updTb fun b => { b with dt := 10 * dtUs }; let v : VSlot := ⟨3, 0, 0, none, 0⟩;
    s.ver.slots.find? (mayRetire s) = some v := by decide

theorem wit_copyFree1 : let loc : Nat := 5; let s : State := tbl fun x => { x with em := [(5, some cell0)] }; let c : EmCell := cell0;
    freeRuns s = true ∧ getEm s loc = some c ∧ liveSees s c.from_ c.to_ = false := by decide

theorem wit_copyFree2 : let loc : Nat := 0; let s : State := tbl fun x => { x with lpm4 := [⟨false, 0, 0, 0, 0, 0, none⟩] }; let e : LpmEnt := ⟨false, 0, 0, 0, 0, 0, none⟩;
    freeRuns s = true ∧ lpmAt s loc = some e ∧ (e.valid = false ∨ liveSees s e.from_ e.to_ = false) ∧ memLocked s 1 = false := by decide

theorem wit_copyFree3 : let loc : Nat := 5; let s : State := tbl fun x => { x with acl := [(5, some ⟨0, 0, 0, 0, 0, some 0⟩)] }; let c : AclRow := ⟨0, 0, 0, 0, 0, some 0⟩;
    freeRuns s = true ∧ getAcl s loc = some c ∧ liveSees s c.from_ c.to_ = false := by decide

theorem wit_copyFree4 : let loc : Nat := 5; let s : State := tbl fun x => { x with act := [(5, some ⟨0, 0, some 0⟩)] }; let c : ActWord := ⟨0, 0, some 0⟩;
    freeRuns s = true ∧ getAct s loc = some c ∧ liveSees s c.from_ c.to_ = false := by decide

theorem wit_copyFree5 : let mem : Nat := 3; let loc : Nat := 5; let s : State := tbl fun x => { x with flushes := [⟨0, none, order0⟩] };
    freeRuns s = false := by decide

theorem wit_learnInsert1 : let s : State := tbl fun x => { x with learnQ := [learn0] }; let r : LearnReq := learn0; let rs : List LearnReq := [];
    s.tbl.learnQ = r :: rs ∧ r.move = false ∧ memLocked s 0 = false ∧ learnRuns s = true ∧ ownerAtWork s = false := by decide

theorem wit_learnInsert2 : let s : State := tbl fun x => { x with learnQ := [learn0] }; let r : LearnReq := learn0; let rs : List LearnReq := [];
    let t := s.updTbl fun x => { x with learnQ := rs }
    s.tbl.learnQ = r :: rs ∧ r.move = false ∧ memLocked s 0 = false ∧ learnRuns s = true ∧ ownerAtWork s = false ∧ ((liveSeqs t).any fun v => (emFind t r.table v r.key).isSome) = false := by decide

theorem wit_stationMove : let s : State := tbl fun x => { x with learnQ := [{ learn0 with move := true }] }; let r : LearnReq := { learn0 with move := true }; let rs : List LearnReq := [];
    s.tbl.learnQ = r :: rs ∧ r.move = true ∧ learnRuns s = true ∧ ownerAtWork s = false := by decide

theorem wit_agingVisit : let l : Nat := 5; let hit : BitVec 4 := 0; let s : State := setNow (tbl fun x => { x with agePeriod := 1000, learn := [(0, { LearnSet.reset with age := true })], em := [(5, some { cell0 with to_ := none })] }) 1000000000; let c : EmCell := { cell0 with to_ := none };
    getEm s l = some c ∧ c.learned = true ∧ (learnSet s c.table).age = true ∧ liveSees s c.from_ c.to_ = true ∧ c.visit + s.tbl.agePeriod * 1000000 ≤ s.tb.now ∧ learnRuns s = true ∧ memLocked s 0 = false ∧ ownerAtWork s = false ∧ learnWaits s = false := by decide

theorem wit_flushDone : let s : State := tbl fun x => { x with flushes := [⟨0, none, order0⟩] }; let f : Flush := ⟨0, none, order0⟩; let fs : List Flush := [];
    s.tbl.flushes = f :: fs := by decide

theorem wit_shadowFillDone : let s : State := tbl fun x => { x with shadow := .filling };
    s.tbl.shadow = .filling := by decide

theorem wit_shadowFault : let cause : Nat := 1; let s : State := tbl fun x => { x with shadow := .valid };
    let on := s.tbl.shadow == .valid || s.tbl.shadow == .filling
    on = true ∧ (cause = 1 ∨ (cause = 2 ∧ attached s (shadowMaster s) = false)) := by decide

theorem wit_backgroundCompare : let parity : BitVec 4 := 1; let differ : Bool := false; let s : State := owned;
    (modeOk s = true ∨ s.mode.mode = .prepare) ∧ spareSlot s = true := by decide

theorem wit_tableRepair1 : let mem : Nat := 3; let loc : Nat := 4194303; let quads : List (Option Nat) := [some 1, some 1, some 1, none]; let shadow : Option Nat := none; let s : State := owned;
    let key := repairKey mem
    let qs := (quads.filterMap id).map key
    let sh := if s.tbl.shadow = .valid then shadow.map key else none
    let all := qs ++ sh.toList
    let shadowBad := s.tbl.shadow == .valid && shadow.isNone
    quads.length = 4 ∧ loc < memLocations mem ∧ mem ≤ 3 ∧ (qs.length ≠ 4 ∨ shadowBad = true ∨ all.all (fun x => some x == all.head?) = false) := by decide

theorem wit_tableRepair2 : let mem : Nat := 3; let loc : Nat := 4194303; let quads : List (Option Nat) := [some 1, some 1, some 1, some 1]; let shadow : Option Nat := none; let s : State := owned;
    let key := repairKey mem
    let qs := (quads.filterMap id).map key
    let sh := if s.tbl.shadow = .valid then shadow.map key else none
    let all := qs ++ sh.toList
    quads.length = 4 ∧ loc < memLocations mem ∧ mem ≤ 3 ∧ qs.length = 4 ∧ (s.tbl.shadow == .valid && shadow.isNone) = false ∧ all.all (fun x => some x == all.head?) = true := by decide

theorem wit_tableDumpDone : let s : State := tbl fun x => { x with dumps := [dump0] }; let d : Dump := dump0; let v1 : List Dump := [];
    s.tbl.dumps = d :: v1 := by decide

theorem wit_dumpTimeout : let n : Nat := 1; let s : State := setNow (tbl fun x => { x with dumps := [dump0] }) 50000000; let d : Dump := dump0; let v1 : List Dump := [];
    s.tbl.dumps = d :: v1 ∧ d.began + 50000000 ≤ s.tb.now := by decide


/-- Port 0 with its lane in marker lock; a frame of 64 bytes with its FCS; a stored packet; a copy of it in DRAM. -/
def hearing : State := updPcsPort (updLane sparing 0 fun l => { l with marker := true }) 0 fun p => { p with lockSince := some 0 }
def frame0 (ty : Byte) : List Byte := refcs (List.replicate 12 0 ++ [ty, 0x08] ++ List.replicate 50 0)
def stored0 : Stored :=
  { kind := .packet, pkt := pkt0, ptr := some 0, bytes := 288, refs := 1, copies := 1, pg := none, final := false, cause := 0, pool := none, shav := [] }
def copy0 : DramCopy := { copy := ⟨9, 7, 288, 0, none⟩, written := false }
def inDram (d : DramCopy) : State := updQueue (owned.updBuf fun b => { b with stored := [(7, some stored0)] }) 0 fun x => { x with dram := [d] }
def accepted0 : Accepted := { port := 0, bytes := [], inDt := 0, arrSeq := 1, unlocked := false }
def hostCopy0 : HostCopy := { pkt := 7, frame := [], entry := 0, reason := 0, carrier := none, whole := false }
def sprayed : SprayCtx := { sender := 1, flow := 2, expected := 0, held := [⟨5, 0, 7, Plan.none, 0⟩], lastAt := 0, epoch := 0, firstNew := none, skipped := 0 }
theorem wit_frameReceived1 : let n : Nat := 0; let f : List Byte := []; let k : Nat := 0; let syms : Nat := 0; let marked : Bool := false; let s : State := owned;
    let started := s.tb.now - (s.tb.dt - ingressDt s n k syms) / 65536
    heard s n started = .none := by decide

theorem wit_frameReceived2 : let n : Nat := 0; let f : List Byte := []; let k : Nat := 0; let syms : Nat := 0; let marked : Bool := false; let s : State := updPcsPort sparing 0 fun p => { p with lastLock := some (0, 5) };
    let started := s.tb.now - (s.tb.dt - ingressDt s n k syms) / 65536
    heard s n started = .lost := by decide

theorem wit_frameReceived3 : let n : Nat := 0; let f : List Byte := []; let k : Nat := 0; let syms : Nat := 0; let marked : Bool := true; let s : State := hearing; let d : PcsPort → PcsPort := fun p => { p with discUcw := p.discUcw + 1 };
    let started := s.tb.now - (s.tb.dt - ingressDt s n k syms) / 65536
    heard s n started = .whole ∧ discardOf s n f marked started = some d := ⟨by decide, rfl⟩

theorem wit_frameReceived4 : let n : Nat := 0; let f : List Byte := frame0 0; let k : Nat := 0; let syms : Nat := 0; let marked : Bool := false; let s : State := hearing;
    let inDt := ingressDt s n k syms
    let started := s.tb.now - (s.tb.dt - inDt) / 65536
    let t := frameEvents (bwAdd s n false inDt f.length) n 0 6 f
    heard s n started = .whole ∧ discardOf s n f marked started = none ∧ isControl f = false ∧ probeHit t n f = none := by
  refine ⟨by decide, ?_, by decide, by decide⟩
  exact Option.isNone_iff_eq_none.mp (by decide +kernel)

theorem wit_pfcFrameReceived : let n : Nat := 0; let f : List Byte := frame0 0x88; let k : Nat := 0; let syms : Nat := 0; let marked : Bool := false; let s : State := hearing;
    let inDt := ingressDt s n k syms
    let started := s.tb.now - (s.tb.dt - inDt) / 65536
    heard s n started = .whole ∧ discardOf s n f marked started = none ∧ isControl f = true := by
  refine ⟨by decide, ?_, by decide⟩
  exact Option.isNone_iff_eq_none.mp (by decide +kernel)

theorem wit_packetIngress : let n : Nat := 0; let s : State := owned.updFwd fun w => { w with accepted := [accepted0] }; let a : Accepted := accepted0;
    (s.fwd.accepted.find? fun a => a.port == n) = some a := by decide

theorem wit_packetStore : let req : Nat := 3; let upset : GrantUpset := .none; let s : State := owned.updFwd fun w => { w with toStore := [⟨3, pkt0, none⟩] }; let w : Waiting := ⟨3, pkt0, none⟩;
    let c := claimCycle s
    nextClaim c req = some w ∧ claimTurn c = some req := by decide

theorem wit_hostSlotWrite : let crcOk : Bool := true; let u : BilletUpset := .none; let s : State := (owned.updBuf fun b => { b with stored := [(7, some stored0)] }).updFwd fun w => { w with hostCopies := [hostCopy0] }; let c : HostCopy := hostCopy0; let cs : List HostCopy := []; let x : Stored := stored0;
    let t := s.updFwd fun w => { w with hostCopies := cs }
    s.fwd.hostCopies = c :: cs ∧ getStored t c.pkt = some x := by decide

theorem wit_sprayRxTimeout : let sender : Nat := 1; let flow : Nat := 2; let s : State := setNow (owned.updFwd fun w => { w with ctxs := [sprayed] }) 50000; let c : SprayCtx := sprayed;
    let since := c.held.foldl (fun a h => min a h.at_) s.tb.now
    findCtx s sender flow = some c ∧ c.held.isEmpty = false ∧ since + s.fwd.spraySet.rxTimeoutUs * 1000 ≤ s.tb.now ∧ skipSuspended s c = false := by decide

theorem wit_sprayContextFree : let sender : Nat := 1; let flow : Nat := 2; let s : State := setNow (owned.updFwd fun w => { w with ctxs := [sprayed] }) 1000000; let c : SprayCtx := sprayed;
    findCtx s sender flow = some c ∧ c.lastAt + 1000000 ≤ s.tb.now := by decide

theorem wit_sprayDrainMarkerReceived : let s : State := owned.updFwd fun w => { w with markersIn := [pkt0] }; let p : Pkt := pkt0; let ps : List Pkt := [];
    s.fwd.markersIn = p :: ps := by decide

theorem wit_sprayMarkersSent : let g : Nat := 0; let s : State := updGroup owned 0 fun x => { x with waits := true };
    let x := getGroup s g
    x.waits = true ∧ x.markers = 0 := by decide

theorem wit_overflowWriteDone1 : let q : Nat := 0; let crcOk : Bool := true; let u : BilletUpset := .none; let m : DramUse := ⟨0, []⟩; let s : State := inDram copy0; let d : DramCopy := copy0;
    ((getQueue s q).dram.find? fun d => !d.written) = some d ∧ crcOk = true := by decide

theorem wit_overflowWriteDone2 : let q : Nat := 0; let crcOk : Bool := false; let u : BilletUpset := .none; let m : DramUse := ⟨0, []⟩; let s : State := inDram copy0; let d : DramCopy := copy0;
    ((getQueue s q).dram.find? fun d => !d.written) = some d ∧ crcOk = false := by decide

theorem wit_overflowReturn1 : let q : Nat := 0; let fault : Option (Nat × Nat) := none; let crcOk : Bool := true; let upset : GrantUpset := .none; let m : DramUse := ⟨0, []⟩; let s : State := inDram { copy0 with written := true }; let d : DramCopy := { copy0 with written := true }; let v1 : List DramCopy := [];
    (getQueue s q).dram = d :: v1 ∧ d.written = true ∧ resident s d = true := by decide

theorem wit_overflowReturn2 : let q : Nat := 0; let fault : Option (Nat × Nat) := none; let crcOk : Bool := true; let upset : GrantUpset := .none; let m : DramUse := ⟨0, []⟩; let s : State := (inDram { copy0 with written := true }).updBuf fun b => { b with stored := [(7, some { stored0 with ptr := none })] }; let d : DramCopy := { copy0 with written := true }; let v1 : List DramCopy := [];
    (getQueue s q).dram = d :: v1 ∧ d.written = true ∧ resident s d = false ∧ returnable s q = true ∧ claimTurn (claimCycle s) = some 32 := by decide

/-- Slice 0 and bucket 0 changed, and a running order. -/
def slice0 (f : Slice → Slice) : State := updSlice owned 0 f
def bucket0 (os : List Outst) : State := updBucket owned 0 0 fun x => { x with out := os }
def run (op : BitVec 16) (o : Order) : Running := ⟨op, o, 0, 0⟩
def withRun (s : State) (op : BitVec 16) (o : Order) : State := s.updHost fun h => { h with running := [run op o] }
set_option maxRecDepth 10000 in
theorem wit_latheDeal1 : let slice : Nat := 0; let i : Nat := 0; let s : State := updLathe owned 1 fun l => { l with iso := 1, queue := [.packet ⟨pkt0, 0, 0⟩] }; let e : Nat × Dealt := (1, ⟨pkt0, 0, 0⟩);
    strayed s slice = some e ∧ nextLathe s slice = some i := by decide

set_option maxRecDepth 10000 in
theorem wit_latheDeal2 : let slice : Nat := 0; let i : Nat := 0; let s : State := slice0 fun x => { x with admission := [pkt0] }; let p : Pkt := pkt0; let ps : List Pkt := [];
    strayed s slice = none ∧ nextLathe s slice = some i ∧ (getSlice s slice).admission = p :: ps := by decide

set_option maxRecDepth 10000 in
theorem wit_latheDeal3 : let slice : Nat := 0; let i : Nat := 0; let s : State := slice0 fun x => { x with arrivals := [pkt0] }; let p : Pkt := pkt0; let ps : List Pkt := [];
    strayed s slice = none ∧ nextLathe s slice = some i ∧ (getSlice s slice).admission = [] ∧ (getSlice s slice).arrivals = p :: ps := by decide

set_option maxRecDepth 10000 in
theorem wit_latheDeal4 : let slice : Nat := 0; let s : State := slice0 fun x => { x with exclude := 63, arrivals := [pkt0] }; let p : Pkt := pkt0; let ps : List Pkt := [];
    nextLathe s slice = none ∧ (getSlice s slice).admission.length < 256 ∧ (getSlice s slice).arrivals = p :: ps := by decide

set_option maxRecDepth 10000 in
theorem wit_latheDeal5 : let slice : Nat := 0; let s : State := slice0 fun x => { x with exclude := 63, arrivals := [pkt0], admission := List.replicate 256 pkt0 }; let p : Pkt := pkt0; let ps : List Pkt := [];
    nextLathe s slice = none ∧ 256 ≤ (getSlice s slice).admission.length ∧ (getSlice s slice).arrivals = p :: ps := by decide

theorem wit_dealDrainMarkerDone1 : let k : Nat := 0; let s : State := updLathe (slice0 fun x => { x with dealWaits := [⟨[0], order0⟩] }) 0 fun l => { l with queue := [.marker] }; let q : List LItem := []; let w : DealWait := ⟨[0], order0⟩;
    let l := getLathe s k
    let slice := latheSlice k
    let t := updLathe s k fun x => { x with queue := q }
    let w' : DealWait := { w with lathes := w.lathes.erase k }
    l.queue = .marker :: q ∧ l.cur = none ∧ ((getSlice t slice).dealWaits.find? fun w => w.lathes.contains k) = some w ∧ w'.lathes.isEmpty = true := by decide

theorem wit_dealDrainMarkerDone2 : let k : Nat := 0; let s : State := updLathe (slice0 fun x => { x with dealWaits := [⟨[0, 1], order0⟩] }) 0 fun l => { l with queue := [.marker] }; let q : List LItem := []; let w : DealWait := ⟨[0, 1], order0⟩;
    let l := getLathe s k
    let slice := latheSlice k
    let t := updLathe s k fun x => { x with queue := q }
    let w' : DealWait := { w with lathes := w.lathes.erase k }
    l.queue = .marker :: q ∧ l.cur = none ∧ ((getSlice t slice).dealWaits.find? fun w => w.lathes.contains k) = some w ∧ w'.lathes.isEmpty = false := by decide

theorem wit_latheResultRelease : let slice : Nat := 0; let bucket : Nat := 0; let s : State := bucket0 [⟨0, 0, some pkt0, 0⟩]; let v1 : BitVec 16 := 0; let v2 : Nat := 0; let k : Nat := 0; let p : Pkt := pkt0; let os : List Outst := [];
    (getBucket s slice bucket).out = ⟨v1, v2, some p, k⟩ :: os ∧ earlierResult s slice k = false := by decide

theorem wit_latheTimeoutSkip : let slice : Nat := 0; let bucket : Nat := 0; let s : State := setNow (bucket0 [⟨0, 0, none, 0⟩]) 20001; let q : BitVec 16 := 0; let at_ : Nat := 0; let k : Nat := 0; let os : List Outst := [];
    let x := getSlice s slice
    (getBucket s slice bucket).out = ⟨q, at_, none, k⟩ :: os ∧ at_ + x.timeoutUs * 1000 < s.tb.now := by decide

theorem wit_imageLoadDone1 : let b : Bool := true; let ok : Bool := true; let s : State := withRun owned 0x4A01 (pt 0xA2000001 []); let r : Running := run 0x4A01 (pt 0xA2000001 []); let bs : List Byte := [];
    (findRunning s 0x4A01 fun o => orderBank o == b) = some r ∧ r.order.data = .bytes bs ∧ ok = true := by decide

theorem wit_imageLoadDone2 : let b : Bool := true; let ok : Bool := false; let s : State := withRun owned 0x4A01 (pt 0xA2000001 []); let r : Running := run 0x4A01 (pt 0xA2000001 []); let bs : List Byte := [];
    (findRunning s 0x4A01 fun o => orderBank o == b) = some r ∧ r.order.data = .bytes bs ∧ ok = false := by decide

theorem wit_latheRestoreDone1 : let k : Nat := 5; let res : Nat := 0; let s : State := withRun (updLathe owned 5 fun l => { l with testing := true }) 0x4A05 (st 0xA1000005 0); let r : Running := run 0x4A05 (st 0xA1000005 0);
    (findRunning s 0x4A05 fun o => o.inst == k) = some r ∧ (getLathe s k).testing = true ∧ res = 0 := by decide

theorem wit_latheRestoreDone2 : let k : Nat := 5; let res : Nat := 2; let s : State := withRun (updLathe owned 5 fun l => { l with testing := true }) 0x4A05 (st 0xA1000005 0); let r : Running := run 0x4A05 (st 0xA1000005 0);
    (findRunning s 0x4A05 fun o => o.inst == k) = some r ∧ (getLathe s k).testing = true ∧ res ≠ 0 := by decide

theorem wit_latheRedirectDone1 : let slice : Nat := 0; let bad : BitVec 6 := 0; let s : State := slice0 fun x => { x with reload := some (false, none) }; let b : Bool := false; let o : Option Order := none;
    (getSlice s slice).reload = some (b, o) ∧ bad = 0 ∧ b = false := by decide

theorem wit_latheRedirectDone2 : let slice : Nat := 0; let bad : BitVec 6 := 3; let s : State := slice0 fun x => { x with reload := some (false, none) }; let b : Bool := false; let o : Option Order := none;
    (getSlice s slice).reload = some (b, o) ∧ (bad ≠ 0 ∨ b ≠ false) := by decide

theorem wit_mcheckRecoveryDone1 : let k : Nat := 0; let cause : Nat := 4; let s : State := updLathe owned 0 fun l => { l with recovery := some ⟨false, true, 0, 1⟩ }; let r : Recovery := ⟨false, true, 0, 1⟩;
    let l := getLathe s k
    l.recovery = some r ∧ (r.boot = true ∨ reloading s k (!r.bank) = false) ∧ 4 ≤ cause ∧ cause ≤ 6 := by decide

theorem wit_mcheckRecoveryDone2 : let k : Nat := 0; let cause : Nat := 0; let s : State := updLathe owned 0 fun l => { l with recovery := some ⟨false, true, 0, 1⟩ }; let r : Recovery := ⟨false, true, 0, 1⟩;
    let l := getLathe s k
    l.recovery = some r ∧ (r.boot = true ∨ reloading s k (!r.bank) = false) ∧ (cause < 4 ∨ 6 < cause) := by decide


/-- A list that takes over at 0, and a MAC frame under way. -/
def gcl0 : Gcl := { payload := [], disable := false, entries := [⟨0xFFFF, false, 1000⟩], cycleNs := 1000, takeover := 0, moved := false }
def tx0 : Tx := { kind := .mac, bytes := [], startDt := 0, startNs := 0, wirePs := 0, bad := false }
theorem wit_gateEntryChange : ∀ g, getPend owned 0 = some g → owned.tb.dt < g.takeover := by
  intro g h; cases h
theorem wit_gclTakeover : let n : Nat := 0; let s : State := setPend owned 0 (some gcl0); let g : Gcl := gcl0;
    getPend s n = some g ∧ g.takeover ≤ s.tb.dt := by decide

theorem wit_pfcPauseExpiry : let n : Nat := 0; let g : Nat := 7; let s : State := owned;
    (getPfc s n).pauseUntil.getD g 0 ≤ s.tb.now * 1000 := by decide

theorem wit_pfcRefresh : let n : Nat := 0; let s : State := (updPg sparing 0 fun x => { x with paused := true }).updEgr fun e => { e with pfc := [(0, { PfcSt.reset with txEn := 1, quanta := 0 })] };
    (txPaused s n).isEmpty = false ∧ (getPfc s n).sentPs + halfQuantaPs s n ≤ s.tb.now * 1000 := by decide

theorem wit_stormRestoreTimer : let q : Nat := 0; let s : State := setNow (updQs owned 0 fun d => { d with storm := true }) 200000000;
    (getQs s q).storm = true ∧ (getQs s q).quietFrom + (getPfc s (q / 16)).restoreMs * 1000000 ≤ s.tb.now := by decide

theorem wit_egressFrameStart : let n : Nat := 0; let crcOk : Bool := true; let u : BilletUpset := .none; let s : State := sparing;
    let s1 := pfcTry (takeover s n) n
    portFree s1 n = true := by decide

theorem wit_transmissionEnd : let n : Nat := 0; let u : BilletUpset := .none; let s : State := updSched sparing 0 fun p => { p with tx := some tx0 }; let x : Tx := tx0;
    let ended := decide (x.startNs * 1000 + x.wirePs ≤ s.tb.now * 1000)
    (getSched s n).tx = some x ∧ ended = true := by decide


/-- A group's set, a held packet, a fan-out packet with one copy on port 0, and a measurement. -/
def seqOn : SeqCfg := { SeqCfg.reset with enable := true }
def pend0 : SeqPend := { ts := 0, moved := false, cfg := seqOn, order := order0 }
def seqHeld0 : SeqHeld := { pkt := 7, inDt := 0, rank := 0, arrSeq := 0, due := 0, late := false }
def fanCopy0 : FanCopy := { port := 0, id := 0, tried := false, ready := none, done := false, blocked := false, outcome := 0, delay := 0 }
def fanPkt0 : FanPkt := { pkt := 7, inDt := 0, inPort := 0, hash := 0, sched := 0, moved := false, unprot := false, standard := true, copies := [fanCopy0] }
def holding : State := owned.updBuf fun b => { b with stored := [(7, some stored0)] }
def fanned : State := updFan holding 3 fun x => { x with pkts := [fanPkt0] }
def meas0 : TrimMeas := { port := 0, sent := 0, out := [], trips := [], lastAt := 0, began := 0 }
theorem wit_seqGroupChange : let g : Nat := 3; let s : State := updSeq owned 3 fun x => { x with pend := [pend0] }; let p : SeqPend := pend0; let ps : List SeqPend := [];
    let x := getSeq s g
    x.pend = p :: ps ∧ p.ts ≤ s.tb.dt := by decide

theorem wit_seqPresent : let g : Nat := 3; let s : State := updSeq holding 3 fun x => { x with cfgs := [(0, seqOn)], held := [seqHeld0] }; let h : SeqHeld := seqHeld0; let hs : List SeqHeld := []; let c : Nat × SeqCfg := (0, seqOn); let k : Stored := stored0;
    let x := getSeq s g
    x.held = h :: hs ∧ (x.cfgs.find? fun c => c.2.enable) = some c ∧ modeOk s = true ∧ h.due ≤ s.tb.dt ∧ inCycle s x < 4 ∧ getStored s h.pkt = some k := by decide

theorem wit_fanoutCopyPrepare : let g : Nat := 3; let port : Nat := 0; let crcOk : Bool := true; let u : BilletUpset := .none; let s : State := fanned; let k : FanPkt := fanPkt0; let c : FanCopy := fanCopy0; let x : Stored := stored0;
    (fanFind (getFan s g) port fun k c => c.ready.isNone && !c.done && decide (k.sched ≤ s.tb.dt + dtUs)) = some (k, c) ∧ getStored s k.pkt = some x := by decide

theorem wit_fanoutCopyRelease : let g : Nat := 3; let port : Nat := 0; let u : BilletUpset := .none; let s : State := fanned; let k : FanPkt := fanPkt0; let c : FanCopy := fanCopy0;
    (fanFind (getFan s g) port fun k c => !c.done && decide (copyDue s k port ≤ s.tb.dt)) = some (k, c) := by decide

theorem wit_fanoutStale : let g : Nat := 3; let port : Nat := 0; let u : BilletUpset := .none; let s : State := fanned.updTb fun b => { b with dt := 4 * dtMs }; let k : FanPkt := fanPkt0; let c : FanCopy := fanCopy0;
    (fanFind (getFan s g) port fun k c => !c.done && decide (copyDue s k port + 4 * dtMs ≤ s.tb.dt)) = some (k, c) := by decide

theorem wit_trimStep : let n : Nat := 0; let s : State := setNow (updTrim owned 0 fun x => { x with target := 5 }) 1000;
    let x := getTrim s n
    (x.cur ≠ x.target ∨ x.orders.isEmpty ≠ true) ∧ x.stepAt + 1000 ≤ s.tb.now := by decide

theorem wit_trimProbeSend : let n : Nat := 0; let s : State := sparing.updGrp fun x => { x with meas := [meas0] }; let m : TrimMeas := meas0;
    measOf s n = some m ∧ m.sent < 16 ∧ (m.sent = 0 ∨ m.lastAt + 10000 ≤ s.tb.now) ∧ (portFree s n && clearOfProtected s n (psUnits (wirePs s n 64))) = true := by decide

theorem wit_trimMeasureTimeout : let n : Nat := 0; let s : State := setNow (owned.updGrp fun x => { x with meas := [{ meas0 with sent := 16 }] }) 1000000; let m : TrimMeas := { meas0 with sent := 16 };
    measOf s n = some m ∧ m.sent = 16 ∧ m.lastAt + 1000000 ≤ s.tb.now := by decide


/-- A frame that carries collective header `h` and no payload; it stored and at unit 0; a chunk; a move. -/
def collBytes (h : Nat) : List Byte :=
  List.replicate 12 0 ++ [0x08, 0x00, 0x45] ++ List.replicate 8 0 ++ [17] ++ List.replicate 10 0 ++ [0, 0, 0x9D, 0x13, 0, 40, 0, 0] ++
    bytesBE 32 h ++ [0, 0, 0, 0]
def collStored (h : Nat) : Stored := { stored0 with pkt := { pkt0 with frame := collBytes h } }
def atUnit (h : Nat) (f : Ctx → Ctx) : State :=
  updUnit (updCtx (owned.updBuf fun b => { b with stored := [(7, some (collStored h))] }) 0 fun x => f { x with enabled := true }) 0
    fun y => { y with input := [(7, 288)] }
def taken (s : State) : State := updUnit s 0 fun y => { y with input := [] }
def chunk0 : Chunk := { num := 0, inputs := [], elems := [], began := 0, sent := false, check := true, overflow := false }
def move0 : CtxMove := { old := 0, cut := 0, markerSent := false, held := [], began := 0, order := none, isolation := false, released := false }
theorem wit_collContributionArrival1 : let u : Nat := 0; let ok : Bool := true; let up : BilletUpset := .none; let s : State := atUnit (2 ^ 252) fun x => { x with cfg := { x.cfg with contributors := 1 } }; let id : Nat := 7; let x : Stored := collStored (2 ^ 252); let t : State := taken s; let h : Nat := 2 ^ 252; let pl : List Byte := []; let n := x.pkt.dec.id; 
    modeOk s = true ∧ s.mode.haltEntry = false ∧ takeInput s u = some (id, x, t) ∧ ¬ kindOf s x.pkt.frame ∈ [1, 2, 3] ∧ collHome s n x.pkt.frame = u ∧ collJudge t (getCtx t n) x.pkt = .ok (h, pl) := by dsimp only; (repeat' apply And.intro) <;> first | rfl | decide +kernel

theorem wit_collContributionArrival2 : let u : Nat := 0; let ok : Bool := true; let up : BilletUpset := .none; let s : State := atUnit (2 ^ 252) fun x => { x with enabled := false }; let id : Nat := 7; let x : Stored := collStored (2 ^ 252); let t : State := taken s; let c : Nat := 0xD1; let n := x.pkt.dec.id; 
    modeOk s = true ∧ s.mode.haltEntry = false ∧ takeInput s u = some (id, x, t) ∧ ¬ kindOf s x.pkt.frame ∈ [1, 2, 3] ∧ collHome s n x.pkt.frame = u ∧ collJudge t (getCtx t n) x.pkt = .error c := by dsimp only; (repeat' apply And.intro) <;> first | rfl | decide +kernel

theorem wit_barrierArrive1 : let u : Nat := 0; let up : BilletUpset := .none; let s : State := atUnit (2 ^ 252 + 2 ^ 249) fun x => { x with cfg := { x.cfg with barrier := true, contributors := 1 } }; let id : Nat := 7; let x : Stored := collStored (2 ^ 252 + 2 ^ 249); let t : State := taken s; let h : Nat := 2 ^ 252 + 2 ^ 249; let pl : List Byte := []; let n := x.pkt.dec.id; 
    modeOk s = true ∧ s.mode.haltEntry = false ∧ takeInput s u = some (id, x, t) ∧ kindOf s x.pkt.frame = 2 ∧ collHome s n x.pkt.frame = u ∧ collJudge t (getCtx t n) x.pkt = .ok (h, pl) ∧ chunkOf h = (getCtx t n).base ∧ ((getCtx t n).arrived.any fun a => a.contrib == nfld h 199 9) = false := by dsimp only; (repeat' apply And.intro) <;> first | rfl | decide +kernel

theorem wit_barrierArrive2 : let u : Nat := 0; let up : BilletUpset := .none; let s : State := atUnit (2 ^ 252 + 2 ^ 249) fun x => { x with cfg := { x.cfg with barrier := true, contributors := 2 }, arrived := [⟨0, 9, 0, 0, false, 0⟩] }; let id : Nat := 7; let x : Stored := collStored (2 ^ 252 + 2 ^ 249); let t : State := taken s; let h : Nat := 2 ^ 252 + 2 ^ 249; let pl : List Byte := []; let n := x.pkt.dec.id; 
    modeOk s = true ∧ s.mode.haltEntry = false ∧ takeInput s u = some (id, x, t) ∧ kindOf s x.pkt.frame = 2 ∧ collHome s n x.pkt.frame = u ∧ collJudge t (getCtx t n) x.pkt = .ok (h, pl) ∧ chunkOf h = (getCtx t n).base ∧ ((getCtx t n).arrived.any fun a => a.contrib == nfld h 199 9) = true := by dsimp only; (repeat' apply And.intro) <;> first | rfl | decide +kernel

theorem wit_collParentResult1 : let u : Nat := 0; let up : BilletUpset := .none; let s : State := atUnit (2 ^ 252 + 2 ^ 248) fun x => { x with cfg := { x.cfg with partialUp := true }, chunks := [chunk0] }; let id : Nat := 7; let x : Stored := collStored (2 ^ 252 + 2 ^ 248); let t : State := taken s; let h : Nat := 2 ^ 252 + 2 ^ 248; let pl : List Byte := []; let n := x.pkt.dec.id; let c := chunkOf h; 
    modeOk s = true ∧ s.mode.haltEntry = false ∧ takeInput s u = some (id, x, t) ∧ ((kindOf s x.pkt.frame = 1 ∨ kindOf s x.pkt.frame = 3)) ∧ collHome s n x.pkt.frame = u ∧ collJudge t (getCtx t n) x.pkt = .ok (h, pl) ∧ (getCtx t n).cfg.barrier = false ∧ ((getCtx t n).chunks.any fun k => k.num == c) = true := by dsimp only; (repeat' apply And.intro) <;> first | rfl | decide +kernel

theorem wit_collParentResult2 : let u : Nat := 0; let up : BilletUpset := .none; let s : State := atUnit (2 ^ 252 + 3 * 2 ^ 248) fun x => { x with cfg := { x.cfg with partialUp := true, barrier := true }, arrived := [⟨0, 9, 0, 0, false, 0⟩] }; let id : Nat := 7; let x : Stored := collStored (2 ^ 252 + 3 * 2 ^ 248); let t : State := taken s; let h : Nat := 2 ^ 252 + 3 * 2 ^ 248; let pl : List Byte := []; let n := x.pkt.dec.id; 
    modeOk s = true ∧ s.mode.haltEntry = false ∧ takeInput s u = some (id, x, t) ∧ ((kindOf s x.pkt.frame = 1 ∨ kindOf s x.pkt.frame = 3)) ∧ collHome s n x.pkt.frame = u ∧ collJudge t (getCtx t n) x.pkt = .ok (h, pl) ∧ (getCtx t n).cfg.barrier = true ∧ chunkOf h = (getCtx t n).base ∧ (getCtx t n).arrived.isEmpty = false := by dsimp only; (repeat' apply And.intro) <;> first | rfl | decide +kernel

theorem wit_collRecompute : let n : Nat := 0; let badRead : Option Nat := none; let pass : Bool := true; let s : State := updCtx owned 0 fun x => { x with chunks := [chunk0] }; let k : Chunk := chunk0;
    let x := getCtx s n
    (x.chunks.find? fun k => k.check) = some k := by decide

theorem wit_collTimeout : let n : Nat := 0; let s : State := setNow (updCtx owned 0 fun x => { x with enabled := true, chunks := [chunk0] }) 1000000000; let c : BitVec 32 := 0;
    let x := getCtx s n
    let due := fun (b : Nat) => decide (b + x.cfg.timeoutMs * 1000000 ≤ s.tb.now)
    let hit := if x.cfg.barrier then
        if !x.arrived.isEmpty && !x.relWait && due x.arrivedAt then some x.base else none
      else (x.chunks.foldl (fun (b : Option Chunk) k => match b with
        | some y => if k.began < y.began then some k else b
        | none => some k) none).bind fun k => if due k.began then some k.num else none
    hit = some c ∧ x.enabled = true ∧ x.faulted = false ∧ modeOk s = true := by decide

theorem wit_collNotice : let n : Nat := 0; let s : State := setNow (updCtx owned 0 fun x => { x with enabled := true, cfg := { x.cfg with window := 4 } }) 100000;
    let x := getCtx s n
    x.enabled = true ∧ x.faulted = false ∧ modeOk s = true ∧ creditOf s x ≠ x.sentCredit ∧ x.sentAt + 100000 ≤ s.tb.now := by decide

theorem wit_collMoveMarker : let n : Nat := 0; let s : State := updCtx owned 0 fun x => { x with move := some move0 }; let m : CtxMove := move0;
    let x := getCtx s n
    let open_ := x.enabled && !x.faulted && (if x.cfg.barrier then seqBefore x.base m.cut else
      x.chunks.any fun k => seqBefore k.num m.cut)
    x.move = some m ∧ m.isolation = false ∧ open_ = false := by decide

theorem wit_moveHoldTimeout : let n : Nat := 0; let s : State := setNow (updCtx owned 0 fun x => { x with move := some move0 }) 1000000000; let m : CtxMove := move0;
    let x := getCtx s n
    x.move = some m ∧ m.released = false ∧ m.began + x.cfg.timeoutMs * 1000000 ≤ s.tb.now := by decide


/-- A copy that waits to be captured, and an instant past 2 us. -/
def capCopy0 : CapCopy := { pkt := 7, cls := 0, bytes := [], carrier := none, hold := 0 }
def late (op : BitVec 16) (o : Order) : State := (withRun owned op o).updTb fun b => { b with dt := 2 * dtUs }
theorem wit_selCtrlInstant : let s : State := owned.updTel fun q => { q with selWaits := [⟨0, 0, 0, 0, 1⟩] }; let w : SelWait := ⟨0, 0, 0, 0, 1⟩;
    (s.tel.selWaits.find? fun w => decide (w.due ≤ s.tb.dt)) = some w := by decide

theorem wit_reducerSnapshot1 : let s : State := late 0x0F03 (rd 0xF4000000 0); let r : Running := run 0x0F03 (rd 0xF4000000 0);
    (s.host.running.find? fun r => (r.opcode == 0x0F03 || r.opcode == 0x0F04 || r.opcode == 0x4F03) && decide (r.dt + 2 * dtUs ≤ s.tb.dt)) = some r ∧ r.order.kind = 0xF4 := by decide

theorem wit_reducerSnapshot2 : let s : State := late 0x0F04 (rd 0xF5000000 0); let r : Running := run 0x0F04 (rd 0xF5000000 0);
    (s.host.running.find? fun r => (r.opcode == 0x0F03 || r.opcode == 0x0F04 || r.opcode == 0x4F03) && decide (r.dt + 2 * dtUs ≤ s.tb.dt)) = some r ∧ r.order.kind ≠ 0xF4 := by decide

theorem wit_exportBatchFlush : let i : Nat := 0; let upset : GrantUpset := .none; let s0 : State := owned;
    let s := grantUpset s0 upset
    let x := getExport s i
    (batchSize s x ≤ x.batch.length ∨ (x.batch.isEmpty = false ∧ x.since + x.flushUs * 1000 ≤ s.tb.now)) := by decide

theorem wit_captureRecordWrite : let crcOk : Bool := true; let fault : Option (Nat × Nat) := none; let u : BilletUpset := .none; let m : DramUse := ⟨0, []⟩; let s : State := updCap (owned.updBuf fun b => { b with stored := [(7, some stored0)] }) fun q => { q with waiting := [capCopy0] }; let c : CapCopy := capCopy0; let x : Stored := stored0;
    let ready := fun (c : CapCopy) => match getStored s c.pkt with | some x => x.final || decide (x.refs ≤ 1) | none => true
    let t := updCap s fun q => { q with waiting := q.waiting.erase c }
    s.tel.cap.waiting.find? ready = some c ∧ getStored t c.pkt = some x := by decide

theorem wit_captureDrainDone : let m : DramUse := ⟨0, []⟩; let s : State := updCap owned fun q => { q with state := 2 };
    s.tel.cap.state = 2 ∧ s.mode.mode ≠ .halt := by decide

theorem wit_arbCommitInstant : let s : State := owned.updArb fun a => { a with pend := some 0 }; let ta : Nat := 0;
    s.arb.pend = some ta ∧ ta ≤ s.tb.dt := by decide

theorem wit_cuMemoryError : let u : Nat := 15; let addr : Nat := 5; let s : State := owned;
    u < 16 ∧ awake s = true ∧ s.mode.mode ≠ .halt := by decide

theorem wit_cuIsolationDone : let u : Nat := 0; let s : State := updUnit owned 0 fun y => { y with isolating := true };
    let y := getUnit s u
    y.isolating = true := by decide

theorem wit_cuRestoreDone : let u : Nat := 0; let ok : Bool := true; let s : State := updUnit owned 0 fun y => { y with testing := true };
    (getUnit s u).testing = true := by decide

theorem wit_mcheckLogicMismatch : let unit : Nat := 0x10F; let s : State := owned;
    awake s = true ∧ (unit < 32 ∨ (0x100 ≤ unit ∧ unit < 0x110)) := by decide

theorem wit_recordStoreParity : let group : Nat := 19; let slot : Nat := 15; let s : State := owned;
    s.pin.vaux = true ∧ group < 20 ∧ slot < 16 := by decide

theorem wit_islandClockLoss : let island : Nat := 122; let pll : Bool := true; let s : State := owned;
    awake s = true ∧ island < 123 := by decide


theorem witness_bankDigest : 32 ≤ (List.replicate 33 (0 : Byte)).length ∧ (bankOf owned true).state = 0 ∧
    (bankOf (updBank owned true fun b => { b with state := 3 }) true).state = 3 := by decide

/-- Two rows of table 3, of which only the second admits version 5 and key 2^639, and one that no bit is compared of. -/
def aclRows : State :=
  setAcl (setAcl (setAcl State.reset 9 (some ⟨3, 0, 0, 1, 0, none⟩)) 7 (some ⟨3, 2 ^ 639, 2 ^ 639, 2, 5, some 6⟩)) 4
    (some ⟨3, 0, 2 ^ 639, 3, 0, none⟩)
set_option exponentiation.threshold 700 in
theorem witness_acl : SMap.wf (fun _ => none) aclRows.tbl.acl = true ∧
    aclFind aclRows 3 5 1 (2 ^ 639) = some ⟨3, 2 ^ 639, 2 ^ 639, 2, 5, some 6⟩ ∧
    aclFind aclRows 3 6 1 (2 ^ 639) = some ⟨3, 0, 0, 1, 0, none⟩ ∧ aclFind aclRows 2 5 1 (2 ^ 639) = none := by decide +kernel

theorem witness_learnedAd : learnedAd ⟨true, true, true, true, 0xFFFFFFFFFFFFFFFF⟩ 300 = 0xFFFFFFFFFFFFFF2C ∧ (300 : Nat) < 512 := by decide
theorem witness_newLearn : let s := tbl fun x => { x with learnQ := [learn0] }
    s.tbl.learnQ = [learn0] ∧ learn0.move = false ∧ memLocked s 0 = false ∧ learnRuns s = true ∧ ownerAtWork s = false ∧
    ((liveSeqs (s.updTbl fun x => { x with learnQ := [] })).any fun v =>
      (emFind (s.updTbl fun x => { x with learnQ := [] }) learn0.table v learn0.key).isSome) = false := by decide

theorem witness_coldFp : ∃ s : State, s.mode.active = true ∧ s.mode.haltEntry = false ∧ s.mode.warm = false ∧ s.mode.step = 6 ∧
    s.mode.pendCold = none :=
  ⟨owned.updMode fun m => { m with active := true, warm := false, step := 6 }, rfl, rfl, rfl, rfl, rfl⟩

theorem witness_tbLocked : State.reset.tb.unlockUntil ≤ State.reset.tb.now ∧
    (stepDt State.reset 5).tb.now < State.reset.tb.now + 1000 := by decide

theorem witness_m0Doorbell : barOk m0Rings .m0 = true ∧ fld (0x00010000 : Word) 0 8 < 4 ∧
    kindSuits (fld (0x00010000 : Word) 8 1) (getRing m0Rings .m0 0) = true ∧ fld (0x00010000 : Word) 9 7 = 0 ∧
    (getRing m0Rings .m0 0).enable = true ∧
    ¬ (((getRing m0Rings .m0 0).type = 0 ∧ ringSize (getRing m0Rings .m0 0) - 1 < ((1 : BitVec 16) - (getRing m0Rings .m0 0).dev).toNat) ∨
      ((getRing m0Rings .m0 0).type ≠ 0 ∧ ringSize (getRing m0Rings .m0 0) - 1 < ((getRing m0Rings .m0 0).dev - (1 : BitVec 16)).toNat)) := by
  decide
theorem witness_m0Doorbell_refused : 4 ≤ fld (0x00000005 : Word) 0 8 ∧ kindSuits (fld (0x00000100 : Word) 8 1) (getRing m0Rings .m0 0) = false ∧
    fld (0x00000200 : Word) 9 7 ≠ 0 ∧ (getRing m0Rings .m0 2).enable = false := by decide

theorem witness_alert : State.reset.pin.vaux = true := by decide

/-! Ill-formed terms: one for each check, at the first value past its range (the bounds are the counts of 00 to 17). -/

theorem test_wf_refuses_orders_and_instructions : ([
    .nop { order0 with ring := 256 }, .mandrelTest { order0 with master := .m0, ring := 4 } 0,
    .add { insn0 with width := 1, lathe := 192 }, .ldl { insn0 with width := 3 }, .crc { insn0 with width := 1, opc := 0x30 },
    .portInfoRead .h0 (.part 3 2), .fpActive0Read .h0 (.part 0 0)] : List Instr).all (fun i => !i.wf) = true := by decide

theorem test_wf_refuses_events : ([
    .mcheckRecoveryDone 0 7, .doorbellWrite .m0 0 0 true, .payloadDmaDone 0 .later, .v48InputLost 4800,
    .perstNAssert .m0, .pcieLinkDown .m0, .pcieLinkUp .h0 6 1, .pcieLinkUp .h0 5 3,
    .busMasterEnableSet .m0 ⟨true, true, false, false⟩, .busMasterEnableClear .m0 ⟨true, true, false, false⟩,
    .trayAdvisory 0, .trayAdvisory 4, .tempSample [0], .trayRegisterWrite 0 [] 257,
    .powerControlTick 4800 0 0 [] [0, 0, 0] [0, 0, 0, 0, 0, 0],
    .powerControlTick 4800 0 0 [0, 0, 0] [] [0, 0, 0, 0, 0, 0], .powerControlTick 4800 0 0 [0, 0, 0] [0, 0, 0] [],
    .startStepDone true none [(544, ⟨0, false, 0, 0, 0, 0, 0⟩)] ⟨[], 0⟩, .startStepDone true none [] ⟨[(192, 0)], 0⟩,
    .spareTrigger 0 0, .tableRepair 0 0 [] none,
    .shadowFault 3, .mcheckLogicMismatch 32, .mcheckLogicMismatch 0x110, .latheRestoreDone 0 4,
    .v48InputInRange 3999, .v48InputInRange 6001] : List Instr).all (fun i => !i.wf) = true := by decide

theorem test_wf_refuses_indices_1 : ([
    .mcheckRecoveryDone 192 0, .latheDeal 32, .latheResultRelease 32 0, .latheResultRelease 0 4096,
    .latheTimeoutSkip 32 0, .latheTimeoutSkip 0 4096, .dealDrainMarkerDone 192, .latheRedirectDone 32 0,
    .doorbellWrite .h0 16 0 false, .orderFetch .h0 256 none .later false 0, .ringFault .h0 256,
    .msixModerationTimer .h0 64, .ringCtrlWrite .h0 256 0, .ringStatusRead .h0 256 .word,
    .registerWrite .h0 0x10000 [0] false, .v48InputLost 65536, .v48InputLost 3800, .chatterEnd 3 false,
    .powerControlTick 65536 0 0 [] [] [], .railLimitExceeded 6 0 false, .rampComplete 4096, .laneSignalPresent 544 0,
    .eyeScanPoint 544 0 0, .laserSample 32 0 0] : List Instr).all (fun i => !i.wf) = true := by decide

theorem test_wf_refuses_indices_2 : ([
    .spareStandby 32, .spareTrigger 544 1, .spareAckTimeout 32, .xpSourceLost 544, .xpResume 544,
    .markerTransmit 544, .markerReceived 544 ⟨0, 0, 0, false⟩, .markerPositionMiss 544 0 0, .linkIdleStructReceived 512 0 0,
    .linkIdleStructReceived 0 8 0, .neighbourStale 512, .frameReceived 512 [] 0 0 false, .frameReceived 0 [] 8 0 false,
    .pfcFrameReceived 512 [] 0 0 false, .pfcFrameReceived 0 [] 8 0 false, .pfcPauseExpiry 512 0, .pfcPauseExpiry 0 8,
    .trimProbeSend 512, .trimStep 512, .remoteFaultReceived 512, .localFaultOnset 512 0 0 0, .localFaultOnset 0 4 0 0,
    .localFaultOnset 0 0 8 0, .localFaultEnd 512 0 0 0, .defect 512 0 false, .defect 0 7 false, .hiserWindowEnd 512 0,
    .ptpMessageTransmit 512 .sync] : List Instr).all (fun i => !i.wf) = true := by decide

theorem test_wf_refuses_indices_3 : ([
    .copyFree 4 0, .packetIngress 512, .tableRepair 4 0 [] none, .packetStore 49 .none, .pfcRefresh 512,
    .pfcStormEnter 8192, .stormRestoreTimer 8192, .overflowReturn 8192 none false .none ⟨0, []⟩, .gateEntryChange 512,
    .gclTakeover 512, .sprayRxTimeout 65536 0, .sprayRxTimeout 0 65536, .sprayContextFree 65536 0,
    .sprayContextFree 0 65536, .sprayDrainLimit 65536 0, .sprayDrainLimit 0 64, .sprayMarkersSent 64,
    .seqPresent 16, .seqGroupChange 16, .collRecompute 4096 none false, .collTimeout 4096, .collNotice 4096,
    .prerampWithdraw 4096, .rampWaitExpiry 4096] : List Instr).all (fun i => !i.wf) = true := by decide

theorem test_wf_refuses_indices_4 : ([
    .collMoveMarker 4096, .cuMemoryError 16 0, .cuMemoryError 0 (2 ^ 24), .cuIsolationDone 16, .bwWindowEnd 512,
    .exportBatchFlush 16 .none, .mcheckLogicMismatch 32, .mcheckLogicMismatch 0x110, .recordStoreParity 20 0,
    .recordStoreParity 0 16, .islandClockLoss 123 false, .gpioEdgeDetect 8 false, .remoteFaultEnd 512,
    .spareLockLost 32, .latheRestoreDone 192 0, .cuRestoreDone 16 false, .trimMeasureTimeout 512,
    .moveHoldTimeout 4096, .rivelInputUnfaulted 3] : List Instr).all (fun i => !i.wf) = true := by decide

theorem test_wf_refuses_more : ([.laneAdaptDone 544 ⟨0, false, 0, 0, 0, 0, 0⟩, .recalibrateDone 544 ⟨0, false, 0, 0, 0, 0, 0⟩,
    .serMsTick 512 ⟨0, 0, 0, []⟩, .overflowWriteDone 8192 true .none ⟨0, []⟩, .egressFrameStart 512 true .none,
    .transmissionEnd 512 .none,
    .fanoutCopyPrepare 64 0 true .none, .fanoutCopyPrepare 0 512 true .none, .fanoutCopyRelease 64 0 .none,
    .fanoutCopyRelease 0 512 .none, .fanoutStale 64 0 .none, .fanoutStale 0 512 .none, .collContributionArrival 16 true .none,
    .collParentResult 16 .none, .barrierArrive 16 .none] : List Instr).all (fun i => !i.wf) = true := by decide

/-- A payload longer than a payload may be (02 Table 2-11). -/
theorem test_wf_refuses_long_payload (b : List Byte) (h : 16777152 < b.length) :
    (Instr.nop { order0 with data := .bytes b }).wf = false := by
  simp [Instr.wf, Order.wf, payloadOk]; intro _; exact h

theorem test_wf_accepts : ([.nop { order0 with ring := 255 }, .add { insn0 with lathe := 191, width := 8 }, .latheDeal 31,
    .doorbellWrite .h1 15 0 true, .frameReceived 511 [] 7 0 false, .pfcPauseExpiry 511 7, .recordStoreParity 19 15,
    .mcheckLogicMismatch 0x10F, .v48InputLost 3799, .pcieLinkUp .h1 5 4, .trayAdvisory 3, .latheRestoreDone 191 3, .vauxLost] : List Instr).all Instr.wf = true := by decide

/-! Figures the specification or its cited standards give. -/

/-- FIPS 180-4's SHA-256 of "abc" (08 R314 uses SHA-256). -/
theorem test_sha256_abc : sha256 [0x61, 0x62, 0x63] = 0xba7816bf8f01cfea414140de5dae2223b00361a396177a9cb410ff61f20015ad := by
  decide +kernel

/-- The check value of CRC-32C, of the bytes "123456789" (09 R334). -/
theorem test_crc32c_check : crc32c [0x31, 0x32, 0x33, 0x34, 0x35, 0x36, 0x37, 0x38, 0x39] = 0xE3069283 := by decide +kernel

/-- 08 Table 8-11: staging h1 and deleting h3 over F0 gives STAGED_FP. -/
theorem test_staged_fp :
    ((fpChange (fpChange (owned.updVer fun x => { x with stagedFp := 0x3C1E9A0752D4B8600F7A21C9E4835D16 }) false true 0
      0x91A40C3B7E2566F1D2084B9E173CA4E5) false true 0x0B77E1D24A9013C85EE107B46C2291AF 0).ver.stagedFp
      : BitVec 128) = 0xC24AC470866A0B8982A165B38F9D704C := by decide

/-- An IPv4 entry of one length, and 08 R298's example: a /24 moves an entry of each of the bands /8, /16, /22 and /23, a /8 none. -/
def lpm4 (len : Nat) : LpmEnt := { valid := true, table := 0, len := len, pfx := 0, action := 0, from_ := 0, to_ := none }
theorem test_lpm_moves : lpmMoves [lpm4 23, lpm4 22, lpm4 16, lpm4 16, lpm4 8] 24 = 4 ∧ lpmMoves [lpm4 23, lpm4 22, lpm4 8] 8 = 0 := by
  decide

/-- 08 Table 8-23, with bands of one to three entries: after the insert of a /20 the /16 and the /8 band have each had their
first entry moved past their last. -/
theorem test_lpm_bands : (lpmPut [lpm4 32, lpm4 24, { lpm4 16 with action := 1 }, { lpm4 16 with action := 2 }, { lpm4 8 with action := 3 },
    { lpm4 8 with action := 4 }, { lpm4 8 with action := 5 }] (lpm4 20)).map (fun e => (e.len, e.action)) =
    [(32, 0), (24, 0), (20, 0), (16, 2), (16, 1), (8, 4), (8, 5), (8, 3)] := by decide

/-- 13 Table 13-4: the sum of 2,048, 1.0, -2,048 and 2^-24 in FP16 is 2^24 + 1 units in either order, and rounds to 1.0. -/
def fp16Sum (l : List Nat) : Elem := (l.map (elemOf 2 0)).foldl (combine 0) ⟨0, false, false, false, false⟩
theorem test_fp16_sum : (fp16Sum [0x6800, 0x3C00, 0xE800, 1]).acc = 2 ^ 24 + 1 ∧ (fp16Sum [1, 0xE800, 0x3C00, 0x6800]).acc = 2 ^ 24 + 1 ∧
    (resultOf { Ctx.reset.cfg with dtype := 2, outType := 2 } (fp16Sum [0x6800, 0x3C00, 0xE800, 1])).1 = 0x3C00 := by decide

/-- 03 Table 3-12, row 3: a warm start fails at step 3 for the first time. -/
theorem test_warm_fails : (match exec (.startStepDone false (some 1) [] ⟨[], 0⟩)
      (owned.updMode fun m => { m with mode := .coast, active := true, warm := true, step := 3 }) with
    | .next t => (t.mode.mode, t.mode.warmFails, t.mode.forceCold, t.mode.warmFailPrepare, t.mode.last.failedStep, t.mode.last.detail)
    | _ => (.service, 0, false, false, 0, 0)) = (.prepare, 1, false, true, 3, 1) := by decide

/-- 03 Table 3-12, row 6: the third failure sets FORCE_COLD. -/
theorem test_third_warm_fail : (match exec (.startStepDone false (some 1) [] ⟨[], 0⟩)
      (owned.updMode fun m => { m with mode := .coast, active := true, warm := true, step := 3, warmFails := 2 }) with
    | .next t => (t.mode.warmFails, t.mode.forceCold)
    | _ => (0, false)) = (3, true) := by decide

end Sys2Proof.Tests
end

section
/-! SUPPORT. Every work order meets the shared checks of 02 R68 (00 R15): which meaning runs which check, and what a malformed
order does. -/

namespace Sys2Proof.Machine

/-- The order is run through the checks that every order meets, under a form of opcode `op`. -/
inductive RunsAs (op : Nat) (o : Order) (s : State) : Host.Outcome State Fault Refusal → Prop
  | order (f : Form) (k : Checks) (body : State → State × Reply) (hop : f.opcode = op) :
    RunsAs op o s (.next (runOrder f o s k body))
  | ptr (f : Form) (k : Checks) (k2 : List Byte → Checks) (body : List Byte → State → State × Reply) (hop : f.opcode = op) :
    RunsAs op o s (.next (runPtr f o s k k2 body))

/-- START and HANDOVER_ACCEPT apart, which judge their orders themselves (03 R109; 02 R86), every work order goes through
`runOrder` or `runPtr`. -/
theorem exec_runsAs {c : Instr} {op : Nat} {o : Order} (s : State) (h : c.workOrder = some (op, o))
    (hs : c ≠ .start o) (ha : c ≠ .handoverAccept o) : RunsAs op o s (exec c s) := by
  cases c
  case start => cases h; exact absurd rfl hs
  case handoverAccept => cases h; exact absurd rfl ha
  case stageSet | mcastSet | aclWrite | tableBulk | imageLoad | shmWrite | gclSet | seqGroupSet | fanoutGroupSet | contextSet |
      evSet | exportTemplate =>
    cases h; exact .ptr _ _ _ _ rfl
  all_goals cases h
  all_goals exact .order _ _ _ rfl

/-- A reserved bit of the head that is not zero is in no form (00 R15; 02 Table 2-8). -/
theorem headForm_of_reserved {o : Order} (h : o.rsvd ≠ 0 ∨ fld o.flags 4 12 ≠ 0) (f : Form) : headForm f o = false := by
  rcases h with h | h
  · have hr : (o.rsvd == 0) = false := beq_eq_false_iff_ne.2 h
    simp only [headForm, hr, Bool.and_false, Bool.false_and]
  · simp [headForm, h]

/-- The form is the first thing tested (02 R68). -/
theorem firstFail_of_headForm {f : Form} {o : Order} (h : headForm f o = false) (s : State) (k : Checks) :
    firstFail f s o k = some stMalformed := by
  simp [firstFail, h]

/-- An order refused at its first pass only completes, whatever payload it may carry (02 R63, R68). -/
theorem runPtr_refused {f : Form} {o : Order} {s : State} {k : Checks} {k2 : List Byte → Checks}
    {body : List Byte → State → State × Reply} {st : Nat} (hw : awaitOf s o = none) (h : firstFail f s o k = some st) :
    runPtr f o s k k2 body = complete s o st 0 := by
  simp [runPtr, hw, h]

theorem runOrder_malformed {f : Form} {o : Order} (h : headForm f o = false) (s : State) (k : Checks)
    (body : State → State × Reply) : runOrder f o s k body = complete s o stMalformed 0 :=
  runOrder_refused (firstFail_of_headForm h s k)

theorem runPtr_malformed {f : Form} {o : Order} (h : headForm f o = false) {s : State} (hw : awaitOf s o = none) (k : Checks)
    (k2 : List Byte → Checks) (body : List Byte → State → State × Reply) :
    runPtr f o s k k2 body = complete s o stMalformed 0 :=
  runPtr_refused hw (firstFail_of_headForm h s k)

theorem RunsAs.malformed {op : Nat} {o : Order} {s : State} {r : Host.Outcome State Fault Refusal} (hr : RunsAs op o s r)
    (h : ∀ f, headForm f o = false) (hw : awaitOf s o = none) : r = .next (complete s o stMalformed 0) := by
  cases hr with
  | order f k body => rw [runOrder_malformed (h f)]
  | ptr f k k2 body => rw [runPtr_malformed (h f) hw]

/-- A START that no mutating order of the owner holds up is judged at once (03 R109). -/
theorem exec_start_of_no_wait {o : Order} {s : State} (h : ∀ m, s.own.owner = some m → mutatingRuns s m = false) :
    exec (.start o) s = .next (acceptStart o s) := by
  change execStart o s = _
  unfold execStart
  split
  next m hm => rw [h m hm]; rfl
  next => rfl

theorem acceptStart_malformed {o : Order} (h : ∀ f, headForm f o = false) (s : State) :
    acceptStart o s = complete s o stMalformed 0 := by
  simp [acceptStart, h]

theorem exec_handoverAccept_malformed {o : Order} (h : ∀ f, headForm f o = false) (s : State) :
    exec (.handoverAccept o) s = .next (complete s o stMalformed 0) := by
  change execHandoverAccept o s = _
  simp [execHandoverAccept, h]

theorem exec_workOrder_malformed {c : Instr} {s : State} {op : Nat} {o : Order} (hc : c.workOrder = some (op, o))
    (h : ∀ f, headForm f o = false) (hw : awaitOf s o = none)
    (hs : op = 0x4301 → ∀ m, s.own.owner = some m → mutatingRuns s m = false) :
    exec c s = .next (complete s o stMalformed 0) := by
  by_cases h1 : c = .start o
  · subst h1
    obtain rfl : 0x4301 = op := congrArg Prod.fst (Option.some.inj hc)
    rw [exec_start_of_no_wait (hs rfl), acceptStart_malformed h]
  by_cases h2 : c = .handoverAccept o
  · subst h2
    exact exec_handoverAccept_malformed h s
  exact (exec_runsAs s hc h1 h2).malformed h hw

/-- Settles O9: every work order meets its form first, START and HANDOVER_ACCEPT by a check of their own. -/
theorem malformedOrderOnlyCompletes : Obligations.MalformedOrderOnlyCompletes := by
  refine ⟨?reserved, ?inline, ?pointer, ?opcode⟩
  case reserved =>
    intro c s op o hc hr hw hs
    exact exec_workOrder_malformed hc (headForm_of_reserved hr) hw hs
  case inline =>
    intro f o s k body hf
    exact runOrder_malformed hf s k body
  case pointer =>
    intro f o s k k2 body hf hw
    exact runPtr_malformed hf hw k k2 body
  case opcode =>
    intro o op s
    rfl

end Sys2Proof.Machine
end

section
/-! SUPPORT. What a master's accesses do: doorbells and the control of rings (02 R55 to R58, R71, R72), reads of registers
(00 R13; 01 R43; 06 R196; 20 R601), writes of registers (02 R50, R53) and the arrival of payloads (02 R63). -/

namespace Sys2Proof.Machine

/-! Space returned, and doorbells (02 R57, R71, R72) -/

theorem spaceReturned_completion (s : State) (m : Master) (n : Nat) :
    spaceReturned s m n 1 = releaseHeld s.host.held (s.updHost fun h => { h with held := [] }) m n := rfl

theorem spaceReturned_event (s : State) (m : Master) (n : Nat) : spaceReturned s m n 2 = eventsLost s m n := rfl

theorem spaceReturned_other {k : Nat} (h1 : k ≠ 1) (h2 : k ≠ 2) (s : State) (m : Master) (n : Nat) :
    spaceReturned s m n k = s := by
  simp [spaceReturned, h1, h2]

theorem doorbell_good {s : State} {m : Master} {v : Nat}
    (h : doorbellOk (getRing s m (nfld v 0 8)) v (BitVec.ofNat 16 (nfld v 16 16)) = true) :
    doorbell s m true v = spaceReturned (updRing s m (nfld v 0 8) fun q => { q with host := BitVec.ofNat 16 (nfld v 16 16) }) m
      (nfld v 0 8) (getRing s m (nfld v 0 8)).type := by
  simp [doorbell, h]

theorem doorbell_bad {s : State} {m : Master} {g : Bool} {v : Nat}
    (h : g = false ∨ doorbellOk (getRing s m (nfld v 0 8)) v (BitVec.ofNat 16 (nfld v 16 16)) = false) :
    doorbell s m g v = postTo s 0x0206 0 v m := by
  rcases h with h | h <;> simp [doorbell, h]

theorem exec_doorbellWrite {m : Master} {s : State} (hm : m ≠ .m0) (hb : barOk s m = true) (page : Nat) (v : BitVec 64) :
    exec (.doorbellWrite m page v true) s = .next (doorbell s m (decide (fld v 0 8 / 16 = page)) v.toNat) := by
  change execDoorbellWrite m page v true s = _
  simp [execDoorbellWrite, hm, hb]

theorem exec_doorbellWrite_good {m : Master} {page : Nat} {v : BitVec 64} {s : State} (hm : m ≠ .m0) (hb : barOk s m = true)
    (hp : fld v 0 8 / 16 = page)
    (h : doorbellOk (getRing s m (fld v 0 8)) v.toNat (BitVec.ofNat 16 (fld v 16 16)) = true) :
    exec (.doorbellWrite m page v true) s =
      .next (spaceReturned (updRing s m (fld v 0 8) fun q => { q with host := BitVec.ofNat 16 (fld v 16 16) }) m (fld v 0 8)
        (getRing s m (fld v 0 8)).type) := by
  rw [exec_doorbellWrite hm hb, decide_eq_true hp]
  exact congrArg _ (doorbell_good h)

theorem exec_doorbellWrite_bad {m : Master} {page : Nat} {v : BitVec 64} {s : State} (hm : m ≠ .m0) (hb : barOk s m = true)
    (h : fld v 0 8 / 16 ≠ page ∨
      doorbellOk (getRing s m (fld v 0 8)) v.toNat (BitVec.ofNat 16 (fld v 16 16)) = false) :
    exec (.doorbellWrite m page v true) s = .next (postTo s 0x0206 0 v.toNat m) := by
  rw [exec_doorbellWrite hm hb]
  exact congrArg _ (doorbell_bad (h.imp_left decide_eq_false))

/-! RING_CTRL and the faults of rings (02 R55 to R58) -/

theorem exec_ringCtrlWrite {m : Master} {n : Nat} {s : State} (hb : barOk s m = true) (hn : n < ringCount m) (v : Word) :
    exec (.ringCtrlWrite m n v) s = .next (ringCtrlWrite s m n v) := by
  change execRingCtrlWrite m n v s = _
  simp [execRingCtrlWrite, hb, hn]

theorem ringCtrlWrite_enables {s : State} {m : Master} {n : Nat} {v : Word} (he : (getRing s m n).enable = false)
    (hv : bit v 0 = true) (hq : enableOk s m (ringFields (getRing s m n) v) = true) :
    ringCtrlWrite s m n v = spaceReturned (updRing s m n fun _ => ringEnabled (ringFields (getRing s m n) v)) m n (fld v 1 3) := by
  simp only [ringCtrlWrite, he, hv, hq, Bool.and_self, if_true, Bool.false_eq_true, if_false]
  rfl

theorem ringCtrlWrite_sets_disabled {s : State} {m : Master} {n : Nat} {v : Word} (he : (getRing s m n).enable = false)
    (h : bit v 0 = false ∨ enableOk s m (ringFields (getRing s m n) v) = false) :
    ringCtrlWrite s m n v = updRing s m n fun _ => ringFields (getRing s m n) v := by
  rcases h with h | h <;> simp [ringCtrlWrite, he, h]

/-- A completion ring that a command ring names is not disabled (02 R56). -/
theorem ringCtrlWrite_keeps_named {s : State} {m : Master} {n : Nat} {v : Word} (he : (getRing s m n).enable = true)
    (hv : bit v 0 = false) (ht : (getRing s m n).type = 1) (hc : namedByCommand s m n = true) :
    ringCtrlWrite s m n v = s := by
  simp [ringCtrlWrite, he, hv, ht, hc]

theorem ringCtrlWrite_sets_enabled {s : State} {m : Master} {n : Nat} {v : Word} (he : (getRing s m n).enable = true)
    (h : bit v 0 = true ∨ (getRing s m n).type ≠ 1 ∨ namedByCommand s m n = false) :
    ringCtrlWrite s m n v = updRing s m n fun q => { q with enable := bit v 0, vector := fld v 16 6, irqEn := bit v 22 } := by
  rcases h with h | h | h <;> simp [ringCtrlWrite, he, h]

theorem exec_ringFault {m : Master} {n : Nat} {s : State} (he : (getRing s m n).enable = true) :
    exec (.ringFault m n) s =
      .next (if (getRing s m n).type = 2 then updRing s m n fun r => { r with fault := true, stopped := true }
        else postTo (updRing s m n fun r => { r with fault := true, stopped := true }) 0x0207 0 n m) := by
  change execRingFault m n s = _
  simp [execRingFault, he]

theorem exec_msixModerationTimer_due {m : Master} {v : Nat} {s : State} {t : Nat} (hs : (getVec s m v).since = some t)
    (h0 : (getVec s m v).timeUs ≠ 0) (hd : t + (getVec s m v).timeUs * 1000 ≤ s.tb.now) :
    exec (.msixModerationTimer m v) s = .next (fire s m v) := by
  change execMsixModerationTimer m v s = _
  simp [execMsixModerationTimer, hs, h0, hd]

/-! Reads (00 R13; 20 R601, R604) -/

theorem exec_ringStatusRead {n : Nat} (hn : n < 256) (m : Master) (a : RegAcc) (s : State) :
    exec (.ringStatusRead m n a) s = .next (busRead s m (0x2010 + 32 * n) a) := by
  change execRingStatusRead m n a s = _
  simp [execRingStatusRead, hn]

theorem busRead_unreachable {s : State} {m : Master} (hb : barOk s m = false) (off : Nat) (a : RegAcc) :
    busRead s m off a = s := by
  simp [busRead, hb]

section
variable {s : State} {m : Master} (hb : barOk s m = true) (hm : m ≠ .m0)
include hb hm

theorem busRead_word (off : Nat) : busRead s m off .word = regSide (readOut s m off (regValue s m off)) m off := by
  cases m <;> simp [busRead, hb, readWord] at hm ⊢

theorem busRead_wide (off : Nat) :
    busRead s m off .wide = readWord (readWord s m (off / 8 * 8)) m (off / 8 * 8 + 4) := by
  cases m <;> simp [busRead, hb, readWords] at hm ⊢

theorem busRead_part {byte len : Nat} (h : byte + len ≤ 4) (off : Nat) :
    busRead s m off (.part byte len) =
      regSide (readOut s m (off + byte) (regValue s m off / 2 ^ (8 * byte) % 2 ^ (8 * len))) m off := by
  cases m <;> simp [busRead, hb, h, partValue] at hm ⊢

/-- A narrow read that goes beyond its register reads zero and has no side effect (20 R601). -/
theorem busRead_part_beyond {byte len : Nat} (h : 4 < byte + len) (off : Nat) :
    busRead s m off (.part byte len) = readOut s m (off + byte) 0 := by
  have hlen : ¬ byte + len ≤ 4 := Nat.not_le_of_lt h
  cases m <;> simp [busRead, hb, hlen] at hm ⊢

end

theorem busRead_words_m0 {s : State} (hb : barOk s .m0 = true) (off n : Nat) :
    busRead s .m0 off (.words n) =
      (readWords s .m0 off n).updHost fun h => { h with m0Off := BitVec.ofNat 16 (off + 4 * n) } := by
  simp [busRead, hb]

theorem ringCount_le (m : Master) : ringCount m ≤ 256 := by cases m <;> decide

/-- The place of RING_STATUS in BAR0 (02 Table 2-6; 20 Table 20-1): word 4 of ring `n`'s record. -/
theorem ringStatus_place {m : Master} {n : Nat} (hn : n < ringCount m) :
    0x2010 + 32 * n < 0x4000 ∧ (0x2010 + 32 * n) % 32 = 16 ∧ (0x2010 + 32 * n - 0x2000) / 32 = n := by
  have := ringCount_le m
  omega

theorem zeroInDormant_ringStatus (n : Nat) : zeroInDormant (0x2010 + 32 * n) = false := by
  simp [zeroInDormant]
  omega

theorem regValue_ringStatus {m : Master} {n : Nat} (hn : n < ringCount m) (s : State) :
    regValue s m (0x2010 + 32 * n) = ringStatus (getRing s m n) := by
  obtain ⟨hlt, hmod, hdiv⟩ := ringStatus_place hn
  have h0 : 0x2010 + 32 * n ≠ 0x0200 := by omega
  have h1 : ¬ (0x0400 ≤ 0x2010 + 32 * n ∧ 0x2010 + 32 * n < 0x0500) := by omega
  have h2 : ¬ (0x0800 ≤ 0x2010 + 32 * n ∧ 0x2010 + 32 * n < 0x1000) := by omega
  have h3 : 0x2000 ≤ 0x2010 + 32 * n ∧ 0x2010 + 32 * n < 0x4000 := by omega
  simp only [regValue, zeroInDormant_ringStatus, Bool.and_false, Bool.false_eq_true, if_false, h0, h1, h2, h3, hdiv, hn, hmod,
    and_self, if_true]
  rfl

theorem regSide_ringStatus {m : Master} {n : Nat} (hn : n < ringCount m) (s : State) :
    regSide s m (0x2010 + 32 * n) = updRing s m n fun r => { r with lost := 0 } := by
  obtain ⟨hlt, hmod, hdiv⟩ := ringStatus_place hn
  have h0 : 0x2010 + 32 * n ≠ 0x0200 := by omega
  have h1 : 0x2000 ≤ 0x2010 + 32 * n := by omega
  simp only [regSide, h0, h1, hlt, hmod, hdiv, hn, and_self, if_true, if_false]

theorem regValue_portInfo (s : State) (m : Master) : regValue s m 0x0200 = portInfo s m := by
  simp [regValue, zeroInDormant]

theorem regSide_portInfo (s : State) (m : Master) :
    regSide s m 0x0200 = updPort s m fun p => { p with missed := 0, refused := 0 } := by
  simp [regSide]

/-- DT_SNAP_0 reads the low word of DT. The word is a variable here: with DT's fields in sight the kernel would unfold
their divisions by 10^9. -/
theorem globalValue_dtSnap0 {s : State} {x : Nat} (hx : wordAt (dtWord s.tb.dt) 0 = x) (m : Master) :
    globalValue s m 0x1084 = x := by
  unfold globalValue
  rw [hx]
  rfl

section
variable {s : State} (h : s.mode.mode ≠ .dormant) (m : Master)
include h

theorem regValue_fpActive0 : regValue s m 0x40 = fld s.fp.active 0 32 :=
  calc
    regValue s m 0x40 = globalValue s m 0x40 := by simp [regValue, h]
    _ = fld s.fp.active 0 32 := rfl

theorem regSide_fpActive0 :
    regSide s m 0x40 = s.updFp fun p => { p with snapActive := p.snapActive.set (mIdx m) p.active } := by
  simp [regSide, h]

theorem regValue_fpCommit0 : regValue s m 0x50 = fld s.fp.committed 0 32 :=
  calc
    regValue s m 0x50 = globalValue s m 0x50 := by simp [regValue, h]
    _ = fld s.fp.committed 0 32 := rfl

theorem regSide_fpCommit0 :
    regSide s m 0x50 = s.updFp fun p => { p with snapCommit := p.snapCommit.set (mIdx m) p.committed } := by
  simp [regSide, h]

theorem regValue_dtSnap0 : regValue s m 0x1084 = fld (dtWord s.tb.dt) 0 32 :=
  calc
    regValue s m 0x1084 = globalValue s m 0x1084 := by simp [regValue, h]
    _ = wordAt (dtWord s.tb.dt) 0 := globalValue_dtSnap0 rfl m
    _ = fld (dtWord s.tb.dt) 0 32 := rfl

theorem regSide_dtSnap0 :
    regSide s m 0x1084 = s.updTb fun b => { b with snap := b.snap.set (mIdx m) (dtWord b.dt) } := by
  simp [regSide, h]

end

/-! Writes (02 R50, R53; 20 R601) -/

/-- What the bus lets through: 32-bit words, aligned, as many as one access may write. -/
theorem writeShape_iff {m : Master} {off n : Nat} :
    writeShape m off n = true ↔ m = .m0 ∨ n = 1 ∨ (n = 2 ∧ off % 8 = 0) := by
  simp [writeShape, or_assoc]

theorem exec_registerWrite {m : Master} {off : Nat} {ws : List Word} {s : State} (hb : barOk s m = true) (ha : off % 4 = 0)
    (hw : m = .m0 ∨ ws.length = 1 ∨ (ws.length = 2 ∧ off % 8 = 0)) :
    exec (.registerWrite m off ws true) s =
      .next (if m = .m0 then (wordWrites s m off ws).updHost fun h => { h with m0Off := BitVec.ofNat 16 (off + 4 * ws.length) }
        else wordWrites s m off ws) := by
  change Host.Outcome.next (registerWrite s m off ws true) = _
  simp [registerWrite, hb, ha, writeShape_iff.2 hw]

theorem exec_registerWrite_ignored {m : Master} {off : Nat} {ws : List Word} {s : State}
    (h : barOk s m = false ∨ off % 4 ≠ 0 ∨ (m ≠ .m0 ∧ ws.length ≠ 1 ∧ ¬ (ws.length = 2 ∧ off % 8 = 0))) :
    exec (.registerWrite m off ws true) s = .next s := by
  change Host.Outcome.next (registerWrite s m off ws true) = _
  rcases h with h | h | h
  · simp [registerWrite, h]
  · simp [registerWrite, h]
  · have hw : writeShape m off ws.length = false := by
      rw [← Bool.not_eq_true, writeShape_iff, not_or, not_or]
      exact h
    simp [registerWrite, hw]

theorem exec_registerWrite_narrow (m : Master) (off : Nat) (ws : List Word) (s : State) :
    exec (.registerWrite m off ws false) s = .next s := by
  change Host.Outcome.next (registerWrite s m off ws false) = _
  simp [registerWrite]

theorem wordWrite_global {m : Master} {off : Nat} {s : State} (hg : globalReg off = true) (h1 : off ≠ 0x0108)
    (h2 : off ≠ 0x010C) (v : Word) : wordWrite s m off v = ownerWrite s m fun t => globalWrite t off v := by
  simp [wordWrite, hg, h1, h2]

theorem ownerWrite_owner {m : Master} {s : State} (hb : barOk s m = true) (ho : s.own.owner = some m) (f : State → State) :
    ownerWrite s m f = f s := by
  simp [ownerWrite, hb, ho]

theorem ownerWrite_refused {m : Master} {s : State} (hb : barOk s m = true) (ho : s.own.owner ≠ some m) (f : State → State) :
    ownerWrite s m f = updPort s m fun p => { p with refused := satAdd 16 p.refused 1 } := by
  simp [ownerWrite, hb, ho]

theorem wordWrite_local {off : Nat} (hg : globalReg off = false) (h1 : off ≠ 0x0108) (h2 : off ≠ 0x010C) (m : Master) (v : Word)
    (s : State) : wordWrite s m off v = localWrite s m off v := by
  simp [wordWrite, hg, h1, h2]

/-! A payload that arrives (02 R63) -/

theorem exec_payloadDmaDone {i : Nat} {data : PtrData} {s : State} {e : Running} (he : s.host.awaiting[i]? = some e)
    (hd : payloadOf s e.order data ≠ .later) :
    ∃ t, runOpcode e.opcode { e.order with data := payloadOf s e.order data } 0 s = .next t ∧
      exec (.payloadDmaDone i data) s = .next (retryStarts (t.updHost fun h => { h with awaiting := h.awaiting.erase e })) := by
  obtain ⟨t, ht, -⟩ := runOpcode_queue e.opcode { e.order with data := payloadOf s e.order data } 0 s
  refine ⟨t, ht, ?_⟩
  change execPayloadDmaDone i data s = _
  simp only [execPayloadDmaDone, he, ht]

/-- Settles O33: each access by the rule of its own operation. -/
theorem hostRegisterAccessesTakeEffect : Obligations.HostRegisterAccessesTakeEffect := by
  refine ⟨⟨?doorbellOther, ?doorbellCompletion, ?doorbellEvent, ?doorbellBad⟩,
    ⟨?ctrlEnables, ?ctrlDisabled, ?ctrlNamed, ?ctrlEnabled⟩, ⟨?faultPosted, ?faultEvent⟩, ?timer,
    ⟨?reads, ?unreachable, ?hostReads, ?m0Reads, ?wordsInTurn⟩, ?portInfo, ?ringStatus, ?fpActive, ?fpCommit, ?dtSnap,
    ⟨?write, ?writesInTurn, ?globalOwner, ?globalRefused, ?ownLocal, ?claimRenew, ?ignored, ?narrow⟩, ?payload⟩
  case doorbellOther =>
    intro m page v s n x hm hb hp h h1 h2
    rw [exec_doorbellWrite_good hm hb hp h, spaceReturned_other h1 h2]
  case doorbellCompletion =>
    intro m page v s n x hm hb hp h ht
    rw [exec_doorbellWrite_good hm hb hp h, ht, spaceReturned_completion]; rfl
  case doorbellEvent =>
    intro m page v s n x hm hb hp h ht
    rw [exec_doorbellWrite_good hm hb hp h, ht, spaceReturned_event]
  case doorbellBad =>
    intro m page v s n x hm hb h
    exact exec_doorbellWrite_bad hm hb h
  case ctrlEnables =>
    intro m n v s r q hb hn he hv hq
    rw [exec_ringCtrlWrite hb hn, ringCtrlWrite_enables he hv hq]; rfl
  case ctrlDisabled =>
    intro m n v s r q hb hn he h
    rw [exec_ringCtrlWrite hb hn, ringCtrlWrite_sets_disabled he h]; rfl
  case ctrlNamed =>
    intro m n v s r hb hn he hv ht hc
    rw [exec_ringCtrlWrite hb hn, ringCtrlWrite_keeps_named he hv ht hc]
  case ctrlEnabled =>
    intro m n v s r hb hn he h
    rw [exec_ringCtrlWrite hb hn, ringCtrlWrite_sets_enabled he h]
  case faultPosted =>
    intro m n s t he ht
    rw [exec_ringFault he, if_neg ht]
  case faultEvent =>
    intro m n s t he ht
    rw [exec_ringFault he, if_pos ht]
  case timer =>
    intro m v s t x hs h0 hd
    exact exec_msixModerationTimer_due hs h0 hd
  case reads =>
    intro m a s
    exact ⟨rfl, rfl, rfl, rfl, fun n hn => exec_ringStatusRead hn m a s⟩
  case unreachable =>
    intro m off a s hb
    exact busRead_unreachable hb off a
  case hostReads =>
    intro m off s hb hm
    exact ⟨busRead_word hb hm off, fun _ _ h => busRead_part hb hm h off, fun _ _ h => busRead_part_beyond hb hm h off,
      busRead_wide hb hm off⟩
  case m0Reads =>
    intro off n s hb
    exact busRead_words_m0 hb off n
  case wordsInTurn =>
    intro m off n s
    exact ⟨rfl, rfl⟩
  case portInfo =>
    intro m s hm hb
    change Host.Outcome.next (busRead s m 0x0200 .word) = _
    rw [busRead_word hb hm, regValue_portInfo, regSide_portInfo]
  case ringStatus =>
    intro m n s t hm hb hn
    rw [exec_ringStatusRead (Nat.lt_of_lt_of_le hn (ringCount_le m)), busRead_word hb hm, regValue_ringStatus hn, regSide_ringStatus hn]
  case fpActive =>
    intro m s hm hb hd
    change Host.Outcome.next (busRead s m 0x40 .word) = _
    rw [busRead_word hb hm, regValue_fpActive0 hd, regSide_fpActive0]
    exact hd
  case fpCommit =>
    intro m s hm hb hd
    change Host.Outcome.next (busRead s m 0x50 .word) = _
    rw [busRead_word hb hm, regValue_fpCommit0 hd, regSide_fpCommit0]
    exact hd
  case dtSnap =>
    intro m s hm hb hd
    change Host.Outcome.next (busRead s m 0x1084 .word) = _
    rw [busRead_word hb hm, regValue_dtSnap0 hd, regSide_dtSnap0]
    exact hd
  case write =>
    intro m off ws s hb ha hw
    exact exec_registerWrite hb ha hw
  case writesInTurn =>
    intro m off v ws s
    exact ⟨rfl, rfl⟩
  case globalOwner =>
    intro m off v s hb hg ho h1 h2
    rw [wordWrite_global hg h1 h2, ownerWrite_owner hb ho]
  case globalRefused =>
    intro m off v s hb hg ho h1 h2
    rw [wordWrite_global hg h1 h2, ownerWrite_refused hb ho]
  case ownLocal =>
    intro m off v s hg h1 h2
    exact wordWrite_local hg h1 h2 m v s
  case claimRenew =>
    intro m v s
    exact ⟨rfl, rfl⟩
  case ignored =>
    intro m off ws s h
    exact exec_registerWrite_ignored h
  case narrow =>
    intro m off ws s
    exact exec_registerWrite_narrow m off ws s
  case payload =>
    intro i data s e he hd
    exact exec_payloadDmaDone he hd

end Sys2Proof.Machine
end

section
/-! SUPPORT. What markers, link idle structures, faults, defects and the monitored second do (01 R41; 05 R164 to R185):
one equation for each event that acts. -/

namespace Sys2Proof.Machine

/-! Markers sent (05 R164, R165; 04 R142) -/

theorem exec_markerTransmit {p n : Nat} {s : State} (hn : portOfPL s p = some n) :
    exec (.markerTransmit p) s =
      .next (let t := updLane (if isNative s n then sendMarker s n p else s.emit (.alignMarker p)) p fun l =>
          { l with mcount := l.mcount + 1, txMark := some (l.mcount + 1, capture s p true) }
        if switchNow s p then
          advanceSpare (updEng t (p / 17) fun g => { g with hs := g.hs.map fun h => { h with sw := 2 } }) (p / 17)
        else t) := by
  change execMarkerTransmit p s = _
  simp only [execMarkerTransmit, hn]

theorem sendMarker_other_position {n p : Nat} {s : State} (h : posOf s n p ≠ 0) :
    sendMarker s n p = (txLanes s p).foldl (fun u q => u.emit (.marker q (nextMarker s n p))) s := by
  simp only [sendMarker, if_pos h]

theorem sendMarker_position_zero {n p : Nat} {s : State} (h : posOf s n p = 0) :
    sendMarker s n p =
      (let t := lineWork ((txLanes s p).foldl (fun u q => u.emit (.marker q (nextMarker s n p))) s) n fun w l =>
          lineMarkers w l ((portPLs s n).map (nextMarker s n))
        let q := getLtt t n
        updLtt (sendIdle t n (timeSlot t n q.tx.head? q.rx.head?) false true) n fun x =>
          { x with tx := (⟨(getLane s p).mcount + 1, capture s p true, s.tb.now⟩ :: x.tx).take 4, pathToSend := false }) := by
  simp only [sendMarker, h, ne_eq, not_true_eq_false, if_false]

/-! Markers received and missed (05 R167, R168) -/

section
variable {p n : Nat} {s : State} (hp : markerPort s p = some n)
include hp

theorem exec_markerReceived {m : MarkerSeen} {c : PortCfg} (hc : getPort s n = some c) (hcdr : (getLane s p).cdr = true)
    (hseen : patternSeen s n m = true) (hk : m.pcsLane < (getLane s p).search.length) :
    exec (.markerReceived p m) s =
      .next (let r := (getSearch s p m.pcsLane).seen (markerPeriod c) m.pos
        let t := setSearch s p m.pcsLane r.1
        if r.2 = true ∧ (getLane t p).marker = true ∧ m.pcsLane = 0 then markerTaken t n p m else t) := by
  change execMarkerReceived p m s = _
  simp only [execMarkerReceived, hp, hc, hcdr, hseen, decide_eq_false (Nat.not_le_of_lt hk), Bool.not_true, Bool.or_self,
    Bool.false_eq_true, if_false, Bool.and_eq_true, beq_iff_eq, and_assoc]

/-- Without CDR lock, without the pattern, or on a PCS lane that the lane does not carry, nothing is taken. -/
theorem exec_markerReceived_ignored {m : MarkerSeen}
    (h : (getLane s p).cdr = false ∨ patternSeen s n m = false ∨ (getLane s p).search.length ≤ m.pcsLane) :
    exec (.markerReceived p m) s = .next s := by
  change execMarkerReceived p m s = _
  cases hc : getPort s n with
  | none => simp only [execMarkerReceived, hp, hc]
  | some c =>
    rcases h with h | h | h <;> simp [execMarkerReceived, hp, hc, h]

theorem exec_markerPositionMiss {k : Nat} {c : PortCfg} (hc : getPort s n = some c) (hk : k < (getLane s p).search.length)
    (pos : Nat) :
    exec (.markerPositionMiss p k pos) s =
      .next (setSearch s p k ((getSearch s p k).missed (markerPeriod c) pos)) := by
  change execMarkerPositionMiss p k pos s = _
  simp only [execMarkerPositionMiss, hp, Option.bind_some, hc, if_neg (Nat.not_le_of_lt hk)]

end

/-! Advertisements and structures (01 R41; 05 R165, R166) -/

theorem exec_fpAdvertise_due {s : State} (hd : s.mode.mode ≠ .dormant) (hh : s.mode.mode ≠ .halt)
    (hms : s.tb.dt / dtMs ≠ s.pcs.advMs) :
    exec .fpAdvertise s = .next (((portList s).filter (isNative s)).foldl (fun t n => sendIdle t n 0 true false)
      (s.updPcs fun p => { p with advMs := s.tb.dt / dtMs })) := by
  change execFpAdvertise s = _
  simp only [execFpAdvertise, beq_false_of_ne hd, beq_false_of_ne hh, beq_false_of_ne hms, Bool.or_self, Bool.false_eq_true,
    if_false]

theorem exec_fpAdvertise_same_ms {s : State} (hms : s.tb.dt / dtMs = s.pcs.advMs) : exec .fpAdvertise s = .next s := by
  change execFpAdvertise s = _
  simp only [execFpAdvertise, hms, beq_self_eq_true, Bool.or_true, if_true]

theorem exec_linkIdleStructReceived {n k : Nat} {v : BitVec 1024} {s : State} (hok : structOk s n k v = true)
    (hcopy : structCopy s n k v = false) :
    exec (.linkIdleStructReceived n k v) s =
      .next (let t := updPcsPort (setRaw s n 6 false) n fun p =>
          { p with lsipFor := none, taken := some (BitVec.ofNat 8 (fld v 1008 8), k),
                   nb := if bit v 575 then
                     { fingerprint := BitVec.ofNat 128 (fld v 592 128), version := BitVec.ofNat 16 (fld v 576 16),
                       diverged := bit v 573, committedValid := bit v 574, stale := false, never := false,
                       arrival := s.tb.dt, arrivedAt := s.tb.now }
                     else p.nb }
        takeSpareMsg (if fld v 720 256 = 0 then t else requalify (takeSlot t n (fld v 720 256))) n (fld v 976 32)) := by
  change execLinkIdleStructReceived n k v s = _
  simp only [execLinkIdleStructReceived, hok, hcopy, Bool.not_true, Bool.or_self, Bool.false_eq_true, if_false]

theorem exec_linkIdleStructReceived_ignored {n k : Nat} {v : BitVec 1024} {s : State}
    (h : structOk s n k v = false ∨ structCopy s n k v = true) : exec (.linkIdleStructReceived n k v) s = .next s := by
  change execLinkIdleStructReceived n k v s = _
  rcases h with h | h <;>
    simp only [execLinkIdleStructReceived, h, Bool.not_false, Bool.true_or, Bool.or_true, if_true]

theorem exec_neighbourStale_silent {n : Nat} {s : State} (hn : isNative s n = true) (hnever : (getPcs s n).nb.never = false)
    (hstale : (getPcs s n).nb.stale = false) (hat : (getPcs s n).nb.arrivedAt + 3000000 ≤ s.tb.now) :
    exec (.neighbourStale n) s = .next (updPcsPort s n fun p => { p with nb := { p.nb with stale := true } }) := by
  change execNeighbourStale n s = _
  simp only [execNeighbourStale, hn, hnever, hstale, decide_eq_true hat, Bool.not_false, Bool.and_self, if_true]

/-! Faults of a port that exists (05 R176 to R179) -/

section
variable {n : Nat} {s : State} (hx : portExists s n = true)
include hx

theorem exec_localFaultOnset_lane {k p : Nat} (hp : (rxPLs s n)[k]? = some p) (src : Nat) (power : Int) :
    exec (.localFaultOnset n src k power) s = .next (refreshLoam (laneFault s p src power) n) := by
  change execLocalFaultOnset n src k power s = _
  simp only [execLocalFaultOnset, hx, hp, Bool.not_true, Bool.false_eq_true, if_false]

theorem exec_localFaultOnset_no_lane {k : Nat} (hp : (rxPLs s n)[k]? = none) (src : Nat) (power : Int) :
    exec (.localFaultOnset n src k power) s = .next (refreshLoam s n) := by
  change execLocalFaultOnset n src k power s = _
  simp only [execLocalFaultOnset, hx, hp, Bool.not_true, Bool.false_eq_true, if_false]

theorem exec_localFaultEnd (gone : BitVec 4) (power : Int) (ago : Nat) :
    exec (.localFaultEnd n gone power ago) s =
      .next (let t := lanesBack s n gone power
        let t1 := if bit gone 3 && !(getPcs s n).hiser.headD false then setRaw t n 3 false else t
        let t2 := endedAgo s (refreshLoam t1 n) n ago
        if (getPcs t2 n).sendRf && !rxFault t2 n && ((List.range 4).all fun b =>
            let r := (getPcs t2 n).raw.getD b Raw.reset
            (b == 3 && !(getPcsSet t2 n).hiserFault) || r.ended == 0 || decide (r.ended + 10000 ≤ s.tb.now)) then
          pfcResume ((updPcsPort t2 n fun p => { p with sendRf := false }).emit (.remoteFault n false)) n
        else t2) := by
  change execLocalFaultEnd n gone power ago s = _
  simp only [execLocalFaultEnd, hx, Bool.not_true, Bool.false_eq_true, if_false]

theorem exec_remoteFaultReceived_begins (hrf : (getPcs s n).recvRf = false) :
    exec (.remoteFaultReceived n) s =
      .next ((updPcsPort (setRaw (cutTx s n) n 5 true) n fun p => { p with recvRf := true }).emit (.idlesOnly n true)) := by
  change execRemoteFaultReceived n s = _
  simp only [execRemoteFaultReceived, hx, hrf, Bool.not_true, Bool.false_eq_true, if_false]

theorem exec_remoteFaultReceived_again (hrf : (getPcs s n).recvRf = true) :
    exec (.remoteFaultReceived n) s = .next (setRaw s n 5 true) := by
  change execRemoteFaultReceived n s = _
  simp only [execRemoteFaultReceived, hx, hrf, Bool.not_true, Bool.false_eq_true, if_false, if_true]

theorem exec_remoteFaultEnd_resumes (hrf : (getPcs s n).recvRf = true) :
    exec (.remoteFaultEnd n) s =
      .next (pfcResume ((updPcsPort (setRaw s n 5 false) n fun p => { p with recvRf := false }).emit (.idlesOnly n false)) n) := by
  change execRemoteFaultEnd n s = _
  simp only [execRemoteFaultEnd, hx, hrf, Bool.not_true, Bool.false_eq_true, if_false]

theorem exec_remoteFaultEnd_none (hrf : (getPcs s n).recvRf = false) :
    exec (.remoteFaultEnd n) s = .next (setRaw s n 5 false) := by
  change execRemoteFaultEnd n s = _
  simp only [execRemoteFaultEnd, hx, hrf, Bool.not_true, Bool.not_false, Bool.false_eq_true, if_false, if_true]

/-! Defects, windows and counts of a port that exists (05 R172 to R175) -/

theorem exec_defect {b : Nat} {on : Bool} (hb : b ≤ 6) (hnat : b ≠ 6 ∨ isNative s n = true) (hon : bit (getPcs s n).defects b ≠ on)
    (hint : (if on then defectSets s n b else defectClears s n b) = true) :
    exec (.defect n b on) s =
      .next (let t := updPcsPort s n fun p =>
          { p with defects := if on then p.defects ||| BitVec.ofNat 7 (2 ^ b) else p.defects &&& ~~~BitVec.ofNat 7 (2 ^ b),
                   seen := if on then p.seen ||| BitVec.ofNat 7 (2 ^ b) else p.seen,
                   pm := { p.pm with sesDefect := p.pm.sesDefect || decide (b ≤ 4) } }
        let u := postAll t 0x0501 0 (packN [(0, 9, n), (9, 3, b), (12, 1, b2n on)])
        if on && b == 1 then lolUnspared u n else u) := by
  have hlsip : (b == 6 && !isNative s n) = false := by
    rcases hnat with h | h <;> simp [h]
  change execDefect n b on s = _
  simp only [execDefect, hx, decide_eq_false (Nat.not_lt_of_le hb), hlsip, beq_false_of_ne hon, hint, Bool.not_true, Bool.or_self,
    Bool.false_eq_true, if_false]

theorem exec_hiserWindowEnd (errs : Nat) :
    exec (.hiserWindowEnd n errs) s =
      .next (refreshLf (setRaw (updPcsPort s n fun p => { p with hiser := (decide (417 < errs) :: p.hiser).take 510 }) n 3
        (decide (417 < errs))) n) := by
  change execHiserWindowEnd n errs s = _
  simp only [execHiserWindowEnd, hx, Bool.not_true, Bool.false_eq_true, if_false]

theorem exec_serMsTick (c : MsCounts) :
    exec (.serMsTick n c) s =
      .next (let syms := c.lanes.map fun x => x.1
        let t := updPcsPort s n fun p =>
          { p with codewords := p.codewords + BitVec.ofNat 64 c.codewords, corrCw := p.corrCw + BitVec.ofNat 64 c.corrected,
                   ucw := p.ucw + BitVec.ofNat 64 c.uncorrectable,
                   corrSym := p.corrSym + BitVec.ofNat 64 (syms.foldl (· + ·) 0),
                   laneSym := (List.range 8).map fun k => syms.getD k 0,
                   pm := { p.pm with cws := p.pm.cws + c.codewords, ucws := p.pm.ucws + c.uncorrectable } }
        ((portPLs t n).zip c.lanes).foldl (fun u x => serLane u x.1 x.2) t) := by
  change execSerMsTick n c s = _
  simp only [execSerMsTick, hx, Bool.not_true, Bool.false_eq_true, if_false]

end

/-! The monitored second and its bins (05 R181, R184) -/

theorem exec_pmSecondEnd_past {s : State} (h : s.pcs.lastSec < s.tb.dt / dtSec) :
    exec .pmSecondEnd s =
      .next (settleSes ((portList s).foldl (secondPort (s.tb.dt / dtSec - 1))
        (s.updPcs fun x => { x with lastSec := s.tb.dt / dtSec }))) := by
  change execPmSecondEnd s = _
  simp only [execPmSecondEnd, if_neg (Nat.not_le_of_lt h)]

theorem exec_binFinal (s : State) :
    exec .binFinal s =
      .next ((portList s).foldl (fun t p => updPcsPort t p fun q =>
        { q with pm := { q.pm with q15 := finalBins (s.tb.dt / dtSec) 900 q.pm.q15,
                                   h24 := finalBins (s.tb.dt / dtSec) 86400 q.pm.h24 } }) s) := rfl

/-- Settles O41: each event by its equation, and those that nothing answers by theirs. -/
theorem linkMonitoringTakesEffect : Obligations.LinkMonitoringTakesEffect := by
  refine ⟨⟨?standardMarker, ?nativeMarker, ?markerGoesOut⟩, ⟨?received, ?receivedIgnored⟩, ?missed, ⟨?advertises, ?advertised⟩,
    ⟨?struct, ?structIgnored⟩, ?stale, ?localOnset, ?localEnd, ⟨?remoteBegins, ?remoteAgain⟩, ⟨?remoteResumes, ?remoteNone⟩,
    ?defect, ?hiser, ?counts, ?second, ?bins⟩
  case standardMarker =>
    intro p s n t hn hnat hsw
    rw [exec_markerTransmit hn, hnat, hsw]
    rfl
  case nativeMarker =>
    intro p s n t hn hnat
    rw [exec_markerTransmit hn, hnat]
    rfl
  case markerGoesOut =>
    intro p s n l t
    exact ⟨sendMarker_other_position, sendMarker_position_zero⟩
  case received =>
    intro p m s n c r t hp hc hcdr hseen hk
    exact exec_markerReceived hp hc hcdr hseen hk
  case receivedIgnored =>
    intro p m s n hp h
    exact exec_markerReceived_ignored hp h
  case missed =>
    intro p k pos s n c hp hc hk
    exact exec_markerPositionMiss hp hc hk pos
  case advertises =>
    intro s hd hh hms
    exact exec_fpAdvertise_due hd hh hms
  case advertised =>
    intro s hms
    exact exec_fpAdvertise_same_ms hms
  case struct =>
    intro n k v s t t1 t2 hok hcopy
    exact exec_linkIdleStructReceived hok hcopy
  case structIgnored =>
    intro n k v s h
    exact exec_linkIdleStructReceived_ignored h
  case stale =>
    intro n s b hn hnever hstale hat
    exact exec_neighbourStale_silent hn hnever hstale hat
  case localOnset =>
    intro n src k power s hx
    cases hp : (rxPLs s n)[k]? with
    | none => exact exec_localFaultOnset_no_lane hx hp src power
    | some p => exact exec_localFaultOnset_lane hx hp src power
  case localEnd =>
    intro n gone power ago s t t1 t2 p hx
    exact exec_localFaultEnd hx gone power ago
  case remoteBegins =>
    intro n s hx hrf
    exact exec_remoteFaultReceived_begins hx hrf
  case remoteAgain =>
    intro n s hx hrf
    exact exec_remoteFaultReceived_again hx hrf
  case remoteResumes =>
    intro n s hx hrf
    exact exec_remoteFaultEnd_resumes hx hrf
  case remoteNone =>
    intro n s hx hrf
    exact exec_remoteFaultEnd_none hx hrf
  case defect =>
    intro n b on s p m t hx hb hnat hon hint
    exact exec_defect hx hb hnat hon hint
  case hiser =>
    intro n errs s bad t hx
    exact exec_hiserWindowEnd hx errs
  case counts =>
    intro n c s syms t hx
    exact exec_serMsTick hx c
  case second =>
    intro s cur h
    exact exec_pmSecondEnd_past h
  case bins =>
    intro s
    exact exec_binFinal s

end Sys2Proof.Machine
end

section
/-! SUPPORT. What a command can do to the ownership registers and the queue of commands: the law of each command, cited for
it. The commands of `touchesOwnership` leave the queue alone; every other leaves the registers alone too. -/

namespace Sys2Proof.Machine
open State

/-- A command that is not of ownership keeps the registers of ownership and the queue. -/
theorem exec_kept {c : Instr} (h : c.touchesOwnership = false) (s : State) :
    ∃ t, exec c s = .next t ∧ t.kept = s.kept := by
  cases c with
  | nop o => exact execNop_kept o s
  | readOwnership o => exact execReadOwnership_kept o s
  | reservedOpcodeOrder o opcode => exact execReservedOpcodeOrder_kept o opcode s
  | readStart o => exact execReadStart_kept o s
  | start o => exact execStart_kept o s
  | enterService o => exact execEnterService_kept o s
  | enterProbe o => exact execEnterProbe_kept o s
  | readLane o => exact execReadLane_kept o s
  | readOe o => exact execReadOe_kept o s
  | eyeScan o => exact execEyeScan_kept o s
  | rawCapture o => exact execRawCapture_kept o s
  | portSet o => exact execPortSet_kept o s
  | laneSet o => exact execLaneSet_kept o s
  | recalibrate o => exact execRecalibrate_kept o s
  | spare o => exact execSpare_kept o s
  | unspare o => exact execUnspare_kept o s
  | oeSet o => exact execOeSet_kept o s
  | xpSet o => exact execXpSet_kept o s
  | elsXfer o => exact execElsXfer_kept o s
  | readPcs o => exact execReadPcs_kept o s
  | readPm o => exact execReadPm_kept o s
  | readNeighbour o => exact execReadNeighbour_kept o s
  | pcsSet o => exact execPcsSet_kept o s
  | defectAck o => exact execDefectAck_kept o s
  | readTb o => exact execReadTb_kept o s
  | readLtt o => exact execReadLtt_kept o s
  | readLogBlock o => exact execReadLogBlock_kept o s
  | readCert o => exact execReadCert_kept o s
  | tbSet o => exact execTbSet_kept o s
  | tbAdjust o => exact execTbAdjust_kept o s
  | ptpPortSet o => exact execPtpPortSet_kept o s
  | lttSet o => exact execLttSet_kept o s
  | logSet o => exact execLogSet_kept o s
  | logClose o => exact execLogClose_kept o s
  | logRelease o => exact execLogRelease_kept o s
  | readVersions o => exact execReadVersions_kept o s
  | readParser o => exact execReadParser_kept o s
  | readStage o => exact execReadStage_kept o s
  | readHostmap o => exact execReadHostmap_kept o s
  | readSprayRx o => exact execReadSprayRx_kept o s
  | readMcast o => exact execReadMcast_kept o s
  | parserSet o => exact execParserSet_kept o s
  | portParseSet o => exact execPortParseSet_kept o s
  | stageSet o => exact execStageSet_kept o s
  | stageOpen o => exact execStageOpen_kept o s
  | commit o => exact execCommit_kept o s
  | stageDiscard o => exact execStageDiscard_kept o s
  | hostmapSet o => exact execHostmapSet_kept o s
  | dealSet o => exact execDealSet_kept o s
  | spraySet o => exact execSpraySet_kept o s
  | sprayGroupSet o => exact execSprayGroupSet_kept o s
  | mcastSet o => exact execMcastSet_kept o s
  | readTables o => exact execReadTables_kept o s
  | emLookup o => exact execEmLookup_kept o s
  | lpmLookup o => exact execLpmLookup_kept o s
  | tableDump o => exact execTableDump_kept o s
  | tableDef o => exact execTableDef_kept o s
  | emWrite o => exact execEmWrite_kept o s
  | lpmWrite o => exact execLpmWrite_kept o s
  | aclWrite o => exact execAclWrite_kept o s
  | actionWrite o => exact execActionWrite_kept o s
  | tableBulk o => exact execTableBulk_kept o s
  | learnSet o => exact execLearnSet_kept o s
  | ageSet o => exact execAgeSet_kept o s
  | shadowSet o => exact execShadowSet_kept o s
  | flushLearned o => exact execFlushLearned_kept o s
  | readBuffer o => exact execReadBuffer_kept o s
  | readQueue o => exact execReadQueue_kept o s
  | readPg o => exact execReadPg_kept o s
  | poolSet o => exact execPoolSet_kept o s
  | queueAdmitSet o => exact execQueueAdmitSet_kept o s
  | pgSet o => exact execPgSet_kept o s
  | dramSet o => exact execDramSet_kept o s
  | readLathe o => exact execReadLathe_kept o s
  | readBank o => exact execReadBank_kept o s
  | shmRead o => exact execShmRead_kept o s
  | readControlStore o => exact execReadControlStore_kept o s
  | imageLoad o => exact execImageLoad_kept o s
  | bankClear o => exact execBankClear_kept o s
  | shmWrite o => exact execShmWrite_kept o s
  | latheIsolate o => exact execLatheIsolate_kept o s
  | latheRestore o => exact execLatheRestore_kept o s
  | microcodeReload o => exact execMicrocodeReload_kept o s
  | mandrelTest o res => exact execMandrelTest_kept o res s
  | csInject o => exact execCsInject_kept o s
  | readSched o => exact execReadSched_kept o s
  | readGcl o => exact execReadGcl_kept o s
  | readShaper o => exact execReadShaper_kept o s
  | queueSchedSet o => exact execQueueSchedSet_kept o s
  | shaperSet o => exact execShaperSet_kept o s
  | gclSet o => exact execGclSet_kept o s
  | gclCancel o => exact execGclCancel_kept o s
  | pfcSet o => exact execPfcSet_kept o s
  | escSet o => exact execEscSet_kept o s
  | stormRestore o => exact execStormRestore_kept o s
  | readSeq o => exact execReadSeq_kept o s
  | readFanout o => exact execReadFanout_kept o s
  | readGrid o => exact execReadGrid_kept o s
  | readTrim o => exact execReadTrim_kept o s
  | readGroupConfig o => exact execReadGroupConfig_kept o s
  | seqGroupSet o => exact execSeqGroupSet_kept o s
  | fanoutGroupSet o => exact execFanoutGroupSet_kept o s
  | trimSet o => exact execTrimSet_kept o s
  | trimMeasure o => exact execTrimMeasure_kept o s
  | readContext o => exact execReadContext_kept o s
  | readCu o => exact execReadCu_kept o s
  | contextSet o => exact execContextSet_kept o s
  | contextMove o => exact execContextMove_kept o s
  | contextReset o => exact execContextReset_kept o s
  | collSet o => exact execCollSet_kept o s
  | readArb o => exact execReadArb_kept o s
  | arbSet o => exact execArbSet_kept o s
  | arbCommit o => exact execArbCommit_kept o s
  | readPortCounters o => exact execReadPortCounters_kept o s
  | readSel o => exact execReadSel_kept o s
  | readHist o => exact execReadHist_kept o s
  | readSketch o => exact execReadSketch_kept o s
  | readBw o => exact execReadBw_kept o s
  | readExport o => exact execReadExport_kept o s
  | readCapture o => exact execReadCapture_kept o s
  | selSet o => exact execSelSet_kept o s
  | selCtrl o => exact execSelCtrl_kept o s
  | readClear o => exact execReadClear_kept o s
  | histSet o => exact execHistSet_kept o s
  | sketchSet o => exact execSketchSet_kept o s
  | exportSet o => exact execExportSet_kept o s
  | evSet o => exact execEvSet_kept o s
  | bwSet o => exact execBwSet_kept o s
  | classSet o => exact execClassSet_kept o s
  | captureSet o => exact execCaptureSet_kept o s
  | captureFreeze o => exact execCaptureFreeze_kept o s
  | captureDrain o => exact execCaptureDrain_kept o s
  | exportTemplate o => exact execExportTemplate_kept o s
  | readPower o => exact execReadPower_kept o s
  | readPhase o => exact execReadPhase_kept o s
  | readThermal o => exact execReadThermal_kept o s
  | phaseSet o => exact execPhaseSet_kept o s
  | phaseSelect o => exact execPhaseSelect_kept o s
  | phaseCancel o => exact execPhaseCancel_kept o s
  | powerSet o => exact execPowerSet_kept o s
  | readErrors o => exact execReadErrors_kept o s
  | readFatal o => exact execReadFatal_kept o s
  | errClose o => exact execErrClose_kept o s
  | cuIsolate o => exact execCuIsolate_kept o s
  | cuRestore o => exact execCuRestore_kept o s
  | add x => exact execAdd_kept x s
  | sub x => exact execSub_kept x s
  | and x => exact execAnd_kept x s
  | or x => exact execOr_kept x s
  | xor x => exact execXor_kept x s
  | shl x => exact execShl_kept x s
  | shr x => exact execShr_kept x s
  | sar x => exact execSar_kept x s
  | cmp x => exact execCmp_kept x s
  | mul x => exact execMul_kept x s
  | mulh x => exact execMulh_kept x s
  | ext x => exact execExt_kept x s
  | ins x => exact execIns_kept x s
  | beq x => exact execBeq_kept x s
  | bne x => exact execBne_kept x s
  | blt x => exact execBlt_kept x s
  | bge x => exact execBge_kept x s
  | bltu x => exact execBltu_kept x s
  | bgeu x => exact execBgeu_kept x s
  | jmp x => exact execJmp_kept x s
  | ldl x => exact execLdl_kept x s
  | stl x => exact execStl_kept x s
  | ldc x => exact execLdc_kept x s
  | lds x => exact execLds_kept x s
  | sts x => exact execSts_kept x s
  | fadd x => exact execFadd_kept x s
  | cas x => exact execCas_kept x s
  | swap x => exact execSwap_kept x s
  | hvl x => exact execHvl_kept x s
  | hvs x => exact execHvs_kept x s
  | pbl x => exact execPbl_kept x s
  | pbs x => exact execPbs_kept x s
  | hedit x => exact execHedit_kept x s
  | dget x => exact execDget_kept x s
  | dset x => exact execDset_kept x s
  | lkup x => exact execLkup_kept x s
  | bcopy x => exact execBcopy_kept x s
  | crc x => exact execCrc_kept x s
  | sha x => exact execSha_kept x s
  | exit x => exact execExit_kept x s
  | mcheckRecoveryDone k cause => exact execMcheckRecoveryDone_kept k cause s
  | latheDeal slice => exact execLatheDeal_kept slice s
  | latheResultRelease slice bucket => exact execLatheResultRelease_kept slice bucket s
  | latheTimeoutSkip slice bucket => exact execLatheTimeoutSkip_kept slice bucket s
  | dealDrainMarkerDone k => exact execDealDrainMarkerDone_kept k s
  | latheRedirectDone slice bad => exact execLatheRedirectDone_kept slice bad s
  | imageLoadDone b ok => exact execImageLoadDone_kept b ok s
  | doorbellWrite m page v wide => exact execDoorbellWrite_kept m page v wide s
  | m0Doorbell v => exact execM0Doorbell_kept v s
  | ringFault m n => exact execRingFault_kept m n s
  | msixModerationTimer m v => exact execMsixModerationTimer_kept m v s
  | ringCtrlWrite m n v => exact execRingCtrlWrite_kept m n v s
  | portInfoRead m a => exact execPortInfoRead_kept m a s
  | ringStatusRead m n a => exact execRingStatusRead_kept m n a s
  | fpActive0Read m a => exact execFpActive0Read_kept m a s
  | fpCommit0Read m a => exact execFpCommit0Read_kept m a s
  | dtSnap0Read m a => exact execDtSnap0Read_kept m a s
  | laserAlarmClear m v => exact execLaserAlarmClear_kept m v s
  | flowLatchClear m => exact execFlowLatchClear_kept m s
  | traystopLatchClear m => exact execTraystopLatchClear_kept m s
  | crittempLatchClear m => exact execCrittempLatchClear_kept m s
  | trayBusFaultClear m => exact execTrayBusFaultClear_kept m s
  | fatalLatchClear m => exact execFatalLatchClear_kept m s
  | v48InputLost cv => exact execV48InputLost_kept cv s
  | pwrgoodLost chatter => exact execPwrgoodLost_kept chatter s
  | powerConditionsHeld => exact execPowerConditionsHeld_kept s
  | railsInRegulation => exact execRailsInRegulation_kept s
  | sysresetDeassert straps => exact execSysresetDeassert_kept straps s
  | perstNAssert m => exact execPerstNAssert_kept m s
  | pcieLinkDown m => exact execPcieLinkDown_kept m s
  | pcieLinkUp m rate width => exact execPcieLinkUp_kept m rate width s
  | busMasterEnableSet m mse => exact execBusMasterEnableSet_kept m mse s
  | entdaa a => exact execEntdaa_kept a s
  | setdasa target a => exact execSetdasa_kept target a s
  | rstdaa => exact execRstdaa_kept s
  | getpid => exact execGetpid_kept s
  | getbcr => exact execGetbcr_kept s
  | getdcr => exact execGetdcr_kept s
  | getstatus => exact execGetstatus_kept s
  | enec => exact execEnec_kept s
  | disec => exact execDisec_kept s
  | traySetdasa target a => exact execTraySetdasa_kept target a s
  | trayEntdaa a => exact execTrayEntdaa_kept a s
  | trayRstdaa => exact execTrayRstdaa_kept s
  | trayGetpid => exact execTrayGetpid_kept s
  | trayGetstatus => exact execTrayGetstatus_kept s
  | trayEnec => exact execTrayEnec_kept s
  | trayDisec => exact execTrayDisec_kept s
  | trayRegisterWrite index data reads => exact execTrayRegisterWrite_kept index data reads s
  | heartbeat v => exact execHeartbeat_kept v s
  | trayBusFault => exact execTrayBusFault_kept s
  | trayAdvisory cause => exact execTrayAdvisory_kept cause s
  | flowfailFault chatter => exact execFlowfailFault_kept chatter s
  | traystopFault chatter => exact execTraystopFault_kept chatter s
  | chatterEnd x faulted => exact execChatterEnd_kept x faulted s
  | crittempTrip => exact execCrittempTrip_kept s
  | haltEntryDone => exact execHaltEntryDone_kept s
  | haltBlockSigned => exact execHaltBlockSigned_kept s
  | dramSelfRefresh => exact execDramSelfRefresh_kept s
  | haltRailsRestored => exact execHaltRailsRestored_kept s
  | tempSample temps => exact execTempSample_kept temps s
  | thermalCapStep => exact execThermalCapStep_kept s
  | powerControlTick vin inputW loadW demand floors rails =>
    exact execPowerControlTick_kept vin inputW loadW demand floors rails s
  | slopeTick want => exact execSlopeTick_kept want s
  | railLimitExceeded j current held => exact execRailLimitExceeded_kept j current held s
  | prerampRequest => exact execPrerampRequest_kept s
  | rampComplete n => exact execRampComplete_kept n s
  | phaseTakesEffect => exact execPhaseTakesEffect_kept s
  | oppChangeDone => exact execOppChangeDone_kept s
  | startStepDone lanes fail cals test => exact execStartStepDone_kept lanes fail cals test s
  | laneSignalPresent p power => exact execLaneSignalPresent_kept p power s
  | laneAdaptDone p c => exact execLaneAdaptDone_kept p c s
  | recalibrateDone p c => exact execRecalibrateDone_kept p c s
  | eyeScanPoint p errors compared => exact execEyeScanPoint_kept p errors compared s
  | laserSample e power temp => exact execLaserSample_kept e power temp s
  | spareStandby e => exact execSpareStandby_kept e s
  | spareTrigger p cause => exact execSpareTrigger_kept p cause s
  | spareAckTimeout e => exact execSpareAckTimeout_kept e s
  | xpSourceLost p => exact execXpSourceLost_kept p s
  | xpResume p => exact execXpResume_kept p s
  | markerTransmit p => exact execMarkerTransmit_kept p s
  | markerReceived p m => exact execMarkerReceived_kept p m s
  | markerPositionMiss p k pos => exact execMarkerPositionMiss_kept p k pos s
  | linkIdleStructReceived n k v => exact execLinkIdleStructReceived_kept n k v s
  | fpAdvertise => exact execFpAdvertise_kept s
  | neighbourStale n => exact execNeighbourStale_kept n s
  | frameReceived n f k syms marked => exact execFrameReceived_kept n f k syms marked s
  | pfcFrameReceived n f k syms marked => exact execPfcFrameReceived_kept n f k syms marked s
  | pfcPauseExpiry n g => exact execPfcPauseExpiry_kept n g s
  | trimProbeSend n => exact execTrimProbeSend_kept n s
  | trimStep n => exact execTrimStep_kept n s
  | remoteFaultReceived n => exact execRemoteFaultReceived_kept n s
  | localFaultOnset n src k power => exact execLocalFaultOnset_kept n src k power s
  | localFaultEnd n gone power ago => exact execLocalFaultEnd_kept n gone power ago s
  | defect n b on => exact execDefect_kept n b on s
  | hiserWindowEnd n errs => exact execHiserWindowEnd_kept n errs s
  | serMsTick n c => exact execSerMsTick_kept n c s
  | pmSecondEnd => exact execPmSecondEnd_kept s
  | binFinal => exact execBinFinal_kept s
  | ptpMessageReceived freq => exact execPtpMessageReceived_kept freq s
  | ptpMessageTransmit n k => exact execPtpMessageTransmit_kept n k s
  | ppsInEdge highNs freq => exact execPpsInEdge_kept highNs freq s
  | ppsBadSecond => exact execPpsBadSecond_kept s
  | refInQualified => exact execRefInQualified_kept s
  | refInLost => exact execRefInLost_kept s
  | servoEvaluation freq => exact execServoEvaluation_kept freq s
  | holdoverLimit => exact execHoldoverLimit_kept s
  | ppsOutEdge => exact execPpsOutEdge_kept s
  | evidenceRecordStore m => exact execEvidenceRecordStore_kept m s
  | blockCloseTimer => exact execBlockCloseTimer_kept s
  | blockSigned => exact execBlockSigned_kept s
  | commitInstant => exact execCommitInstant_kept s
  | versionRetired => exact execVersionRetired_kept s
  | copyFree mem loc => exact execCopyFree_kept mem loc s
  | packetIngress n => exact execPacketIngress_kept n s
  | learnInsert => exact execLearnInsert_kept s
  | stationMove => exact execStationMove_kept s
  | agingVisit l hit => exact execAgingVisit_kept l hit s
  | backgroundCompare parity differ => exact execBackgroundCompare_kept parity differ s
  | tableRepair mem loc quads shadow => exact execTableRepair_kept mem loc quads shadow s
  | shadowFillDone => exact execShadowFillDone_kept s
  | shadowFault cause => exact execShadowFault_kept cause s
  | dumpTimeout n => exact execDumpTimeout_kept n s
  | flushDone => exact execFlushDone_kept s
  | packetStore req upset => exact execPacketStore_kept req upset s
  | pfcRefresh n => exact execPfcRefresh_kept n s
  | pfcStormEnter q => exact execPfcStormEnter_kept q s
  | stormRestoreTimer q => exact execStormRestoreTimer_kept q s
  | overflowWriteDone q crcOk u m => exact execOverflowWriteDone_kept q crcOk u m s
  | overflowReturn q fault crcOk upset m => exact execOverflowReturn_kept q fault crcOk upset m s
  | egressFrameStart n crcOk u => exact execEgressFrameStart_kept n crcOk u s
  | gateEntryChange n => exact execGateEntryChange_kept n s
  | gclTakeover n => exact execGclTakeover_kept n s
  | transmissionEnd n u => exact execTransmissionEnd_kept n u s
  | hostSlotWrite crcOk u => exact execHostSlotWrite_kept crcOk u s
  | sprayRxTimeout sender flow => exact execSprayRxTimeout_kept sender flow s
  | sprayContextFree sender flow => exact execSprayContextFree_kept sender flow s
  | sprayDrainMarkerReceived => exact execSprayDrainMarkerReceived_kept s
  | sprayDrainLimit sender group => exact execSprayDrainLimit_kept sender group s
  | sprayMarkersSent g => exact execSprayMarkersSent_kept g s
  | seqPresent g => exact execSeqPresent_kept g s
  | seqGroupChange g => exact execSeqGroupChange_kept g s
  | fanoutCopyPrepare g port crcOk u => exact execFanoutCopyPrepare_kept g port crcOk u s
  | fanoutCopyRelease g port u => exact execFanoutCopyRelease_kept g port u s
  | fanoutStale g port u => exact execFanoutStale_kept g port u s
  | collContributionArrival u ok up => exact execCollContributionArrival_kept u ok up s
  | collRecompute n badRead pass => exact execCollRecompute_kept n badRead pass s
  | collParentResult u up => exact execCollParentResult_kept u up s
  | collTimeout n => exact execCollTimeout_kept n s
  | collNotice n => exact execCollNotice_kept n s
  | barrierArrive u up => exact execBarrierArrive_kept u up s
  | prerampWithdraw n => exact execPrerampWithdraw_kept n s
  | rampWaitExpiry n => exact execRampWaitExpiry_kept n s
  | collMoveMarker n => exact execCollMoveMarker_kept n s
  | cuMemoryError u addr => exact execCuMemoryError_kept u addr s
  | cuIsolationDone u => exact execCuIsolationDone_kept u s
  | reducerSnapshot => exact execReducerSnapshot_kept s
  | selCtrlInstant => exact execSelCtrlInstant_kept s
  | bwWindowEnd n => exact execBwWindowEnd_kept n s
  | exportBatchFlush x upset => exact execExportBatchFlush_kept x upset s
  | captureRecordWrite crcOk fault u m => exact execCaptureRecordWrite_kept crcOk fault u m s
  | captureDrainDone m => exact execCaptureDrainDone_kept m s
  | arbCommitInstant => exact execArbCommitInstant_kept s
  | mcheckLogicMismatch unit => exact execMcheckLogicMismatch_kept unit s
  | recordStoreParity group slot => exact execRecordStoreParity_kept group slot s
  | islandClockLoss island pll => exact execIslandClockLoss_kept island pll s
  | gpioEdgeDetect x level => exact execGpioEdgeDetect_kept x level s
  | tapReset => exact execTapReset_kept s
  | idcode => exact execIdcode_kept s
  | bypass => exact execBypass_kept s
  | samplePreload sample load => exact execSamplePreload_kept sample load s
  | extest => exact execExtest_kept s
  | clamp => exact execClamp_kept s
  | highz => exact execHighz_kept s
  | busMasterEnableClear m mse => exact execBusMasterEnableClear_kept m mse s
  | remoteFaultEnd n => exact execRemoteFaultEnd_kept n s
  | ptpSlaveStateLost => exact execPtpSlaveStateLost_kept s
  | spareLockLost e => exact execSpareLockLost_kept e s
  | latheRestoreDone k res => exact execLatheRestoreDone_kept k res s
  | cuRestoreDone u ok => exact execCuRestoreDone_kept u ok s
  | tableDumpDone => exact execTableDumpDone_kept s
  | trimMeasureTimeout n => exact execTrimMeasureTimeout_kept n s
  | moveHoldTimeout n => exact execMoveHoldTimeout_kept n s
  | rivelInputUnfaulted x => exact execRivelInputUnfaulted_kept x s
  | v48InputInRange cv => exact execV48InputInRange_kept cv s
  | tbAdjustSecondBoundary => exact execTbAdjustSecondBoundary_kept s
  | tbSlewComplete => exact execTbSlewComplete_kept s
  | _ => cases h

/-- A command of ownership keeps the queue. -/
theorem exec_queue {c : Instr} (h : c.touchesOwnership = true) (s : State) :
    ∃ t, exec c s = .next t ∧ t.kept.2 = s.kept.2 := by
  cases c with
  | handoverOffer o => exact execHandoverOffer_queue o s
  | handoverAccept o => exact execHandoverAccept_queue o s
  | handoverWithdraw o => exact execHandoverWithdraw_queue o s
  | release o => exact execRelease_queue o s
  | claimWrite m v => exact execClaimWrite_queue m v s
  | renewWrite m v => exact execRenewWrite_queue m v s
  | leaseLow => exact execLeaseLow_queue s
  | leaseExpired => exact execLeaseExpired_queue s
  | expiryDrainEnd => exact execExpiryDrainEnd_queue s
  | offerLapsed => exact execOfferLapsed_queue s
  | handoverCut => exact execHandoverCut_queue s
  | releaseCut => exact execReleaseCut_queue s
  | orderFetch m n bits data resultOk test => exact execOrderFetch_queue m n bits data resultOk test s
  | payloadDmaDone x data => exact execPayloadDmaDone_queue x data s
  | registerWrite m off v whole => exact execRegisterWrite_queue m off v whole s
  | vauxPowerUp straps flowBad trayBad pwrBad => exact execVauxPowerUp_queue straps flowBad trayBad pwrBad s
  | vauxLost => exact execVauxLost_queue s
  | sysresetN => exact execSysresetN_queue s
  | _ => cases h

/-- Settles O5: the commands left out are those whose law keeps the ownership registers. -/
theorem onlyOwnershipCommandsChangeOwnership : Obligations.OnlyOwnershipCommandsChangeOwnership := by
  intro c s hc
  obtain ⟨t, ht, hk⟩ := exec_kept hc s
  exact ⟨t, ht, congrArg Prod.fst hk⟩

/-- Settles O4: every command has its law, of either kind. -/
theorem everyCommandAnswersANextState : Obligations.EveryCommandAnswersANextState := by
  intro c s
  cases hc : c.touchesOwnership with
  | false =>
    obtain ⟨t, ht, hk⟩ := exec_kept hc s
    exact ⟨t, ht, congrArg Prod.snd hk⟩
  | true => exact exec_queue hc s

/-- Settles O1: the step takes the front of the queue. -/
theorem stepRunsFrontCommand : Obligations.StepRunsFrontCommand := by
  intro c cs s
  rfl

end Sys2Proof.Machine
end

section
/-! SUPPORT. The fetch of a work order (02 R61, R69, R73): its order table is made of commands, the fetch by its cases. -/

namespace Sys2Proof.Machine

/-! The order table (20 Table 20-6) -/

/-- A table entry is a command: its opcode is that of the command's work order, its meaning the command's. -/
def IsCommand (e : Nat × Meaning) : Prop :=
  ∃ k : Order → Instr, (∀ o, (k o).workOrder = some (e.1, o)) ∧ ∀ o s, e.2 o s = exec (k o) s

theorem IsCommand.of (k : Order → Instr) {op : Nat} (h : ∀ o, (k o).workOrder = some (op, o) := by exact fun _ => rfl) :
    IsCommand (op, fun o s => exec (k o) s) := ⟨k, h, fun _ _ => rfl⟩

theorem orders2_commands : ∀ e ∈ orders2, IsCommand e := by
  simp only [orders2, List.forall_mem_cons]
  exact ⟨.of .nop, .of .readOwnership, .of .handoverOffer, .of .handoverAccept, .of .handoverWithdraw, .of .release,
    List.forall_mem_nil _⟩

theorem orders3_commands : ∀ e ∈ orders3, IsCommand e := by
  simp only [orders3, List.forall_mem_cons]
  exact ⟨.of .readStart, .of .start, .of .enterService, .of .enterProbe, List.forall_mem_nil _⟩

theorem orders4_commands : ∀ e ∈ orders4, IsCommand e := by
  simp only [orders4, List.forall_mem_cons]
  exact ⟨.of .readLane, .of .readOe, .of .eyeScan, .of .rawCapture, .of .portSet, .of .laneSet, .of .recalibrate,
    .of .spare, .of .unspare, .of .oeSet, .of .xpSet, .of .elsXfer, List.forall_mem_nil _⟩

theorem orders5_commands : ∀ e ∈ orders5, IsCommand e := by
  simp only [orders5, List.forall_mem_cons]
  exact ⟨.of .readPcs, .of .readPm, .of .readNeighbour, .of .pcsSet, .of .defectAck, List.forall_mem_nil _⟩

theorem orders6_commands : ∀ e ∈ orders6, IsCommand e := by
  simp only [orders6, List.forall_mem_cons]
  exact ⟨.of .readTb, .of .readLtt, .of .readLogBlock, .of .readCert, .of .tbSet, .of .tbAdjust, .of .ptpPortSet,
    .of .lttSet, .of .logSet, .of .logClose, .of .logRelease, List.forall_mem_nil _⟩

theorem orders7_commands : ∀ e ∈ orders7, IsCommand e := by
  simp only [orders7, List.forall_mem_cons]
  exact ⟨.of .readVersions, .of .readParser, .of .readStage, .of .readHostmap, .of .readSprayRx, .of .readMcast,
    .of .parserSet, .of .portParseSet, .of .stageSet, .of .stageOpen, .of .commit, .of .stageDiscard, .of .hostmapSet,
    .of .dealSet, .of .spraySet, .of .sprayGroupSet, .of .mcastSet, List.forall_mem_nil _⟩

theorem orders8_commands : ∀ e ∈ orders8, IsCommand e := by
  simp only [orders8, List.forall_mem_cons]
  exact ⟨.of .readTables, .of .emLookup, .of .lpmLookup, .of .tableDump, .of .tableDef, .of .emWrite, .of .lpmWrite,
    .of .aclWrite, .of .actionWrite, .of .tableBulk, .of .learnSet, .of .ageSet, .of .shadowSet, .of .flushLearned,
    List.forall_mem_nil _⟩

theorem orders9_commands : ∀ e ∈ orders9, IsCommand e := by
  simp only [orders9, List.forall_mem_cons]
  exact ⟨.of .readBuffer, .of .readQueue, .of .readPg, .of .poolSet, .of .queueAdmitSet, .of .pgSet, .of .dramSet,
    List.forall_mem_nil _⟩

theorem orders10_commands (test : Nat) : ∀ e ∈ orders10 test, IsCommand e := by
  simp only [orders10, List.forall_mem_cons]
  exact ⟨.of .readLathe, .of .readBank, .of .shmRead, .of .readControlStore, .of .imageLoad, .of .bankClear,
    .of .shmWrite, .of .latheIsolate, .of .latheRestore, .of .microcodeReload, .of fun o => .mandrelTest o test,
    .of .csInject, List.forall_mem_nil _⟩

theorem orders11_commands : ∀ e ∈ orders11, IsCommand e := by
  simp only [orders11, List.forall_mem_cons]
  exact ⟨.of .readSched, .of .readGcl, .of .readShaper, .of .queueSchedSet, .of .shaperSet, .of .gclSet, .of .gclCancel,
    .of .pfcSet, .of .escSet, .of .stormRestore, List.forall_mem_nil _⟩

theorem orders12_commands : ∀ e ∈ orders12, IsCommand e := by
  simp only [orders12, List.forall_mem_cons]
  exact ⟨.of .readSeq, .of .readFanout, .of .readGrid, .of .readTrim, .of .readGroupConfig, .of .seqGroupSet,
    .of .fanoutGroupSet, .of .trimSet, .of .trimMeasure, List.forall_mem_nil _⟩

theorem orders13_commands : ∀ e ∈ orders13, IsCommand e := by
  simp only [orders13, List.forall_mem_cons]
  exact ⟨.of .readContext, .of .readCu, .of .contextSet, .of .contextMove, .of .contextReset, .of .collSet,
    List.forall_mem_nil _⟩

theorem orders14_commands : ∀ e ∈ orders14, IsCommand e := by
  simp only [orders14, List.forall_mem_cons]
  exact ⟨.of .readArb, .of .arbSet, .of .arbCommit, List.forall_mem_nil _⟩

theorem orders15_commands : ∀ e ∈ orders15, IsCommand e := by
  simp only [orders15, List.forall_mem_cons]
  exact ⟨.of .readPortCounters, .of .readSel, .of .readHist, .of .readSketch, .of .readBw, .of .readExport,
    .of .readCapture, .of .selSet, .of .selCtrl, .of .readClear, .of .histSet, .of .sketchSet, .of .exportSet,
    .of .evSet, .of .bwSet, .of .classSet, .of .captureSet, .of .captureFreeze, .of .captureDrain, .of .exportTemplate,
    List.forall_mem_nil _⟩

theorem orders16_commands : ∀ e ∈ orders16, IsCommand e := by
  simp only [orders16, List.forall_mem_cons]
  exact ⟨.of .readPower, .of .readPhase, .of .readThermal, .of .phaseSet, .of .phaseSelect, .of .phaseCancel,
    .of .powerSet, List.forall_mem_nil _⟩

theorem orders17_commands : ∀ e ∈ orders17, IsCommand e := by
  simp only [orders17, List.forall_mem_cons]
  exact ⟨.of .readErrors, .of .readFatal, .of .errClose, .of .cuIsolate, .of .cuRestore, List.forall_mem_nil _⟩

theorem orderTable_commands (test : Nat) : ∀ e ∈ orderTable test, IsCommand e := by
  simp only [orderTable, List.forall_mem_append, and_assoc]
  exact ⟨orders2_commands, orders3_commands, orders4_commands, orders5_commands, orders6_commands,
    orders7_commands, orders8_commands, orders9_commands, orders10_commands test, orders11_commands, orders12_commands,
    orders13_commands, orders14_commands, orders15_commands, orders16_commands, orders17_commands⟩

/-- An opcode that a part of the table lists is dispatched to the meaning found there. -/
theorem runOpcode_of_find {x : Nat} {l : List (Nat × Meaning)} (hl : l ⊆ orderTable x) {op : BitVec 16} {n : Nat}
    (hn : n = op.toNat) {e : Nat × Meaning} (he : l.find? (fun e => e.1 == n) = some e) (o : Order) (s : State) :
    runOpcode op o x s = e.2 o s := by
  have h1 : e.1 = op.toNat := by simpa [hn] using List.find?_some he
  exact runOpcode_of_mem (h1 ▸ hl (List.mem_of_find?_eq_some he)) o s

theorem orders2_subset (x : Nat) : orders2 ⊆ orderTable x := fun e h => by simp [orderTable, h]
theorem orders3_subset (x : Nat) : orders3 ⊆ orderTable x := fun e h => by simp [orderTable, h]
theorem orders4_subset (x : Nat) : orders4 ⊆ orderTable x := fun e h => by simp [orderTable, h]
theorem orders5_subset (x : Nat) : orders5 ⊆ orderTable x := fun e h => by simp [orderTable, h]
theorem orders6_subset (x : Nat) : orders6 ⊆ orderTable x := fun e h => by simp [orderTable, h]
theorem orders7_subset (x : Nat) : orders7 ⊆ orderTable x := fun e h => by simp [orderTable, h]
theorem orders8_subset (x : Nat) : orders8 ⊆ orderTable x := fun e h => by simp [orderTable, h]
theorem orders9_subset (x : Nat) : orders9 ⊆ orderTable x := fun e h => by simp [orderTable, h]
theorem orders10_subset (x : Nat) : orders10 x ⊆ orderTable x := fun e h => by simp [orderTable, h]
theorem orders11_subset (x : Nat) : orders11 ⊆ orderTable x := fun e h => by simp [orderTable, h]
theorem orders12_subset (x : Nat) : orders12 ⊆ orderTable x := fun e h => by simp [orderTable, h]
theorem orders13_subset (x : Nat) : orders13 ⊆ orderTable x := fun e h => by simp [orderTable, h]
theorem orders14_subset (x : Nat) : orders14 ⊆ orderTable x := fun e h => by simp [orderTable, h]
theorem orders15_subset (x : Nat) : orders15 ⊆ orderTable x := fun e h => by simp [orderTable, h]
theorem orders16_subset (x : Nat) : orders16 ⊆ orderTable x := fun e h => by simp [orderTable, h]
theorem orders17_subset (x : Nat) : orders17 ⊆ orderTable x := fun e h => by simp [orderTable, h]

/-- A command that is a work order is what its opcode is dispatched to. -/
theorem runOpcode_workOrder {c : Instr} {op : BitVec 16} {o : Order} {x : Nat} (s : State)
    (h : c.workOrder = some (op.toNat, o)) (hx : ∀ q y, c = .mandrelTest q y → y = x) :
    runOpcode op o x s = exec c s := by
  cases c
  case nop | readOwnership | handoverOffer | handoverAccept | handoverWithdraw | release =>
    obtain ⟨h1, rfl⟩ := Prod.mk.inj (Option.some.inj h)
    exact (runOpcode_of_find (orders2_subset x) h1 rfl _ s).trans rfl
  case readStart | start | enterService | enterProbe =>
    obtain ⟨h1, rfl⟩ := Prod.mk.inj (Option.some.inj h)
    exact (runOpcode_of_find (orders3_subset x) h1 rfl _ s).trans rfl
  case readLane | readOe | eyeScan | rawCapture | portSet | laneSet | recalibrate | spare | unspare | oeSet | xpSet |
      elsXfer =>
    obtain ⟨h1, rfl⟩ := Prod.mk.inj (Option.some.inj h)
    exact (runOpcode_of_find (orders4_subset x) h1 rfl _ s).trans rfl
  case readPcs | readPm | readNeighbour | pcsSet | defectAck =>
    obtain ⟨h1, rfl⟩ := Prod.mk.inj (Option.some.inj h)
    exact (runOpcode_of_find (orders5_subset x) h1 rfl _ s).trans rfl
  case readTb | readLtt | readLogBlock | readCert | tbSet | tbAdjust | ptpPortSet | lttSet | logSet | logClose |
      logRelease =>
    obtain ⟨h1, rfl⟩ := Prod.mk.inj (Option.some.inj h)
    exact (runOpcode_of_find (orders6_subset x) h1 rfl _ s).trans rfl
  case readVersions | readParser | readStage | readHostmap | readSprayRx | readMcast | parserSet | portParseSet |
      stageSet | stageOpen | commit | stageDiscard | hostmapSet | dealSet | spraySet | sprayGroupSet | mcastSet =>
    obtain ⟨h1, rfl⟩ := Prod.mk.inj (Option.some.inj h)
    exact (runOpcode_of_find (orders7_subset x) h1 rfl _ s).trans rfl
  case readTables | emLookup | lpmLookup | tableDump | tableDef | emWrite | lpmWrite | aclWrite | actionWrite |
      tableBulk | learnSet | ageSet | shadowSet | flushLearned =>
    obtain ⟨h1, rfl⟩ := Prod.mk.inj (Option.some.inj h)
    exact (runOpcode_of_find (orders8_subset x) h1 rfl _ s).trans rfl
  case readBuffer | readQueue | readPg | poolSet | queueAdmitSet | pgSet | dramSet =>
    obtain ⟨h1, rfl⟩ := Prod.mk.inj (Option.some.inj h)
    exact (runOpcode_of_find (orders9_subset x) h1 rfl _ s).trans rfl
  case readLathe | readBank | shmRead | readControlStore | imageLoad | bankClear | shmWrite | latheIsolate |
      latheRestore | microcodeReload | csInject =>
    obtain ⟨h1, rfl⟩ := Prod.mk.inj (Option.some.inj h)
    exact (runOpcode_of_find (orders10_subset x) h1 rfl _ s).trans rfl
  case readSched | readGcl | readShaper | queueSchedSet | shaperSet | gclSet | gclCancel | pfcSet | escSet |
      stormRestore =>
    obtain ⟨h1, rfl⟩ := Prod.mk.inj (Option.some.inj h)
    exact (runOpcode_of_find (orders11_subset x) h1 rfl _ s).trans rfl
  case readSeq | readFanout | readGrid | readTrim | readGroupConfig | seqGroupSet | fanoutGroupSet | trimSet |
      trimMeasure =>
    obtain ⟨h1, rfl⟩ := Prod.mk.inj (Option.some.inj h)
    exact (runOpcode_of_find (orders12_subset x) h1 rfl _ s).trans rfl
  case readContext | readCu | contextSet | contextMove | contextReset | collSet =>
    obtain ⟨h1, rfl⟩ := Prod.mk.inj (Option.some.inj h)
    exact (runOpcode_of_find (orders13_subset x) h1 rfl _ s).trans rfl
  case readArb | arbSet | arbCommit =>
    obtain ⟨h1, rfl⟩ := Prod.mk.inj (Option.some.inj h)
    exact (runOpcode_of_find (orders14_subset x) h1 rfl _ s).trans rfl
  case readPortCounters | readSel | readHist | readSketch | readBw | readExport | readCapture | selSet | selCtrl |
      readClear | histSet | sketchSet | exportSet | evSet | bwSet | classSet | captureSet | captureFreeze |
      captureDrain | exportTemplate =>
    obtain ⟨h1, rfl⟩ := Prod.mk.inj (Option.some.inj h)
    exact (runOpcode_of_find (orders15_subset x) h1 rfl _ s).trans rfl
  case readPower | readPhase | readThermal | phaseSet | phaseSelect | phaseCancel | powerSet =>
    obtain ⟨h1, rfl⟩ := Prod.mk.inj (Option.some.inj h)
    exact (runOpcode_of_find (orders16_subset x) h1 rfl _ s).trans rfl
  case readErrors | readFatal | errClose | cuIsolate | cuRestore =>
    obtain ⟨h1, rfl⟩ := Prod.mk.inj (Option.some.inj h)
    exact (runOpcode_of_find (orders17_subset x) h1 rfl _ s).trans rfl
  case mandrelTest q y =>
    obtain ⟨h1, rfl⟩ := Prod.mk.inj (Option.some.inj h)
    obtain rfl := hx _ _ rfl
    exact (runOpcode_of_find (orders10_subset y) h1 rfl _ s).trans rfl
  all_goals cases h

/-! The fetch (02 R61, R69, R73) -/

/-- What the read of the next order of a ring answers: M0's from its window, the others' from host memory (02 R51, R61). -/
def fetchBits (s : State) (m : Master) (n : Nat) (bits : Option (BitVec 512)) : Option (BitVec 512) :=
  if m = .m0 then some (m0Order s n) else bits

/-- The order that the bits read spell, with what it meets: M0 reads its payload and its result's place from its window. -/
def fetchOrder (s : State) (m : Master) (n : Nat) (w : BitVec 512) (data : PtrData) (ok : Bool) : Order :=
  orderOfBits m n (getRing s m n).dev w (if m = .m0 ∧ bit w 16 = true then .later else data) (m == .m0 || ok)

/-- The ring one order further. -/
def fetchAdvance (s : State) (m : Master) (n : Nat) (op : BitVec 16) : State :=
  updRing s m n fun r => { r with dev := r.dev + 1, ownLast := clsOf op.toNat == .ownership }

@[simp] theorem fetchAdvance_kept (s : State) (m : Master) (n : Nat) (op : BitVec 16) :
    (fetchAdvance s m n op).kept = s.kept := rfl

section
variable {s : State} {m : Master} {n : Nat} {bits : Option (BitVec 512)} {w : BitVec 512} {data : PtrData} {ok : Bool} {x : Nat}

theorem execOrderFetch_not_ready (h : fetchReady s m n = false) :
    execOrderFetch m n bits data ok x s = .next s := by
  simp [execOrderFetch, h]

theorem execOrderFetch_failed (h : fetchReady s m n = true) (hb : fetchBits s m n bits = none) :
    execOrderFetch m n bits data ok x s = .next (ringFault s m n) := by
  rw [fetchBits] at hb
  simp [execOrderFetch, h, hb]

theorem execOrderFetch_waits (h : fetchReady s m n = true) (hb : fetchBits s m n bits = some w)
    (hw : mustWait s (fetchOrder s m n w data ok) (w.extractLsb' 0 16) = true) :
    execOrderFetch m n bits data ok x s = .next s := by
  rw [fetchBits] at hb
  rw [fetchOrder] at hw
  simp only [execOrderFetch, h, hb, hw, Bool.not_true, Bool.false_eq_true, if_false, if_true]

theorem execOrderFetch_runs (h : fetchReady s m n = true) (hb : fetchBits s m n bits = some w)
    (hw : mustWait s (fetchOrder s m n w data ok) (w.extractLsb' 0 16) = false) :
    execOrderFetch m n bits data ok x s =
      runOpcode (w.extractLsb' 0 16) (fetchOrder s m n w data ok) x (fetchAdvance s m n (w.extractLsb' 0 16)) := by
  rw [fetchBits] at hb
  rw [fetchOrder] at hw
  simp only [execOrderFetch, h, hb, hw, Bool.not_true, Bool.false_eq_true, if_false]
  rfl

end

/-- Settles O11: the equations of the fetch, and the order's opcode dispatched to its own command. -/
theorem fetchRunsTheOrderItReads : Obligations.FetchRunsTheOrderItReads := by
  refine ⟨?runs, ?fails⟩
  case runs =>
    intro c op o m n w data ok x s hc hm hr hop ho hw hx
    have hfo : fetchOrder s m n w data ok = o := by
      simpa [fetchOrder, hm, beq_false_of_ne hm] using ho
    subst op
    change execOrderFetch m n (some w) data ok x s = _
    rw [execOrderFetch_runs hr (if_neg hm) (hfo ▸ hw), hfo, runOpcode_workOrder _ hc hx]
    rfl
  case fails =>
    intro m n data ok x s hm hr
    exact execOrderFetch_failed hr (if_neg hm)

/-- Settles O58: a fetch that runs answers what its opcode's meaning answers, and every meaning answers a next state. -/
theorem fetchCompletes : Obligations.FetchCompletes := by
  refine ⟨?runs, ?notReady, ?waits⟩
  case runs =>
    intro m n bits w data ok x o s u hr hb ho hw hu
    subst o u
    have hf : exec (.orderFetch m n bits data ok x) s = _ := execOrderFetch_runs hr hb hw
    refine ⟨?_, fun hnop ha => ?_⟩
    · obtain ⟨t, ht, -⟩ := runOpcode_queue (w.extractLsb' 0 16) (fetchOrder s m n w data ok) x
        (fetchAdvance s m n (w.extractLsb' 0 16))
      exact ⟨t, ht, hf.trans ht⟩
    · have hop : (0x0201, execNop) ∈ orderTable x := orders2_subset x (.head _)
      rw [hf, hnop, runOpcode_of_mem (op := 0x0201) hop]
      rw [hnop] at ha
      exact congrArg _ (runOrder_accepted ha rfl)
  case notReady =>
    intro m n bits data ok x s hr
    exact execOrderFetch_not_ready hr
  case waits =>
    intro m n bits w data ok x s hr hb hw
    exact execOrderFetch_waits hr hb hw

end Sys2Proof.Machine
end

section
/-! SUPPORT. Every step keeps the ownership registers sane (02 R76 to R89): the registers under each operation that writes
them, then the orders and events of ownership, then the step. -/

namespace Sys2Proof.Machine
open State

/-! The registers -/

namespace OwnSt.Sane

/-- The sanity of the registers is a matter of OWNER, LEASE_VALID, the offer, the drain and LEASE_MS. -/
theorem of_same {w v : OwnSt} (h : w.Sane) (ho : v.owner = w.owner) (hl : v.leaseValid = w.leaseValid)
    (hf : v.offer = w.offer) (hd : v.drain = w.drain) (hm : v.leaseMs = w.leaseMs) : v.Sane := by
  obtain ⟨lease, offer, accept, release, expiry, range⟩ := h
  constructor <;> simp only [ho, hl, hf, hd, hm] <;> assumption

theorem of_no_drain {w : OwnSt} (hd : w.drain = none) (lease : w.leaseValid = w.owner.isSome)
    (offer : ∀ f, w.offer = some f → w.owner.isSome ∧ w.owner ≠ some f.to_) (range : 250 ≤ w.leaseMs ∧ w.leaseMs ≤ 10000) :
    w.Sane where
  lease := lease
  offer := offer
  accept _ _ _ h := by simp [hd] at h
  release _ _ _ h := by simp [hd] at h
  expiry _ _ h := by simp [hd] at h
  range := range

theorem reset : OwnSt.reset.Sane := of_no_drain rfl rfl nofun (by decide)

variable {w : OwnSt} (h : w.Sane)
include h

theorem set_leaseMs {n : Nat} (hn : 250 ≤ n ∧ n ≤ 10000) : OwnSt.Sane { w with leaseMs := n } :=
  { h with range := hn }

/-- With no drain an offer can be taken back. -/
theorem drop_offer (hd : w.drain = none) : OwnSt.Sane { w with offer := none } :=
  of_no_drain hd h.lease nofun h.range

end OwnSt.Sane

/-! The operations that write them -/

theorem sane_of_kept {s t : State} (hk : t.kept = s.kept) (h : s.own.Sane) : t.own.Sane := by
  have ho : t.own = s.own := congrArg Prod.fst hk
  rwa [ho]

section
variable {s : State} (h : s.own.Sane)
include h

theorem setResult_sane (m : Master) (r : Nat) : (setResult s m r).own.Sane := h.of_same rfl rfl rfl rfl rfl

theorem grant_sane (m : Master) : (grant s m).own.Sane := .of_no_drain rfl rfl nofun h.range

theorem disown_sane (hd : s.own.drain = none) : (disown s).own.Sane := .of_no_drain hd rfl nofun h.range

theorem startExpiry_sane {m : Master} (hn : s.own.owner = none) : (startDrain s .expiry m).own.Sane where
  lease := h.lease
  offer := h.offer
  accept _ _ _ hd := by simp [startDrain] at hd
  release _ _ _ hd := by simp [startDrain] at hd
  expiry _ _ _ := hn
  range := h.range

/-- The drain of an expiry begins only where an order of the old owner runs (02 R81). -/
theorem expiryDrain_sane (hn : s.own.owner = none) {t : State} (hk : t.kept = s.kept) (m : Master) :
    (if drainWaits t m then startDrain t .expiry m else t).own.Sane := by
  have ht := sane_of_kept hk h
  split
  · exact startExpiry_sane ht (congrArg (fun x => x.1.owner) hk |>.trans hn)
  · exact ht

theorem startRelease_sane {o : Order} (ho : s.own.owner = some o.master) (hf : s.own.offer = none) :
    (startDrain s (.release o) o.master).own.Sane where
  lease := h.lease
  offer := h.offer
  accept _ _ _ hd := by simp [startDrain] at hd
  release _ _ _ hd := by
    simp only [startDrain, updOwn_own, Option.some.injEq, Drain.mk.injEq, DrainKind.release.injEq] at hd
    obtain ⟨rfl, rfl, -⟩ := hd
    exact ⟨ho, hf⟩
  expiry _ _ hd := by simp [startDrain] at hd
  range := h.range

theorem startAccept_sane {o : Order} {f : Offer} {old : Master} (ho : s.own.owner = some old) (hf : s.own.offer = some f)
    (ht : f.to_ = o.master) : (startDrain s (.accept o) old).own.Sane where
  lease := h.lease
  offer := h.offer
  accept _ _ _ hd := by
    simp only [startDrain, updOwn_own, Option.some.injEq, Drain.mk.injEq, DrainKind.accept.injEq] at hd
    obtain ⟨rfl, rfl, -⟩ := hd
    exact ⟨ho, f, hf, ht⟩
  release _ _ _ hd := by simp [startDrain] at hd
  expiry _ _ hd := by simp [startDrain] at hd
  range := h.range

theorem renewWrite_sane (m : Master) (v : Word) : (renewWrite s m v).own.Sane := by
  unfold renewWrite
  split
  · exact h.of_same rfl rfl rfl rfl rfl
  · exact setResult_sane h m 6

theorem claimWrite_sane (m : Master) (v : Word) : (claimWrite s m v).own.Sane := by
  have hr : ∀ r, (setResult s m r).own.Sane := setResult_sane h m
  unfold claimWrite
  dsimp only
  split
  · exact hr _
  · refine sane_of_kept (s := grant (setResult s m (claimResult s m v)) m) ?_ (grant_sane (hr _) m)
    split <;> simp

/-- Of the global registers only LEASE_MS is an ownership register, and it takes only values in its range (02 Table 2-18). -/
theorem globalWrite_sane (a : Nat) (v : Word) : (globalWrite s a v).own.Sane := by
  unfold globalWrite
  split
  case h_3 =>
    split
    next hv => exact h.set_leaseMs hv
    next => exact h
  all_goals refine sane_of_kept ?_ h
  all_goals (repeat' split) <;> simp

theorem ownerWrite_sane {f : State → State} (hf : (f s).own.Sane) (m : Master) : (ownerWrite s m f).own.Sane := by
  unfold ownerWrite
  split
  · exact h
  · split
    · exact hf
    · exact h

theorem wordWrite_sane (m : Master) (a : Nat) (v : Word) : (wordWrite s m a v).own.Sane := by
  unfold wordWrite
  split
  · exact claimWrite_sane h m v
  · split
    · exact renewWrite_sane h m v
    · split
      · exact ownerWrite_sane h (globalWrite_sane h a v) m
      · exact sane_of_kept (localWrite_kept s m a v) h

end

theorem wordWrites_sane (m : Master) (ws : List Word) (a : Nat) {s : State} (h : s.own.Sane) :
    (wordWrites s m a ws).own.Sane := by
  induction ws generalizing s a with
  | nil => exact h
  | cons v vs ih => exact ih (a + 4) (wordWrite_sane h m a v)

/-! The orders of ownership (02 R85 to R89) -/

theorem ite_some_eq_none {α : Type} {p : Prop} [Decidable p] {a : α} {x : Option α} :
    (if p then some a else x) = none ↔ ¬p ∧ x = none := by
  split <;> simp [*]

theorem ite_isSome_eq_none {α : Type} {x y : Option α} :
    (if x.isSome then x else y) = none ↔ x = none ∧ y = none := by
  cases x <;> simp

/-- An order of the ownership class that passes its checks is the owner's, with no drain under way (02 R68, R82). -/
theorem ownership_of_firstFail {f : Form} {s : State} {o : Order} {c : Checks} (hc : clsOf f.opcode = .ownership)
    (h : firstFail f s o c = none) :
    s.own.owner = some o.master ∧ s.own.drain = none ∧ c.malformed = false ∧ c.badArgument = false ∧ c.chapter = none := by
  simp only [firstFail, hc, notOwner, draining, ite_some_eq_none, ite_isSome_eq_none, Bool.or_eq_true, not_or, bne_iff_ne, ne_eq,
    Decidable.not_not, Bool.not_eq_true, beq_self_eq_true, Bool.true_and, Option.isSome_eq_false_iff, Option.isNone_iff_eq_none] at h
  obtain ⟨⟨-, hmalformed⟩, -, ⟨howner, -⟩, -, hdrain, -, -, -, hargument, hchapter⟩ := h
  exact ⟨howner, hdrain, hmalformed, hargument, hchapter⟩

theorem runOrder_sane {f : Form} {o : Order} {s : State} {c : Checks} {body : State → State × Reply} (h : s.own.Sane)
    (hb : firstFail f s o c = none → (body s).1.own.Sane) : (runOrder f o s c body).own.Sane := by
  unfold runOrder
  split
  · exact sane_of_kept (complete_kept ..) h
  next hf =>
    split
    · exact sane_of_kept (complete_kept ..) h
    · exact sane_of_kept (reply_kept ..) (hb hf)

theorem cancelOffer_own (s : State) (c : Nat) (w : Option Master) :
    (cancelOffer s c w).own = { s.own with offer := none } := by
  unfold cancelOffer
  split
  next hf => rw [← hf]
  · exact congrArg Prod.fst (postLapsed_kept ..)

/-- A valid accept is the successor's of a pending offer, and there is an owner to hand over (02 R86). -/
theorem offer_of_acceptFail {s : State} {o : Order} (h : s.own.Sane) (ha : acceptFail s o = none) :
    ∃ f old, s.own.offer = some f ∧ f.to_ = o.master ∧ s.own.owner = some old := by
  simp only [acceptFail, ite_some_eq_none] at ha
  obtain ⟨hl, ht, -⟩ := ha
  cases hf : s.own.offer with
  | none => simp [offerLive, hf] at hl
  | some f =>
    obtain ⟨old, ho⟩ := Option.isSome_iff_exists.1 (h.offer f hf).1
    exact ⟨f, old, rfl, by simpa [hf] using ht, ho⟩

section
variable {s : State} (h : s.own.Sane) (o : Order)
include h

theorem execHandoverOffer_sane : ∃ t, execHandoverOffer o s = .next t ∧ t.own.Sane := by
  refine ⟨_, rfl, runOrder_sane h fun hf => ?_⟩
  obtain ⟨ho, hd, hm, hb, -⟩ := ownership_of_firstFail rfl hf
  refine sane_of_kept (postTo_kept ..) (.of_no_drain hd h.lease ?_ h.range)
  rintro f ⟨⟩
  cases hto : mOf (o.f 0 2) with
  | none => simp [hto] at hm
  | some m =>
    simp only [hto, Bool.or_eq_false_iff, beq_eq_false_iff_ne] at hb
    obtain ⟨⟨⟨hne, -⟩, -⟩, -⟩ := hb
    exact ⟨by simp [ho], hne.symm⟩

theorem execHandoverAccept_sane : ∃ t, execHandoverAccept o s = .next t ∧ t.own.Sane := by
  refine ⟨_, rfl, ?_⟩
  split
  · exact sane_of_kept (complete_kept ..) h
  · split
    · exact sane_of_kept (complete_kept ..) h
    next ha =>
      obtain ⟨f, old, hf, ht, ho⟩ := offer_of_acceptFail h ha
      rw [ho]
      exact sane_of_kept (reply_kept ..) (startAccept_sane h ho hf ht)

theorem execHandoverWithdraw_sane : ∃ t, execHandoverWithdraw o s = .next t ∧ t.own.Sane := by
  refine ⟨_, rfl, runOrder_sane h fun hf => ?_⟩
  obtain ⟨-, hd, -⟩ := ownership_of_firstFail rfl hf
  rw [cancelOffer_own]
  exact h.drop_offer hd

theorem execRelease_sane : ∃ t, execRelease o s = .next t ∧ t.own.Sane := by
  refine ⟨_, rfl, runOrder_sane h fun hf => ?_⟩
  obtain ⟨ho, hd, -⟩ := ownership_of_firstFail rfl hf
  have hc := cancelOffer_own s 3 s.own.owner
  refine startRelease_sane (hc ▸ h.drop_offer hd) ?_ ?_
  · rw [hc]; exact ho
  · rw [hc]

end

/-! The events of ownership (02 R77 to R89) -/

section
variable {s : State} (h : s.own.Sane)
include h

theorem execClaimWrite_sane (m : Master) (v : Word) : ∃ t, execClaimWrite m v s = .next t ∧ t.own.Sane := by
  refine ⟨_, rfl, ?_⟩
  split
  · exact claimWrite_sane h m v
  · exact h

theorem execRenewWrite_sane (m : Master) (v : Word) : ∃ t, execRenewWrite m v s = .next t ∧ t.own.Sane := by
  refine ⟨_, rfl, ?_⟩
  split
  · exact renewWrite_sane h m v
  · exact h

theorem execLeaseLow_sane : ∃ t, execLeaseLow s = .next t ∧ t.own.Sane := by
  refine ⟨_, rfl, ?_⟩
  split
  · split
    · exact sane_of_kept (postTo_kept ..) (h.of_same rfl rfl rfl rfl rfl)
    · exact h
  · exact h

theorem execLeaseExpired_sane : ∃ t, execLeaseExpired s = .next t ∧ t.own.Sane := by
  refine ⟨_, rfl, ?_⟩
  split
  next m hm =>
    split
    next he =>
      have hd : s.own.drain = none := by simp_all [draining]
      refine sane_of_kept ((retryStarts_kept _).trans (coastIfService_kept _))
        (expiryDrain_sane (disown_sane h hd) rfl ?_ m)
      rw [postOwnerChanged_kept, postAll_kept]
      split
      · exact postLapsed_kept ..
      · rfl
    next => exact h
  next => exact h

theorem execExpiryDrainEnd_sane : ∃ t, execExpiryDrainEnd s = .next t ∧ t.own.Sane := by
  refine ⟨_, rfl, ?_⟩
  split
  next old t0 hd =>
    split
    · exact h
    · exact .of_no_drain rfl h.lease h.offer h.range
  next => exact h

theorem execOfferLapsed_sane : ∃ t, execOfferLapsed s = .next t ∧ t.own.Sane := by
  refine ⟨_, rfl, ?_⟩
  split
  next f hf =>
    split
    next hl =>
      rw [cancelOffer_own]
      exact h.drop_offer (by simp_all)
    next => exact h
  next => exact h

theorem execHandoverCut_sane : ∃ t, execHandoverCut s = .next t ∧ t.own.Sane := by
  refine ⟨_, rfl, ?_⟩
  split
  next o old t0 hd =>
    split
    · exact h
    · refine sane_of_kept (s := grant s o.master) ?_ (grant_sane h o.master)
      dsimp only
      split <;> simp
  next => exact h

theorem execReleaseCut_sane : ∃ t, execReleaseCut s = .next t ∧ t.own.Sane := by
  refine ⟨_, rfl, ?_⟩
  split
  next o old t0 hd =>
    split
    · exact h
    · refine sane_of_kept (s := (disown s).updOwn fun w => { w with drain := none }) ?_ (.of_no_drain rfl rfl nofun h.range)
      dsimp only
      split <;> simp
  next => exact h

theorem execRegisterWrite_sane (m : Master) (a : Nat) (ws : List Word) (w : Bool) :
    ∃ t, execRegisterWrite m a ws w s = .next t ∧ t.own.Sane := by
  refine ⟨_, rfl, ?_⟩
  unfold registerWrite
  split
  · exact h
  · have hw := wordWrites_sane m ws a h
    dsimp only
    split <;> exact hw

omit h in
theorem registerReset_sane (s : State) : (registerReset s).own.Sane :=
  sane_of_kept (s := s.updOwn fun _ => OwnSt.reset) (by unfold registerReset; simp) .reset

theorem execSysresetN_sane : ∃ t, execSysresetN s = .next t ∧ t.own.Sane := by
  refine ⟨_, rfl, ?_⟩
  split
  · exact h
  · refine sane_of_kept (s := registerReset (abortStart (busReset s) 3)) ?_ (registerReset_sane _)
    dsimp only
    split <;> simp

omit h in
theorem execVauxPowerUp_sane (straps : BitVec 4) (a b c : Bool) :
    ∃ t, execVauxPowerUp straps a b c s = .next t ∧ t.own.Sane := by
  refine ⟨_, rfl, sane_of_kept (s := vauxOff s) ?_ .reset⟩
  dsimp only
  (repeat' split) <;> simp
end

/-! The step -/

section
variable {s : State} (h : s.own.Sane)
include h

theorem exec_sane_of_untouched {c : Instr} (hc : c.touchesOwnership = false) : ∃ t, exec c s = .next t ∧ t.own.Sane := by
  obtain ⟨t, ht, hk⟩ := exec_kept hc s
  exact ⟨t, ht, sane_of_kept hk h⟩

/-- Of the work orders only the four of the ownership class write the registers. -/
theorem exec_workOrder_sane {c : Instr} {op : Nat} {o : Order} (hc : c.workOrder = some (op, o)) :
    ∃ t, exec c s = .next t ∧ t.own.Sane := by
  cases ht : c.touchesOwnership with
  | false => exact exec_sane_of_untouched h ht
  | true =>
    cases c
    case handoverOffer o => exact execHandoverOffer_sane h o
    case handoverAccept o => exact execHandoverAccept_sane h o
    case handoverWithdraw o => exact execHandoverWithdraw_sane h o
    case release o => exact execRelease_sane h o
    case orderFetch | payloadDmaDone | claimWrite | renewWrite | registerWrite | leaseLow | leaseExpired | expiryDrainEnd |
        offerLapsed | handoverCut | releaseCut | sysresetN | vauxPowerUp | vauxLost => cases hc
    all_goals cases ht

theorem runOpcode_sane (op : BitVec 16) (o : Order) (x : Nat) : ∃ t, runOpcode op o x s = .next t ∧ t.own.Sane := by
  unfold runOpcode
  split
  next e he =>
    obtain ⟨k, hk, hm⟩ := orderTable_commands x e (List.mem_of_find?_eq_some he)
    rw [hm]
    exact exec_workOrder_sane h (hk o)
  next => exact ⟨_, rfl, sane_of_kept (complete_kept ..) h⟩

theorem execOrderFetch_sane (m : Master) (n : Nat) (bits : Option (BitVec 512)) (data : PtrData) (ok : Bool) (x : Nat) :
    ∃ t, execOrderFetch m n bits data ok x s = .next t ∧ t.own.Sane := by
  cases hr : fetchReady s m n with
  | false => exact ⟨s, execOrderFetch_not_ready hr, h⟩
  | true =>
    cases hb : fetchBits s m n bits with
    | none => exact ⟨_, execOrderFetch_failed hr hb, sane_of_kept (ringFault_kept ..) h⟩
    | some w =>
      cases hw : mustWait s (fetchOrder s m n w data ok) (w.extractLsb' 0 16) with
      | true => exact ⟨s, execOrderFetch_waits hr hb hw, h⟩
      | false =>
        rw [execOrderFetch_runs hr hb hw]
        exact runOpcode_sane (sane_of_kept (fetchAdvance_kept ..) h) ..

theorem execPayloadDmaDone_sane (i : Nat) (data : PtrData) : ∃ t, execPayloadDmaDone i data s = .next t ∧ t.own.Sane := by
  unfold execPayloadDmaDone
  split
  next => exact ⟨s, rfl, h⟩
  next e he =>
    split
    next => exact ⟨s, rfl, h⟩
    next =>
      obtain ⟨t, ht, hs⟩ := runOpcode_sane h e.opcode { e.order with data := payloadOf s e.order data } 0
      rw [ht]
      exact ⟨_, rfl, sane_of_kept ((retryStarts_kept _).trans (updHost_kept ..)) hs⟩

/-- Every command answers a next state whose ownership registers are sane where they were. -/
theorem exec_sane (c : Instr) : ∃ t, exec c s = .next t ∧ t.own.Sane := by
  cases ht : c.touchesOwnership with
  | false => exact exec_sane_of_untouched h ht
  | true =>
    cases c
    case handoverOffer | handoverAccept | handoverWithdraw | release => exact exec_workOrder_sane h rfl
    case orderFetch m n bits data ok x => exact execOrderFetch_sane h m n bits data ok x
    case payloadDmaDone i data => exact execPayloadDmaDone_sane h i data
    case claimWrite m v => exact execClaimWrite_sane h m v
    case renewWrite m v => exact execRenewWrite_sane h m v
    case registerWrite m a ws w => exact execRegisterWrite_sane h m a ws w
    case leaseLow => exact execLeaseLow_sane h
    case leaseExpired => exact execLeaseExpired_sane h
    case expiryDrainEnd => exact execExpiryDrainEnd_sane h
    case offerLapsed => exact execOfferLapsed_sane h
    case handoverCut => exact execHandoverCut_sane h
    case releaseCut => exact execReleaseCut_sane h
    case sysresetN => exact execSysresetN_sane h
    case vauxPowerUp straps a b c => exact execVauxPowerUp_sane straps a b c
    case vauxLost => exact ⟨_, rfl, .reset⟩
    all_goals cases ht

end

/-- Settles O6: an idle step leaves the registers alone, and every command keeps them sane. -/
theorem ownershipStaysSane : Obligations.OwnershipStaysSane := by
  intro s t h hst
  unfold step at hst
  split at hst
  next =>
    obtain rfl := Host.Outcome.next.inj hst
    exact sane_of_kept (tick_kept s) h
  next c cs _ =>
    obtain ⟨u, hu, hs⟩ := exec_sane (s := { s with pending := cs }) h c
    rw [hu] at hst
    obtain rfl := Host.Outcome.next.inj hst
    exact hs

end Sys2Proof.Machine
end

section
/-! SUPPORT. A mutating order from a master that is not owner, or of a stale generation, is refused before its mode, its object
and its arguments are looked at (02 R68, R82, R83). -/

namespace Sys2Proof.Machine

/-- NOT_OWNER is the third status tested (02 R68). -/
theorem firstFail_of_notOwner {f : Form} {s : State} {o : Order} (hc : clsOf f.opcode = .mutating)
    (hn : notOwner .mutating s o = true) (k : Checks) :
    ∃ st, firstFail f s o k = some st ∧ (st = stMalformed ∨ st = stUnsupported ∨ st = stNotOwner) := by
  simp only [firstFail, hc, hn, Bool.true_or, if_true]
  split
  · exact ⟨_, rfl, .inl rfl⟩
  · split
    · exact ⟨_, rfl, .inr (.inl rfl)⟩
    · exact ⟨_, rfl, .inr (.inr rfl)⟩

/-- STALE_GENERATION is the fourth (02 R68). -/
theorem firstFail_of_stale {f : Form} {s : State} {o : Order} (hc : clsOf f.opcode = .mutating)
    (hg : o.ownGen ≠ s.own.gen) (k : Checks) :
    ∃ st, firstFail f s o k = some st ∧ (st = stMalformed ∨ st = stUnsupported ∨ st = stNotOwner ∨ st = stStale) := by
  have hr : (Cls.mutating != .read && o.ownGen != s.own.gen) = true := by simp [hg]
  simp only [firstFail, hc, hr, if_true]
  split
  · exact ⟨_, rfl, .inl rfl⟩
  · split
    · exact ⟨_, rfl, .inr (.inl rfl)⟩
    · split
      · exact ⟨_, rfl, .inr (.inr (.inl rfl))⟩
      · exact ⟨_, rfl, .inr (.inr (.inr rfl))⟩

/-- A START is judged in the same order (03 R109). -/
theorem acceptStart_of_notOwner {s : State} {o : Order} (hn : notOwner .mutating s o = true) :
    ∃ st, acceptStart o s = complete s o st 0 ∧ (st = stMalformed ∨ st = stNotOwner) := by
  cases hf : headForm (setForm 0x4301 [0x03] 0 [(0, 1)] modesAll false) o with
  | false => exact ⟨_, by simp [acceptStart, hf], .inl rfl⟩
  | true => exact ⟨_, by simp [acceptStart, hf, hn], .inr rfl⟩

theorem acceptStart_of_stale {s : State} {o : Order} (hg : o.ownGen ≠ s.own.gen) :
    ∃ st, acceptStart o s = complete s o st 0 ∧ (st = stMalformed ∨ st = stNotOwner ∨ st = stStale) := by
  cases hn : notOwner .mutating s o with
  | true =>
    obtain ⟨st, he, hst⟩ := acceptStart_of_notOwner hn
    exact ⟨st, he, hst.imp_right .inl⟩
  | false =>
    cases hf : headForm (setForm 0x4301 [0x03] 0 [(0, 1)] modesAll false) o with
    | false => exact ⟨_, by simp [acceptStart, hf], .inl rfl⟩
    | true => exact ⟨_, by simp [acceptStart, hf, hn, hg], .inr (.inr rfl)⟩

theorem RunsAs.refused {P : Nat → Prop} {op : Nat} {o : Order} {s : State} {r : Host.Outcome State Fault Refusal}
    (hr : RunsAs op o s r) (h : ∀ f k, f.opcode = op → ∃ st, firstFail f s o k = some st ∧ P st) (hw : awaitOf s o = none) :
    ∃ st, r = .next (complete s o st 0) ∧ P st := by
  cases hr with
  | order f k body hop =>
    obtain ⟨st, hf, hp⟩ := h f k hop
    exact ⟨st, by rw [runOrder_refused hf], hp⟩
  | ptr f k k2 body hop =>
    obtain ⟨st, hf, hp⟩ := h f k hop
    exact ⟨st, by rw [runPtr_refused hw hf], hp⟩

/-- A mutating order that both the shared checks and START's own refuse with a status of `P` only completes so. -/
theorem exec_mutating_refused {P : Nat → Prop} {c : Instr} {s : State} {op : Nat} {o : Order}
    (hc : c.workOrder = some (op, o)) (hm : clsOf op = .mutating) (hw : awaitOf s o = none)
    (hs : op = 0x4301 → ∀ m, s.own.owner = some m → mutatingRuns s m = false)
    (h : ∀ f k, clsOf f.opcode = .mutating → ∃ st, firstFail f s o k = some st ∧ P st)
    (hstart : ∃ st, acceptStart o s = complete s o st 0 ∧ P st) : ∃ st, exec c s = .next (complete s o st 0) ∧ P st := by
  by_cases h1 : c = .start o
  · subst h1
    obtain rfl : 0x4301 = op := congrArg Prod.fst (Option.some.inj hc)
    rw [exec_start_of_no_wait (hs rfl)]
    obtain ⟨st, he, hp⟩ := hstart
    exact ⟨st, by rw [he], hp⟩
  · have h2 : c ≠ .handoverAccept o := by
      rintro rfl
      obtain rfl : 0x8202 = op := congrArg Prod.fst (Option.some.inj hc)
      cases hm
    exact (exec_runsAs s hc h1 h2).refused (fun f k hf => h f k (hf ▸ hm)) hw

/-- Settles O10: the owner and the generation are tested before anything of the order's chapter. -/
theorem orderFromNoOwnerHasNoEffect : Obligations.OrderFromNoOwnerHasNoEffect := by
  intro c s op o hc hm hw hs
  refine ⟨fun hn => ?notOwner, fun _ hg => ?stale⟩
  case notOwner =>
    have hno : notOwner .mutating s o = true := by simpa [notOwner] using hn
    refine exec_mutating_refused hc hm hw hs (fun f k hf => firstFail_of_notOwner hf hno k) ?_
    obtain ⟨st, he, hst⟩ := acceptStart_of_notOwner hno
    exact ⟨st, he, hst.imp_right .inr⟩
  case stale =>
    refine exec_mutating_refused hc hm hw hs (fun f k hf => firstFail_of_stale hf hg k) ?_
    obtain ⟨st, he, hst⟩ := acceptStart_of_stale hg
    exact ⟨st, he, hst.imp_right .inr⟩

end Sys2Proof.Machine
end

section
/-! SUPPORT. What the device writes into a master's memory (02 R51, R57, R65, R74): the M0 window, and the entries of
completions and events, whose fields are read back from their bytes. -/

namespace Sys2Proof.Machine

/-! Fields of packed words (00 R9, R10) -/

/-- The fields lie one above the other, from bit `b` on. -/
def fieldsFrom : Nat → List (Nat × Nat × Nat) → Bool
  | _, [] => true
  | b, (lo, len, _) :: fs => decide (b ≤ lo) && fieldsFrom (lo + len) fs

theorem fieldsFrom_cons {b lo len v : Nat} {fs : List (Nat × Nat × Nat)} :
    fieldsFrom b ((lo, len, v) :: fs) = true ↔ b ≤ lo ∧ fieldsFrom (lo + len) fs = true := by
  simp [fieldsFrom]

theorem fieldsFrom_le {b lo len v : Nat} {fs : List (Nat × Nat × Nat)} (h : fieldsFrom b fs = true) (hm : (lo, len, v) ∈ fs) :
    b ≤ lo := by
  induction fs generalizing b with
  | nil => cases hm
  | cons x fs ih =>
    obtain ⟨lo', len', v'⟩ := x
    obtain ⟨hb, hf⟩ := fieldsFrom_cons.1 h
    rcases List.mem_cons.1 hm with he | hm
    · cases he; exact hb
    · have := ih hf hm
      omega

theorem pow_dvd_packN {b : Nat} {fs : List (Nat × Nat × Nat)} (h : fieldsFrom b fs = true) : 2 ^ b ∣ packN fs := by
  induction fs generalizing b with
  | nil => exact Nat.dvd_zero _
  | cons x fs ih =>
    obtain ⟨lo, len, v⟩ := x
    obtain ⟨hb, hf⟩ := fieldsFrom_cons.1 h
    exact Nat.dvd_add (Nat.dvd_mul_left_of_dvd (Nat.pow_dvd_pow 2 hb) _)
      (Nat.dvd_trans (Nat.pow_dvd_pow 2 (Nat.le_add_right_of_le hb)) (ih hf))

/-- What lies below bit `e` does not reach a field from bit `e` on. -/
theorem nfld_add_of_dvd {x y e lo : Nat} (hx : x < 2 ^ e) (hy : 2 ^ e ∣ y) (he : e ≤ lo) (len : Nat) :
    nfld (x + y) lo len = nfld y lo len := by
  obtain ⟨k, rfl⟩ := hy
  have hlo : 2 ^ lo = 2 ^ e * 2 ^ (lo - e) := by rw [← Nat.pow_add, Nat.add_sub_cancel' he]
  have hpos : 0 < 2 ^ e := Nat.two_pow_pos e
  simp only [nfld, hlo, ← Nat.div_div_eq_div_mul, Nat.add_mul_div_left _ _ hpos, Nat.div_eq_of_lt hx, Nat.zero_add,
    Nat.mul_div_cancel_left _ hpos]

theorem nfld_packN {b lo len v : Nat} {fs : List (Nat × Nat × Nat)} (h : fieldsFrom b fs = true) (hm : (lo, len, v) ∈ fs) :
    nfld (packN fs) lo len = v % 2 ^ len := by
  induction fs generalizing b with
  | nil => cases hm
  | cons x fs ih =>
    obtain ⟨lo', len', v'⟩ := x
    obtain ⟨-, hf⟩ := fieldsFrom_cons.1 h
    rcases List.mem_cons.1 hm with he | hm
    · cases he
      obtain ⟨k, hk⟩ := pow_dvd_packN hf
      rw [packN, hk, nfld, Nat.pow_add, Nat.mul_comm (v % _), Nat.mul_assoc, ← Nat.mul_add,
        Nat.mul_div_cancel_left _ (Nat.two_pow_pos lo), Nat.add_mul_mod_self_left, Nat.mod_mod]
    · have hlt : v' % 2 ^ len' * 2 ^ lo' < 2 ^ (lo' + len') := by
        rw [Nat.pow_add, Nat.mul_comm (2 ^ lo')]
        exact Nat.mul_lt_mul_of_pos_right (Nat.mod_lt _ (Nat.two_pow_pos _)) (Nat.two_pow_pos _)
      rw [packN, nfld_add_of_dvd hlt (pow_dvd_packN hf) (fieldsFrom_le hf hm), ih hf hm]

theorem nfld_mod_pow {n lo len : Nat} (h : lo + len ≤ n) (v : Nat) : nfld (v % 2 ^ n) lo len = nfld v lo len := by
  have hn : 2 ^ n = 2 ^ lo * 2 ^ (n - lo) := by rw [← Nat.pow_add]; congr 1; omega
  rw [nfld, hn, Nat.mod_mul_right_div_self, Nat.mod_mod_of_dvd _ (Nat.pow_dvd_pow 2 (by omega))]
  rfl

/-- A field of the bytes of a packed word is the value packed. -/
theorem nfld_bytesLE_packN {n lo len v : Nat} {fs : List (Nat × Nat × Nat)} (hf : fieldsFrom 0 fs = true)
    (hm : (lo, len, v) ∈ fs) (hn : lo + len ≤ 8 * n) : nfld (leNat (bytesLE n (packN fs))) lo len = v % 2 ^ len := by
  rw [leNat_bytesLE, show 256 = 2 ^ 8 from rfl, ← Nat.pow_mul, nfld_mod_pow hn, nfld_packN hf hm]

theorem b2n_mod (b : Bool) : b2n b % 2 ^ 1 = b2n b := by
  cases b <;> rfl

theorem toNat_mod {n : Nat} (w : BitVec n) : w.toNat % 2 ^ n = w.toNat := Nat.mod_eq_of_lt w.isLt

/-! The M0 window (02 R51) -/

/-- Settles O8: the laws of the window's sparse form, for its stores. -/
theorem m0WindowReadsBackWhatIsWritten : Obligations.M0WindowReadsBackWhatIsWritten := by
  refine ⟨?form, ?reads, ?host⟩
  case form =>
    intro s m a bs h
    exact memWrite_m0Wf s m a bs h
  case reads =>
    intro s a bs x h
    exact m0Store_get _ a bs h x
  case host =>
    intro s m a bs x hm
    cases m with
    | h0 | h1 => rfl
    | m0 => exact absurd rfl hm

/-! Completions (02 R57, R65, R66) -/

/-- A state of the same rest is the state with other ports and other acts outside. -/
theorem State.eq_with_of_rest {s t : State} (h : t.rest = s.rest) : ∃ p out, t = { s with host := p, out := out } :=
  ⟨t.host, t.out, congrArg (fun u : State => { u with host := t.host, out := t.out }) h⟩

section
variable {s : State} {o : Order} {st : Nat} (d : Nat)

theorem complete_not_due (h : cmplDue o st = false) : complete s o st d = s := by
  simp [complete, h]

theorem complete_not_ready (h : cmplReady (getRing s o.master (getRing s o.master o.ring).cmpl) = false) :
    complete s o st d = s := by
  simp [complete, h]

variable (hd : cmplDue o st = true) (hr : cmplReady (getRing s o.master (getRing s o.master o.ring).cmpl) = true)
include hd hr

theorem complete_full (hf : ringFull (getRing s o.master (getRing s o.master o.ring).cmpl) = true) :
    complete s o st d =
      s.updHost fun h => { h with held := h.held ++ [⟨o, BitVec.ofNat 16 st, BitVec.ofNat 64 d⟩] } := by
  simp [complete, hd, hr, hf]

theorem complete_written (hf : ringFull (getRing s o.master (getRing s o.master o.ring).cmpl) = false)
    (hh : (s.host.held.any fun h => h.order.master == o.master &&
      (getRing s o.master h.order.ring).cmpl == (getRing s o.master o.ring).cmpl) = false) :
    complete s o st d =
      ringPut s o.master (getRing s o.master o.ring).cmpl o.irq (completionBytes o st d) := by
  simp only [complete, hd, hr, hf, hh, Bool.not_true, Bool.or_self, Bool.false_eq_true, if_false]

end

/-- Settles O12: the cases of `complete`, and the fields of its 16 bytes. -/
theorem completionEntryIsWritten : Obligations.CompletionEntryIsWritten := by
  refine ⟨?frame, ?cases, ?bytes⟩
  case frame =>
    intro s o st d
    exact State.eq_with_of_rest (complete_rest s o st d)
  case cases =>
    rintro s o st d n r rfl rfl
    exact ⟨complete_not_due d, fun _ => complete_not_ready d, complete_full d, complete_written d⟩
  case bytes =>
    intro o st d p
    refine ⟨bytesLE_length .., ?tag, ?status, ?ring, ?phase, ?index, ?data⟩
    case tag => exact (nfld_bytesLE_packN rfl (by simp) (by decide)).trans (toNat_mod o.tag)
    case status => exact nfld_bytesLE_packN rfl (by simp) (by decide)
    case ring => exact nfld_bytesLE_packN rfl (by simp) (by decide)
    case phase => exact (nfld_bytesLE_packN rfl (by simp) (by decide)).trans (b2n_mod p)
    case index => exact (nfld_bytesLE_packN rfl (by simp) (by decide)).trans (toNat_mod o.index)
    case data => exact nfld_bytesLE_packN rfl (by simp) (by decide)

/-! Events (02 R57, R74, R75) -/

theorem postTo_unattached {s : State} {m : Master} (h : attached s m = false) (c ob d : Nat) : postTo s c ob d m = s := by
  simp [postTo, h]

section
variable {s : State} {m : Master} (c ob d : Nat) (ha : attached s m = true)
include ha

theorem postTo_no_ring (hr : eventRing s m = none) :
    postTo s c ob d m =
      (let t := updPort s m fun p => { p with missed := satAdd 8 p.missed 1 }
       if vectorZeroEvent c then fire t m 0 else t) := by
  simp [postTo, ha, hr, raiseZero]

theorem postTo_ring {n : Nat} (hr : eventRing s m = some n) :
    postTo s c ob d m =
      if vectorZeroEvent c then raiseZero s (eventTo s m n c ob d) m else eventTo s m n c ob d := by
  simp [postTo, ha, hr]

end

section
variable {s : State} {m : Master} {n : Nat}

theorem eventTo_full (hf : ringFull (getRing s m n) = true) (c ob d : Nat) :
    eventTo s m n c ob d = updRing s m n fun r =>
      { r with overflow := true, lost := satAdd 16 r.lost 1, evLost := satAdd 16 r.evLost 1 } := by
  simp [eventTo, hf]

theorem eventTo_written (hf : ringFull (getRing s m n) = false) (c ob d : Nat) :
    eventTo s m n c ob d = ringPut s m n false (eventBytes s c ob d) := by
  simp [eventTo, hf]

variable (hr : eventRing s m = some n)
include hr

theorem raiseZero_full (hf : ringFull (getRing s m n) = true) (t : State) : raiseZero s t m = fire t m 0 := by
  simp [raiseZero, hr, hf]

theorem raiseZero_written (hf : ringFull (getRing s m n) = false) (t : State) :
    raiseZero s t m = if (getRing s m n).irqEn = true ∧ ringVector m (getRing s m n) = 0 then t else signal t m 0 := by
  simp [raiseZero, hr, hf]

end

/-- Settles O13: the cases of `postTo`, and the fields of the 32 bytes of an entry. -/
theorem eventEntryIsWritten : Obligations.EventEntryIsWritten := by
  refine ⟨?frame, ?unattached, ?written, ?lost, ?missed, ?missedZero, ?lostZero, ?writtenZero, ?codes, ?bytes⟩
  case frame =>
    intro s c ob d m
    exact State.eq_with_of_rest (postTo_rest s c ob d m)
  case unattached =>
    intro s c ob d m ha
    exact postTo_unattached ha c ob d
  case written =>
    intro s c ob d n m ha hr hv hf
    rw [postTo_ring c ob d ha hr, hv, eventTo_written hf]
    rfl
  case lost =>
    intro s c ob d n m ha hr hv hf
    rw [postTo_ring c ob d ha hr, hv, eventTo_full hf]
    rfl
  case missed =>
    intro s c ob d m ha hr hv
    rw [postTo_no_ring c ob d ha hr, hv]
    rfl
  case missedZero =>
    intro s c ob d m ha hr hv
    rw [postTo_no_ring c ob d ha hr, hv]
    rfl
  case lostZero =>
    intro s c ob d n m ha hr hv hf
    rw [postTo_ring c ob d ha hr, hv, if_pos rfl, raiseZero_full hr hf, eventTo_full hf]
  case writtenZero =>
    intro s c ob d n m ha hr hv hf
    rw [postTo_ring c ob d ha hr, hv, if_pos rfl, raiseZero_written hr hf, eventTo_written hf]
  case codes =>
    intro c
    simp [vectorZeroEvent, or_assoc]
  case bytes =>
    intro s c ob d p
    refine ⟨bytesLE_length .., ?code, ?phase, ?gen, ?dt, ?object, ?data⟩
    case code => exact nfld_bytesLE_packN rfl (by simp) (by decide)
    case phase => exact (nfld_bytesLE_packN rfl (by simp) (by decide)).trans (b2n_mod p)
    case gen => exact (nfld_bytesLE_packN rfl (by simp) (by decide)).trans (toNat_mod s.own.gen)
    case dt => exact (nfld_bytesLE_packN rfl (by simp) (by decide)).trans (toNat_mod (dtWord s.tb.dt))
    case object => exact nfld_bytesLE_packN rfl (by simp) (by decide)
    case data => exact nfld_bytesLE_packN rfl (by simp) (by decide)

end Sys2Proof.Machine
end

section
/-! SUPPORT. What attachment, link, PERST_N and M0's common command codes do (02 R46 to R49; 03 R93, R101; 18 R566): one equation
for each that acts. -/

namespace Sys2Proof.Machine

/-! The host ports -/

section
variable {m : Master} {s : State} (hm : m ≠ .m0)
include hm

theorem exec_perstNAssert : exec (.perstNAssert m) s = .next (portReset s m true) := by
  change execPerstNAssert m s = _
  rw [execPerstNAssert, if_neg hm]

theorem exec_pcieLinkUp (hd : s.mode.mode ≠ .dormant) (hh : m ≠ .h1 ∨ bit s.pin.straps 2 ≠ true) (rate width : Nat) :
    exec (.pcieLinkUp m rate width) s =
      .next (updPort s m fun p => { p with linkUp := true, perst := false, rate := rate % 8, width := width % 8 }) := by
  have hno : ¬(m = .m0 ∨ s.mode.mode = .dormant ∨ m = .h1 ∧ bit s.pin.straps 2 = true) := by
    rintro (h | h | ⟨h1, h2⟩)
    · exact hm h
    · exact hd h
    · exact hh.elim (· h1) (· h2)
  change execPcieLinkUp m rate width s = _
  rw [execPcieLinkUp, if_neg hno]

variable (hl : (s.host.ports.get m).linkUp ≠ false)
include hl

theorem exec_pcieLinkDown : exec (.pcieLinkDown m) s = .next (portReset s m (s.host.ports.get m).perst) := by
  change execPcieLinkDown m s = _
  rw [execPcieLinkDown, if_neg (not_or.2 ⟨hm, hl⟩)]

theorem exec_busMasterEnableSet (c : CfgSpace) : exec (.busMasterEnableSet m c) s = .next (setCfg s m true c) := by
  change execBusMasterEnableSet m c s = _
  rw [execBusMasterEnableSet, if_neg (not_or.2 ⟨hm, hl⟩)]

theorem exec_busMasterEnableClear (c : CfgSpace) : exec (.busMasterEnableClear m c) s = .next (setCfg s m false c) := by
  change execBusMasterEnableClear m c s = _
  rw [execBusMasterEnableClear, if_neg (not_or.2 ⟨hm, hl⟩)]

end

/-! M0's common command codes, while VAUX is present -/

section
variable {s : State} (hv : s.pin.vaux = true)
include hv

theorem exec_rstdaa : exec .rstdaa s = .next (s.updHost fun h => { h with m0Addr := none }) := by
  change execRstdaa s = _
  rw [execRstdaa, if_pos hv]

theorem exec_enec : exec .enec s = .next (s.updHost fun h => { h with m0Ibi := true }) := by
  change execEnec s = _
  rw [execEnec, if_pos hv]

theorem exec_disec : exec .disec s = .next (s.updHost fun h => { h with m0Ibi := false }) := by
  change execDisec s = _
  rw [execDisec, if_pos hv]

/-- An attached M0 answers. -/
theorem m0Answer_attached (ha : s.host.m0Addr.isSome = true) (v : Nat) : m0Answer s v = s.emit (.i3c false v) := by
  simp [m0Answer, hv, ha]

variable (hn : s.host.m0Addr.isNone = true)
include hn

theorem exec_entdaa (a : BitVec 7) : exec (.entdaa a) s = .next (s.updHost fun h => { h with m0Addr := some a }) := by
  change execEntdaa a s = _
  simp [execEntdaa, hv, hn]

theorem exec_setdasa (a : BitVec 7) :
    exec (.setdasa (m0Static s) a) s = .next (s.updHost fun h => { h with m0Addr := some a }) := by
  change execSetdasa (m0Static s) a s = _
  simp [execSetdasa, hv, hn]

end

/-- Settles O34: each by its own equation. -/
theorem portsAndManagementBusTakeEffect : Obligations.PortsAndManagementBusTakeEffect := by
  refine ⟨?perst, ?linkDown, ?linkUp, ?cfgSet, ?cfgClear, ?entdaa, ?setdasa, ?rstdaa, ?getpid, ?getbcr, ?getdcr, ?getstatus,
    ?enec, ?disec⟩
  case perst =>
    intro m s hm
    exact exec_perstNAssert hm
  case linkDown =>
    intro m s hm hl
    exact exec_pcieLinkDown hm hl
  case linkUp =>
    intro m rate width s hm hd hh
    exact exec_pcieLinkUp hm hd hh rate width
  case cfgSet =>
    intro m c s hm hl
    exact exec_busMasterEnableSet hm hl c
  case cfgClear =>
    intro m c s hm hl
    exact exec_busMasterEnableClear hm hl c
  case entdaa =>
    intro a s hv hn
    exact exec_entdaa hv hn a
  case setdasa =>
    rintro target a s hv hn rfl
    exact exec_setdasa hv hn a
  case rstdaa =>
    intro s hv
    exact exec_rstdaa hv
  case getpid | getbcr | getdcr | getstatus =>
    intro s hv ha
    exact congrArg _ (m0Answer_attached hv ha _)
  case enec =>
    intro s hv
    exact exec_enec hv
  case disec =>
    intro s hv
    exact exec_disec hv

end Sys2Proof.Machine
end

section
/-! SUPPORT. The state after reset, and the starts: what the accepted orders of subject 3 do, the steps of a start, and the way
into HALT and out of it (02 Tables 2-6 and 2-18; 03 R94, R97, R102 to R119; 16 R519, R531 to R533). -/

namespace Sys2Proof.Machine

/-! Reset -/

theorem reset_result (m : Master) : State.reset.own.result.get m = 0 := by
  cases m <;> rfl

/-- No ring is stored at reset, so that each reads as Table 2-6 gives it. -/
theorem reset_getRing (m : Master) (n : Nat) : getRing State.reset m n = Ring.reset := rfl

/-- Settles O3: each register by its value, the registers of masters and of rings by their own lemmas. -/
theorem resetStateIsAsTheManualGives : Obligations.ResetStateIsAsTheManualGives :=
  ⟨rfl, rfl, rfl, rfl, rfl, reset_result, rfl, rfl, rfl, rfl, rfl, reset_getRing, rfl, rfl, rfl, rfl, rfl, rfl, rfl, rfl, rfl,
    rfl⟩

/-! START orders (03 R109 to R114) -/

/-- A START of its form from the owner at the current generation, with nothing draining, and no start or HALT entry in
progress (03 R109). -/
structure StartIsFree (o : Order) (s : State) : Prop where
  form : headForm (setForm 0x4301 [0x03] 0 [(0, 1)] modesAll false) o = true
  owner : s.own.owner = some o.master
  drain : s.own.drain = none
  gen : o.ownGen = s.own.gen
  haltEntry : s.mode.haltEntry = false
  active : s.mode.active = false
  pendCold : s.mode.pendCold = none
  restore : s.mode.restore = none

namespace StartIsFree

variable {o : Order} {s : State}

theorem notOwner (h : StartIsFree o s) : notOwner .mutating s o = false := by
  simp [Machine.notOwner, h.owner, h.drain]

theorem exec_eq (h : StartIsFree o s) (hr : mutatingRuns s o.master = false) :
    exec (.start o) s = .next (acceptStart o s) := by
  refine exec_start_of_no_wait fun m hm => ?_
  obtain rfl : o.master = m := Option.some.inj (h.owner.symm.trans hm)
  exact hr

/-- A START that runs cold, ordered so or forced: in HALT it waits for the rails, elsewhere it begins (03 R113, R114). -/
theorem acceptStart_cold (h : StartIsFree o s) (hc : o.b 0 = false ∨ s.mode.forceCold = true) (hd : s.mode.mode ≠ .dormant)
    (hh : s.mode.mode = .halt → haltCause s = false) :
    acceptStart o s =
      if s.mode.mode == .halt then s.updMode fun m => { m with restore := some o, startAt := s.tb.now }
      else beginStart s false (if o.b 0 then 5 else 3) (some o) := by
  have hcause : (s.mode.mode == .halt && haltCause s) = false := by
    rw [Bool.and_eq_false_imp]
    exact fun hm => hh (beq_iff_eq.1 hm)
  rcases hc with hc | hc <;>
    simp [acceptStart, h.form, h.notOwner, h.gen, h.haltEntry, h.active, h.pendCold, h.restore, hc, hd, hcause]

/-- A warm START in SERVICE, or in PREPARE where a warm start failed, of a good committed configuration (03 R109, R111). -/
theorem acceptStart_warm (h : StartIsFree o s) (hw : o.b 0 = true) (hf : s.mode.forceCold = false)
    (hm : s.mode.mode = .service ∨ (s.mode.mode = .prepare ∧ s.mode.warmFailPrepare = true))
    (hv : s.fp.committedValid = true) (hg : s.fp.diverged = false) : acceptStart o s = beginStart s true 4 (some o) := by
  rcases hm with hm | ⟨hm, hp⟩
  · simp [acceptStart, h.form, h.notOwner, h.gen, h.haltEntry, h.active, h.pendCold, h.restore, hw, hf, hm, hv, hg]
  · simp [acceptStart, h.form, h.notOwner, h.gen, h.haltEntry, h.active, h.pendCold, h.restore, hw, hf, hm, hp, hv, hg]

end StartIsFree

/-! The other orders of subject 3 (03 R97, R111, R119) -/

section

variable {o : Order} {s : State}

/-- An accepted order whose effect ends in success completes with its DATA. -/
theorem runOrder_succeeds {f : Form} {u : State} {d : Nat} {c : Checks} {body : State → State × Reply}
    (h : accepted f s o = true) (hc : c.pass = true) (hb : body s = (u, .done stSuccess d)) :
    .next (runOrder f o s c body) = succeeds u o d :=
  congrArg _ (runOrder_gives h hc hb)

theorem exec_readStart (h : accepted (readForm 0x0301 [0x03] 0 [] 0 modesAll) s o = true) :
    exec (.readStart o) s = succeeds s o (modeStatus s + lastStartWord s.mode.last * 2 ^ 32) :=
  runOrder_succeeds h pass_empty rfl

theorem exec_enterService (h : accepted (setForm 0x4302 [0x03] 0 [] [.prepare] false) s o = true) (hr : s.mode.ready = true)
    (hv : s.fp.committedValid = true) : exec (.enterService o) s = succeeds (setMode s .service) o 0 :=
  runOrder_succeeds h (by simp [Checks.pass, hr, hv]) rfl

theorem exec_enterProbe (h : accepted (setForm 0x4303 [0x03] 0 [] modesSet false) s o = true) (hr : s.mode.ready = true) :
    exec (.enterProbe o) s =
      succeeds (discardPackets ((setMode s .probe).updMode fun m => { m with ready := false })) o 0 :=
  runOrder_succeeds h (by simp [Checks.pass, hr]) rfl

end

/-- Settles O16: a START is judged at once, and then is one that runs cold or a warm one. -/
theorem ordersOfStartsTakeEffect : Obligations.OrdersOfStartsTakeEffect := by
  refine ⟨?readStart, ⟨?cold, ?forced, ?warm, ?halt⟩, ?enterService, ?enterProbe⟩
  case readStart =>
    intro o s h
    exact exec_readStart h
  case cold =>
    intro o s hf ho hd hg hr he ha hp hs hc hm hh
    have h : StartIsFree o s := ⟨hf, ho, hd, hg, he, ha, hp, hs⟩
    rw [h.exec_eq hr, h.acceptStart_cold (.inl hc) hm (absurd · hh)]
    simp [hh, hc]
  case forced =>
    intro o s hf ho hd hg hr he ha hp hs hw hc hm hh
    have h : StartIsFree o s := ⟨hf, ho, hd, hg, he, ha, hp, hs⟩
    rw [h.exec_eq hr, h.acceptStart_cold (.inr hc) hm (absurd · hh)]
    simp [hh, hw]
  case warm =>
    intro o s hf ho hd hg hr he ha hp hs hw hc hm hv hg'
    have h : StartIsFree o s := ⟨hf, ho, hd, hg, he, ha, hp, hs⟩
    rw [h.exec_eq hr, h.acceptStart_warm hw hc hm hv hg']
  case halt =>
    intro o s hf ho hd hg hr he ha hp hs hc hm hh
    have h : StartIsFree o s := ⟨hf, ho, hd, hg, he, ha, hp, hs⟩
    rw [h.exec_eq hr, h.acceptStart_cold (.inl hc) (by simp [hm]) fun _ => hh]
    simp [hm]
  case enterService =>
    intro o s h hr hv
    exact exec_enterService h hr hv
  case enterProbe =>
    intro o s h hr
    exact exec_enterProbe h hr

/-! The steps of a running start (03 R102) -/

section

variable {s : State} (ha : s.mode.active = true) (he : s.mode.haltEntry = false)
include ha he

/-- The end of step 8, the lanes' own, in steps 5 to 8: only in step 8 does the sequence move on. -/
theorem exec_startStepDone_lanes (hd : s.mode.laneDone = false) (h5 : 5 ≤ s.mode.step) (h8 : s.mode.step ≤ 8)
    (fail : Option Nat) (cals : List (Nat × LaneCal)) (test : SelfTest) :
    exec (.startStepDone true fail cals test) s =
      let t := (laneWork s cals).updMode fun m => { m with laneDone := true }
      .next (if s.mode.step = 8 then sequenceStep t none test else t) := by
  change execStartStepDone true fail cals test s = _
  simp [execStartStepDone, ha, he, hd, Nat.not_lt.2 h5, Nat.not_lt.2 h8]

/-- The end of the running step of the sequence. -/
theorem exec_startStepDone_sequence (h8 : s.mode.step ≠ 8) (hr : stepReady s = true)
    (fail : Option Nat) (cals : List (Nat × LaneCal)) (test : SelfTest) :
    exec (.startStepDone false fail cals test) s = .next (sequenceStep s fail test) := by
  change execStartStepDone false fail cals test s = _
  simp [execStartStepDone, ha, he, h8, hr]

end

/-! HALT (16 R519, R531 to R533; 06 R214) -/

section

variable {s : State}

theorem exec_crittempTrip (h : awake s = true) :
    exec .crittempTrip s =
      .next (enterHalt (setLatch (s.updRiv fun r =>
        { r with thermtrip := true, thermtripUntil := s.tb.now + 100000000, critCleanSince := none }) 4 false)) := by
  change execCrittempTrip s = _
  simp [execCrittempTrip, h]

theorem exec_haltEntryDone (h : s.mode.haltEntry = true) :
    exec .haltEntryDone s =
      let t := darkLanes (discardPackets (endOrders s dataPlaneOrder))
      let t1 := closeBlock ((t.updTb fun b => { b with ppsOut := false }).updTbl fun x => { x with gone := true }) 5
      let t2 := setMode (t1.updMode fun m => { m with haltEntry := false, ready := false }) .halt
      let t3 := postAll t2 0x1001 0 (packN [(0, 1, b2n t2.riv.flowLatch), (1, 1, b2n t2.riv.trayLatch),
        (2, 1, b2n t2.riv.critLatch), (3, 1, b2n t2.err.fatalLatch)])
      .next (retryStarts t3) := by
  change execHaltEntryDone s = _
  simp only [execHaltEntryDone, h, Bool.not_true, Bool.false_eq_true, if_false]

/-- The first unsigned block of a kind is signed, and the reads that wait for it end. -/
theorem signBlock_of_find {p : Block → Bool} {b : Block} (h : (s.log.blocks.find? fun x => x.sig.isNone && p x) = some b) :
    signBlock s p =
      let sg := ecSign Config.deviceKey (bytesBE 128 b.header.toNat) (fun k => freeNat s / 2 ^ (384 * k)) 4
      let t := s.drawn.updLog fun l =>
        { l with blocks := l.blocks.map fun x => if x.number = b.number then { x with sig := some sg } else x }
      finishReads t.host.running t b.number (blockBytes b sg) := by
  simp only [signBlock, h]

theorem exec_dramSelfRefresh (h : s.mode.mode = .halt) :
    exec .dramSelfRefresh s = .next (s.updPwr fun p => { p with dramSelfRefresh := true }) := by
  change execDramSelfRefresh s = _
  simp [execDramSelfRefresh, h]

theorem exec_haltRailsRestored {o : Order} (h : s.mode.mode = .halt) (hr : s.mode.restore = some o) :
    exec .haltRailsRestored s =
      .next ((beginStart (s.updPwr fun p => { p with dramSelfRefresh := false }) false (if o.b 0 then 5 else 3)
        (some o)).updMode fun m => { m with joined := s.mode.joined }) := by
  change execHaltRailsRestored s = _
  simp only [execHaltRailsRestored, h, hr]

end

/-- Settles O37: the two kinds of a step's end, and each event of HALT, by its own equation. -/
theorem startsAndHaltTakeEffect : Obligations.StartsAndHaltTakeEffect := by
  refine ⟨⟨?step8, ?lanesEarly, ?sequence⟩, ?crittemp, ?haltEntry, ?signed, ?dram, ?rails⟩
  case step8 =>
    rintro lanes fail cals test s t ha he rfl hd h5 h8 hs
    rw [exec_startStepDone_lanes ha he hd h5 h8]
    exact congrArg _ (if_pos hs)
  case lanesEarly =>
    rintro lanes fail cals test s t ha he rfl hd h5 h8 hs
    rw [exec_startStepDone_lanes ha he hd h5 h8]
    exact congrArg _ (if_neg hs)
  case sequence =>
    rintro lanes fail cals test s ha he rfl h8 hr
    exact exec_startStepDone_sequence ha he h8 hr fail cals test
  case crittemp =>
    intro s t h
    exact exec_crittempTrip h
  case haltEntry =>
    intro s
    dsimp only
    exact exec_haltEntryDone
  case signed =>
    intro s b sg t h
    exact congrArg _ (signBlock_of_find h)
  case dram =>
    intro s h
    exact exec_dramSelfRefresh h
  case rails =>
    intro s o joined t h hr
    exact exec_haltRailsRestored h hr

end Sys2Proof.Machine
end

section
/-! SUPPORT. What the accepted orders of subject 4 do (04 R133 to R139, R143, R150 to R156, R159): their checks pass, and the
effect and the reply are the order's own. -/

namespace Sys2Proof.Machine

/-! Accepted orders (02 R64, R68) -/

/-- A chapter's checks pass where each finds nothing; those it leaves out find nothing. -/
theorem Checks.pass_of {c : Checks} (malformed : c.malformed = false := by rfl) (unsupported : c.unsupported = false := by rfl)
    (ownerOnly : c.ownerOnly = false := by rfl) (wrongMode : c.wrongMode = false := by rfl) (version : c.version = none := by rfl)
    (badObject : c.badObject = false := by rfl) (badArgument : c.badArgument = false := by rfl)
    (chapter : c.chapter = none := by rfl) : c.pass = true := by
  simp [Checks.pass, malformed, unsupported, ownerOnly, wrongMode, version, badObject, badArgument, chapter]

section

variable {f : Form} {o : Order} {s u : State} {c : Checks} {body : State → State × Reply}

/-- An accepted order whose effect ends in a result returns it with its DATA (02 R64). -/
theorem runOrder_returns {bs : List Byte} {d : Nat} (h : accepted f s o = true) (hc : c.pass = true)
    (hb : body s = (u, .result bs d)) : .next (runOrder f o s c body) = returns u o bs d :=
  congrArg _ (runOrder_gives h hc hb)

/-- An accepted order that a later command ends goes on running. -/
theorem runOrder_goesOn (h : accepted f s o = true) (hc : c.pass = true) (hb : body s = (u, .later)) :
    .next (runOrder f o s c body) = goesOn u f.opcode o :=
  congrArg _ (runOrder_gives h hc hb)

theorem headForm_of_accepted (h : accepted f s o = true) : headForm f o = true := by
  cases hf : headForm f o with
  | true => rfl
  | false => exact nomatch (firstFail_of_headForm hf s {}).symm.trans (accepted_iff.1 h).1

/-- An order that only ordering code S lacks: there it completes UNSUPPORTED, elsewhere it does `r` (02 R68). -/
theorem runOrder_codeS {r : Host.Outcome State Fault Refusal} (h : accepted f s o = true) (hm : c.malformed = false)
    (hu : c.unsupported = Config.codeS) (hr : Config.codeS = false → .next (runOrder f o s c body) = r) :
    .next (runOrder f o s c body) = if Config.codeS then .next (complete s o stUnsupported 0) else r := by
  split
  next hs =>
    have hf : firstFail f s o c = some stUnsupported := by simp [firstFail, headForm_of_accepted h, hm, hu, hs]
    rw [runOrder_refused hf]
  next hs => exact hr (Bool.eq_false_iff.2 hs)

end

/-- An accepted XP_SET whose lanes can serve in its entry replaces it (04 R151, R153). -/
theorem exec_xpSet {o : Order} {s : State}
    (h : accepted (setForm 0x4407 [0x44] 0xFFF [(0, 320)] [.prepare, .service] true) s o = true) (hr : o.inst / 1024 ≠ 3)
    (hs : (o.inst / 1024 == 2 && Config.codeS) = false) (hsrc : o.inst % 1024 < 544)
    (hd : ((xpDests o).any fun d => decide (544 ≤ d)) = false) (hn : noRepeat (xpDests o) = true)
    (hf : (!(xpDests o).isEmpty && (!xpFree s (o.inst % 1024) (o.inst % 1024) ||
      (xpDests o).any fun d => !xpFree s (o.inst % 1024) d || d == o.inst % 1024)) = false)
    (hc : (match getXp s (o.inst % 1024) with
      | some x => x.rate != o.inst / 1024 && (xpDests o).any fun d => x.dests.contains d
      | none => false) = false) :
    exec (.xpSet o) s = succeeds (xpReplace s (o.inst % 1024) (o.inst / 1024) (xpDests o)) o 0 :=
  runOrder_succeeds h (Checks.pass_of (unsupported := hs)
    (badObject := Bool.or_eq_false_iff.2 ⟨decide_eq_false (Nat.not_le.2 hsrc), beq_eq_false_iff_ne.2 hr⟩)
    (badArgument := Bool.or_eq_false_iff.2 ⟨hd, congrArg not hn⟩)
    (chapter := (if_neg (Bool.eq_false_iff.1 hf)).trans (if_neg (Bool.eq_false_iff.1 hc)))) rfl

/-- Settles O17: each order's checks pass, and its effect is the model's. -/
theorem ordersOfLanesTakeEffect : Obligations.OrdersOfLanesTakeEffect := by
  refine ⟨?readLane, ?readOe, ?eyeScan, ?rawCapture, ?portSet, ?laneSet, ?recalibrate, ?spare, ?unspare, ?oeSet,
    ⟨?xpRemoved, ?xpReplaced⟩, ?elsXfer⟩
  case readLane =>
    intro o s h hl
    exact runOrder_returns h (Checks.pass_of (badObject := hl)) rfl
  case readOe =>
    intro o s h he
    exact runOrder_succeeds h (Checks.pass_of (badObject := decide_eq_false (Nat.not_le.2 he))) rfl
  case eyeScan =>
    intro o s g h hl hh hv hdh hdv hb1 hb2 hfree hn
    refine runOrder_goesOn h (Checks.pass_of (badObject := hl) (badArgument := ?_) (chapter := if_neg ?_)) rfl
    · simp [hh, hv, hdh, hdv, hb1, hb2]
    · simpa [g] using ⟨by simpa using hfree, hn⟩
  case rawCapture =>
    intro o s w h hl h4 hlo hhi hr
    refine runOrder_returns h (Checks.pass_of (badObject := hl) (badArgument := ?_)) rfl
    simp [h4, hlo, hhi, hr, w]
  case portSet =>
    intro o s n w h hn hr hs hc
    exact runOrder_succeeds h (Checks.pass_of (malformed := beq_eq_false_iff_ne.2 hr) (unsupported := hs)
      (badObject := decide_eq_false (Nat.not_le.2 hn)) (chapter := hc)) rfl
  case laneSet =>
    intro o s l h h6 h7 hs hp hl hf hr hc
    exact runOrder_succeeds h (Checks.pass_of (malformed := by simp [h6, h7]) (unsupported := hs) (wrongMode := hp)
      (badObject := hl) (badArgument := Bool.or_eq_false_iff.2 ⟨hf, hr⟩) (chapter := if_neg (Bool.eq_false_iff.1 hc))) rfl
  case recalibrate =>
    intro o s h hl hb ha
    exact runOrder_goesOn h (Checks.pass_of (badObject := hl) (chapter := by simp [hb, ha])) rfl
  case spare =>
    intro o s e h hl hr hb ha
    exact runOrder_codeS h rfl rfl fun hs => runOrder_goesOn h
      (Checks.pass_of (unsupported := hs) (badObject := hl) (chapter := by simp [hr, hb, ha, e])) rfl
  case unspare =>
    intro o s g h he hp hh hr
    exact runOrder_codeS h rfl rfl fun hs => runOrder_goesOn h
      (Checks.pass_of (unsupported := hs) (badObject := decide_eq_false (Nat.not_le.2 he))
        (chapter := if_neg (by simp [g, Option.isNone_eq_false_iff.2 hp, hh, hr]))) rfl
  case oeSet =>
    intro o s e g change sl h he hs hb hc hr
    exact runOrder_succeeds h (Checks.pass_of (unsupported := hs) (badObject := decide_eq_false (Nat.not_le.2 he))
      (badArgument := hb) (chapter := if_neg (Bool.eq_false_iff.1 (Bool.or_eq_false_iff.2 ⟨hc, hr⟩)))) rfl
  case xpRemoved =>
    intro o s src rate ds old h hr hs hsrc hd hn hf hc hds
    exact (exec_xpSet h hr hs hsrc hd hn hf hc).trans (congrArg (succeeds · o 0) (if_pos hds))
  case xpReplaced =>
    intro o s src rate ds old h hr hs hsrc hd hn hf hc hds
    exact (exec_xpSet h hr hs hsrc hd hn hf hc).trans (congrArg (succeeds · o 0) (if_neg (Bool.eq_false_iff.1 hds)))
  case elsXfer =>
    intro o s h h1 h8
    refine (congrArg Host.Outcome.next (runOrder_accepted h (Checks.pass_of (badArgument := ?_)))).trans ?_
    · exact Bool.or_eq_false_iff.2 ⟨decide_eq_false (Nat.not_lt.2 h1), decide_eq_false (Nat.not_lt.2 h8)⟩
    dsimp only
    cases o.data with
    | later => rfl
    | failed => rfl
    | bytes b => rfl
    | dramError a b => rfl
    | held ok b => cases ok <;> rfl

end Sys2Proof.Machine
end

section
/-! SUPPORT. What the events of lanes, lasers, sparing and the crosspoint do (04 R129 to R132, R135, R139 to R147, R154). -/

namespace Sys2Proof.Machine

/-! Calibration (04 R129 to R132) -/

/-- An update of a lane counts for what it makes of the lane as it is. -/
theorem updLane_congr {s : State} {p : Nat} {f g : Lane → Lane} (h : f (getLane s p) = g (getLane s p)) :
    updLane s p f = updLane s p g :=
  congrArg (fun l => s.updOpt fun x => { x with lanes := SMap.put Lane.reset x.lanes p l }) h

/-- A far-end signal is noted, and begins C6 on a lane in use that awaited it (R130). -/
theorem exec_laneSignalPresent {p st : Nat} {s : State}
    (h : (if (getLane s p).role ≠ 0 ∧ (getLane s p).role ≠ 6 ∧ (getLane s p).state = 2 then 3 else (getLane s p).state) = st)
    (power : Int) :
    exec (.laneSignalPresent p power) s =
      .next (refreshLane (updLane s p fun l => { l with signal := true, power := some power, state := st }) p) :=
  congrArg (fun t => Host.Outcome.next (refreshLane t p)) (updLane_congr (by rw [← h]))

/-- C6 ends on a lane that runs it, or on a raw lane out of lock, and is not a sparing's replaced lane (R129). -/
theorem exec_laneAdaptDone {p : Nat} {s : State} (hs : (getEng s (p / 17)).spared ≠ some p)
    (hl : (getLane s p).state = 3 ∨ ((getLane s p).role = 5 ∧ (getLane s p).cdr = false)) (c : LaneCal) :
    exec (.laneAdaptDone p c) s =
      .next (if c.cause ≠ 0 then failLane s p c.cause
        else
          let t := gainCdr (updLane s p fun l => { writeCal s.tb.dt c l with state := readyState l }) p
          if p % 17 = 16 ∧ (getLane s p).role = 2 then updEng t (p / 17) fun g => { g with spareLockSince := some s.tb.now }
          else t) := by
  change execLaneAdaptDone p c s = _
  have hruns : (!((getLane s p).state == 3 || ((getLane s p).role == 5 && !(getLane s p).cdr))) = false := by
    rcases hl with hst | ⟨hr, hcdr⟩
    · simp [hst]
    · simp [hr, hcdr]
  simp only [execLaneAdaptDone, beq_eq_false_iff_ne.2 hs, hruns, Bool.false_eq_true, if_false]

section

variable {s : State} {p : Nat} {c : LaneCal} {l : Lane}

theorem recalibrated_of_awaiting (h : c.awaiting = true) :
    (recalibrated s p c l).cdr = l.cdr ∧ (recalibrated s p c l).state =
      if (recalibrated s p c l).role = 0 then 0 else if (recalibrated s p c l).role = 6 then 5 else 2 := by
  simp [recalibrated, h]

theorem recalibrated_of_not_awaiting (h : c.awaiting = false) :
    (recalibrated s p c l).calValid = (writeCal s.tb.dt c l).calValid ∧
      (recalibrated s p c l).calCheck = (writeCal s.tb.dt c l).calCheck ∧
      (recalibrated s p c l).cdr = (l.cdr || (recalibrated s p c l).role != 0) := by
  simp [recalibrated, writeCal, h]

/-- Only an order's recalibration takes a failed lane back, and not the replaced lane of a sparing (R123, R132, R143). -/
theorem recalibrated_role :
    (recalibrated s p c l).role =
      if l.role = 6 ∧ l.recalOrder = true ∧ (getEng s (p / 17)).spared ≠ some p then (if (portOfPL s p).isSome then 1 else 0)
      else l.role := by
  cases h : c.awaiting <;> simp [recalibrated, writeCal, h, and_assoc]

end

/-- Settles O39: each event by its equation, a recalibrated lane by what it is field by field. -/
theorem lanesTakeEffect : Obligations.LanesTakeEffect := by
  refine ⟨⟨?signalAwaited, ?signalNoted⟩, ⟨?replaced, ?fails, ?spare, ?ready⟩, ?recalibrateDone, ?recalibrated, ?eyeScanPoint,
    ?laserSample⟩
  case signalAwaited =>
    intro p power s l h0 h6 h2
    exact exec_laneSignalPresent (if_pos ⟨h0, h6, h2⟩) power
  case signalNoted =>
    intro p power s l h
    refine (exec_laneSignalPresent (if_neg fun ⟨h0, h6, h2⟩ => ?_) power).trans
      (congrArg (fun t => Host.Outcome.next (refreshLane t p)) (updLane_congr rfl))
    rcases h with h | h | h
    · exact h0 h
    · exact h6 h
    · exact h h2
  case replaced =>
    intro p c s l e hs
    exact congrArg Host.Outcome.next (if_pos (beq_iff_eq.2 hs))
  case fails =>
    intro p c s l e hs hl hc
    exact (exec_laneAdaptDone hs hl c).trans (congrArg Host.Outcome.next (if_pos hc))
  case spare =>
    intro p c s l e hs hl hc hp hr
    exact (exec_laneAdaptDone hs hl c).trans
      (congrArg Host.Outcome.next ((if_neg (not_not_intro hc)).trans (if_pos ⟨hp, hr⟩)))
  case ready =>
    intro p c s l e hs hl hc hpr
    exact (exec_laneAdaptDone hs hl c).trans
      (congrArg Host.Outcome.next ((if_neg (not_not_intro hc)).trans (if_neg (Decidable.not_and_iff_or_not.2 hpr))))
  case recalibrateDone =>
    intro p c s l t1 hr
    exact congrArg Host.Outcome.next (if_neg (by simp [hr]))
  case recalibrated =>
    intro p c s l
    refine ⟨fun ha => ?_, fun ha => ?_, fun h => ?_, fun h6 ho hs => ?_⟩
    · obtain ⟨hcdr, hst⟩ := recalibrated_of_awaiting (s := s) (p := p) (l := l) ha
      exact ⟨hcdr, fun h0 h6 => by rw [hst, if_neg h0, if_neg h6]⟩
    · obtain ⟨hv, hk, hcdr⟩ := recalibrated_of_not_awaiting (s := s) (p := p) (l := l) ha
      exact ⟨hv, hk, fun h0 => by simp [hcdr, h0]⟩
    · rw [recalibrated_role, if_neg]
      rintro ⟨h6, ho, hs⟩
      simp [h6, ho, hs] at h
    · rw [recalibrated_role, if_pos ⟨h6, ho, hs⟩]
  case eyeScanPoint =>
    intro p errors compared s x pt rest recs hx hpts
    change execEyeScanPoint p errors compared s = _
    simp only [execEyeScanPoint, hx, hpts]
    rfl
  case laserSample =>
    intro e power temp s g low high warn hist lowA highA inRange t t1 t2 t3 he
    exact congrArg Host.Outcome.next (if_neg (Nat.not_le.2 he))

/-! Sparing and the crosspoint (04 R139 to R142, R154) -/

section

variable {s : State} {p : Nat} {x : Xp} (hx : getXp s p = some x)
include hx

/-- A crosspoint source is lost: its receiver lets go, and its destinations are squelched if they were not. -/
theorem exec_xpSourceLost :
    exec (.xpSourceLost p) s =
      .next (
        let t := updLane (spoilScans s p) p fun l =>
          { unlockLane s.tb.now l with state := 2, signal := false, power := none }
        if x.squelched then t
        else
          postAll (x.dests.foldl (fun u d => (updLane u d fun l => { l with squelch := true }).emit (.squelch d true))
            (setXp t p (some { x with squelched := true }))) 0x0406 0 (packN [(0, 10, p), (10, 1, 1)])) := by
  change execXpSourceLost p s = _
  simp only [execXpSourceLost, hx]

/-- Squelched destinations transmit again once their source has held lock for 1 ms. -/
theorem exec_xpResume :
    exec (.xpResume p) s =
      .next (
        if !x.squelched || !(getLane s p).cdr || decide (s.tb.now < (getLane s p).cdrAt + 1000000) then s
        else
          postAll (x.dests.foldl (fun u d => (updLane u d fun l => { l with squelch := false }).emit (.squelch d false))
            (setXp s p (some { x with squelched := false }))) 0x0406 0 (packN [(0, 10, p)])) := by
  change execXpResume p s = _
  simp only [execXpResume, hx]

end

/-- Settles O40: each event by the branch of its meaning that acts. -/
theorem sparingAndCrosspointTakeEffect : Obligations.SparingAndCrosspointTakeEffect := by
  refine ⟨?standby, ?lockLost, ?trigger, ?ackTimeout, ⟨?sourceLost, ?sourceLostAgain⟩, ?resumes, ?resumesNot⟩
  case standby =>
    intro e s t g ht hst hnow
    change execSpareStandby e s = _
    simp only [execSpareStandby, show (getEng s e).spareLockSince = some t from ht]
    exact congrArg Host.Outcome.next (if_pos ⟨hst, hnow⟩)
  case lockLost =>
    intro e s g h
    exact congrArg Host.Outcome.next (if_pos h)
  case trigger =>
    intro p cause s n ht hr
    change execSpareTrigger p cause s = _
    cases hs : Config.codeS <;> simp [execSpareTrigger, ht, hr, hs, n]
  case ackTimeout =>
    intro e s h hh hreq hack htaken hnow
    change execSpareAckTimeout e s = _
    simp [execSpareAckTimeout, hh, hreq, hack, htaken, hnow]
  case sourceLost =>
    intro p s x t t1 hx hsq
    exact (exec_xpSourceLost hx).trans (congrArg Host.Outcome.next (if_neg (Bool.eq_false_iff.1 hsq)))
  case sourceLostAgain =>
    intro p s x hx hsq
    exact (exec_xpSourceLost hx).trans (congrArg Host.Outcome.next (if_pos hsq))
  case resumes =>
    intro p s x t1 hx hsq hcdr hnow
    exact (exec_xpResume hx).trans (congrArg Host.Outcome.next (if_neg (by simp [hsq, hcdr, hnow])))
  case resumesNot =>
    intro p s x hx h
    exact (exec_xpResume hx).trans (congrArg Host.Outcome.next (if_pos (by simpa [or_assoc] using h)))

end Sys2Proof.Machine
end

section
/-! SUPPORT. What the accepted orders of subjects 5 and 6 do (05 R175, R186 to R190; 06 R201, R214, R219 to R221): their checks pass,
and the effect and the reply are the order's own. -/

namespace Sys2Proof.Machine

section

variable {o : Order} {s : State}

/-- A held block that is signed is read, unless its memory faults the read; until it is signed the order
runs on (06 R214, R219). -/
theorem exec_readLogBlock {b : Block} (h : accepted (readForm 0x0603 [0x63] 0 [(0, 64)] 262400 modesOn) s o = true)
    (hb : heldBlock s (o.f 0 64) = some b) :
    exec (.readLogBlock o) s =
      match b.sig, logReadError s o with
      | some _, some u => .next (complete u o stDmaError 0)
      | some sg, none => returns s o (blockBytes b sg) s.log.epoch.toNat
      | none, _ => goesOn s 0x0603 o := by
  refine (congrArg Host.Outcome.next (runOrder_accepted h (Checks.pass_of (chapter := by simp [hb])))).trans ?_
  obtain ⟨k, hd, sig, rs, why⟩ := b
  dsimp only
  rw [hb]
  cases sig with
  | none => rfl
  | some sg => cases logReadError s o <;> rfl

/-- LOG_CLOSE closes the open block, or names the last one closed (06 R214, Table 6-12). -/
theorem exec_logClose (h : accepted (setForm 0x4606 [0x63] 0 [] modesOn false) s o = true) :
    exec (.logClose o) s =
      match s.log.fill with
      | some f => succeeds (closeBlock s 3) o f.number
      | none => succeeds s o (lastClosed s.log) := by
  refine (congrArg Host.Outcome.next (runOrder_accepted h pass_empty)).trans ?_
  cases s.log.fill <;> rfl

end

/-- Settles O18: each order's checks pass, and its effect is the model's. -/
theorem ordersOfPcsAndTimebaseTakeEffect : Obligations.OrdersOfPcsAndTimebaseTakeEffect := by
  refine ⟨?readPcs, ?readPm, ?readNeighbour, ?pcsSet, ?defectAck, ?readTb, ?readLtt, ?readLogBlock, ?readCert, ?tbSet, ?tbAdjust,
    ?ptpPortSet, ?lttSet, ?logSet, ?logClose, ?logRelease⟩
  case readPcs =>
    intro o s h hp
    exact runOrder_returns h (Checks.pass_of (badObject := congrArg not hp)) rfl
  case readPm =>
    intro o s first count h hp h1 h97 hlast
    refine runOrder_returns h (Checks.pass_of (badObject := congrArg not hp) (badArgument := ?_)) rfl
    rw [Bool.or_eq_false_iff, Bool.or_eq_false_iff]
    exact ⟨⟨decide_eq_false (Nat.not_lt.2 h1), decide_eq_false (Nat.not_lt.2 h97)⟩, decide_eq_false (Nat.not_lt.2 hlast)⟩
  case readNeighbour =>
    intro o s h hp
    exact runOrder_returns h (Checks.pass_of (badObject := congrArg not hp)) rfl
  case pcsSet =>
    intro o s h hp hb
    exact runOrder_succeeds h (Checks.pass_of (badObject := congrArg not hp) (badArgument := hb)) rfl
  case defectAck =>
    intro o s h hp
    exact runOrder_succeeds h (Checks.pass_of (badObject := congrArg not hp)) rfl
  case readTb =>
    intro o s h
    exact runOrder_returns h pass_empty rfl
  case readLtt =>
    intro o s h hp
    exact runOrder_codeS h rfl rfl fun hs =>
      runOrder_returns h (Checks.pass_of (unsupported := hs) (badObject := congrArg not hp)) rfl
  case readLogBlock =>
    intro o s b h hb
    rw [exec_readLogBlock h hb, logReadError]
    cases b.sig with
    | none => rfl
    | some sg => cases o.data <;> rfl
  case readCert =>
    intro o s h
    exact runOrder_returns h pass_empty rfl
  case tbSet =>
    intro o s h h3 hs hb hn
    exact runOrder_succeeds h (Checks.pass_of (malformed := decide_eq_false (Nat.not_lt.2 h3)) (unsupported := hs)
      (badArgument := hb) (chapter := if_neg (Bool.eq_false_iff.1 hn))) rfl
  case tbAdjust =>
    intro o s k freq off h hf hst hsrc
    exact runOrder_succeeds h (Checks.pass_of (badArgument := Bool.or_eq_false_iff.2 ⟨hf, hst⟩) (chapter := if_neg hsrc)) rfl
  case ptpPortSet =>
    intro o s h h3 hp h1
    exact runOrder_succeeds h (Checks.pass_of (malformed := beq_eq_false_iff_ne.2 h3) (badObject := congrArg not hp)
      (badArgument := decide_eq_false (Nat.not_lt.2 h1))) rfl
  case lttSet =>
    intro o s h hp hn
    exact runOrder_codeS h rfl rfl fun hs => runOrder_succeeds h
      (Checks.pass_of (unsupported := hs) (badObject := congrArg not hp) (chapter := if_neg (by simp [hn]))) rfl
  case logSet =>
    intro o s h hlo hhi hmin hmax
    refine runOrder_succeeds h (Checks.pass_of (badArgument := ?_)) rfl
    simp [hlo, hhi, hmin, hmax]
  case logClose =>
    intro o s h
    exact exec_logClose h
  case logRelease =>
    intro o s h hb
    refine runOrder_succeeds h (Checks.pass_of (chapter := ?_)) rfl
    exact if_neg (by simpa using Option.isSome_iff_ne_none.1 hb)

end Sys2Proof.Machine
end

section
/-! SUPPORT. What the events of the packet path do (05 R171; 07 R223, R235, R253, R254; 09 R334, R338, R343, R344):
the fate of a frame received is said once, and each other event is the branch of its meaning that acts. -/

namespace Sys2Proof.Machine

/-! A frame received (05 R171; 11 R396) -/

section

variable {n : Nat} {f : List Byte} {k syms : Nat} {marked : Bool} {s : State} {started : Nat}
variable (hs : s.tb.now - (s.tb.dt - ingressDt s n k syms) / 65536 = started)
include hs

theorem receiveFrame_unheard (h : heard s n started = .none) : receiveFrame s n f k syms marked = s := by
  simp only [receiveFrame, hs, h]

theorem receiveFrame_lost (h : heard s n started = .lost) :
    receiveFrame s n f k syms marked = discarded s n fun p => { p with discUcw := p.discUcw + 1 } := by
  simp only [receiveFrame, hs, h]

variable (h : heard s n started = .whole)
include h

theorem receiveFrame_discarded {d : PcsPort → PcsPort} (hd : discardOf s n f marked started = some d) :
    receiveFrame s n f k syms marked = discarded s n d := by
  simp only [receiveFrame, hs, h, hd]

variable (hd : discardOf s n f marked started = none)
include hd

theorem receiveFrame_control (hc : isControl f = true) :
    receiveFrame s n f k syms marked = macControl (bwAdd s n false (ingressDt s n k syms) f.length) n f := by
  simp only [receiveFrame, hs, h, hd, hc, if_true]

/-- A frame that is neither discarded, nor MAC Control, nor a probe is accepted with the next number of its port. -/
theorem receiveFrame_accepted (hc : isControl f = false) {t : State}
    (ht : frameEvents (bwAdd s n false (ingressDt s n k syms) f.length) n 0 6 f = t) (hp : probeHit t n f = none) :
    receiveFrame s n f k syms marked =
      t.updFwd fun w =>
        { w with
          arrSeq := SMap.put (fun _ => 0) w.arrSeq n (SMap.get (fun _ => 0) t.fwd.arrSeq n + 1)
          accepted := w.accepted ++
            [⟨n, f, ingressDt s n k syms, SMap.get (fun _ => 0) t.fwd.arrSeq n + 1, !tbLocked t.tb⟩] } := by
  simp only [receiveFrame, hs, h, hd, hc, ht, hp, Bool.false_eq_true, if_false]

end

/-- Settles O45: a frame received by what `heard` and `discardOf` say of it, each other event by the branch that acts. -/
theorem packetPathEventsTakeEffect : Obligations.PacketPathEventsTakeEffect := by
  refine ⟨⟨?unheard, ?lost, ?discarded, ?accepted⟩, ?control, ?ingress, ?store, ?hostCopy, ?gap, ?contextFree, ?marker, ?drainLimit,
    ?markersSent, ⟨?written, ?writeBad⟩, ⟨?resident, ?returned⟩⟩
  case unheard =>
    intro n f k syms marked s started h
    exact congrArg Host.Outcome.next (receiveFrame_unheard rfl h)
  case lost =>
    intro n f k syms marked s started h
    exact congrArg Host.Outcome.next (receiveFrame_lost rfl h)
  case discarded =>
    intro n f k syms marked s d started h hd
    exact congrArg Host.Outcome.next (receiveFrame_discarded rfl h hd)
  case accepted =>
    intro n f k syms marked s inDt started t q h hd hc hp
    exact congrArg Host.Outcome.next (receiveFrame_accepted rfl h hd hc rfl hp)
  case control =>
    intro n f k syms marked s inDt started h hd hc
    exact congrArg Host.Outcome.next ((if_pos hc).trans (receiveFrame_control rfl h hd hc))
  case ingress =>
    intro n s a p t t1 h
    change execPacketIngress n s = _
    simp only [execPacketIngress, h]
    rfl
  case store =>
    intro req upset s w c hw ht
    change execPacketStore req upset s = _
    simp only [execPacketStore, show nextClaim (claimCycle s) req = some w from hw]
    exact congrArg Host.Outcome.next (if_pos ht)
  case hostCopy =>
    intro crcOk u s c cs x t dead r t1 t2 hcs hx
    change execHostSlotWrite crcOk u s = _
    simp only [execHostSlotWrite, hcs, show getStored (s.updFwd fun w => { w with hostCopies := cs }) c.pkt = some x from hx]
    rfl
  case gap =>
    intro sender flow s c since r hc hh ht hs
    change execSprayRxTimeout sender flow s = _
    simp only [execSprayRxTimeout, hc]
    exact congrArg Host.Outcome.next (if_pos (by simpa [hh, hs] using ht))
  case contextFree =>
    intro sender flow s c hc ht
    change execSprayContextFree sender flow s = _
    simp only [execSprayContextFree, hc, ht, if_true]
  case marker =>
    intro s p ps t t1 h
    change execSprayDrainMarkerReceived s = _
    simp only [execSprayDrainMarkerReceived, h]
    rfl
  case drainLimit =>
    intro sender group s
    rfl
  case markersSent =>
    intro g s x t hw hm
    exact congrArg Host.Outcome.next (if_pos ⟨hw, hm⟩)
  case written =>
    intro q crcOk u m s d len t hd hc
    change execOverflowWriteDone q crcOk u m s = _
    simp only [execOverflowWriteDone, hd, hc, if_true]
    rfl
  case writeBad =>
    intro q crcOk u m s d t hd hc
    change execOverflowWriteDone q crcOk u m s = _
    simp only [execOverflowWriteDone, hd, hc, Bool.false_eq_true, if_false]
    rfl
  case resident =>
    intro q fault crcOk upset m s d ds hd hw hr
    change execOverflowReturn q fault crcOk upset m s = _
    simp only [execOverflowReturn, hd, hw, hr, Bool.not_true, Bool.false_eq_true, if_false, if_true]
  case returned =>
    intro q fault crcOk upset m s d ds t0 len out lost hd hw hr hret ht
    change execOverflowReturn q fault crcOk upset m s = _
    simp only [execOverflowReturn, hd, hw, hr, hret, ht, Bool.not_true, bne_self_eq_false, Bool.or_self, Bool.false_eq_true, if_false]
    rfl

end Sys2Proof.Machine
end

section
/-! SUPPORT. What the events of egress do (05 R179; 07 R236, R237; 11 R384 to R390, R396, R398 to R400): whether a gate
list takes over is said once, and each event is the branch of its meaning that acts. -/

namespace Sys2Proof.Machine

/-! Gate lists (11 R388, R390) -/

section

variable {s : State} {n : Nat}

/-- No list takes over before the instant of the pending one (11 R390). -/
theorem takeover_not_due (h : ∀ g, getPend s n = some g → s.tb.dt < g.takeover) : takeover s n = s := by
  unfold takeover
  cases hg : getPend s n with
  | none => rfl
  | some g => exact if_neg (Nat.not_le.2 (h g hg))

/-- A pending list that is due takes over with its event (11 R390). -/
theorem takeover_due {g : Gcl} (hg : getPend s n = some g) (ht : g.takeover ≤ s.tb.dt) :
    takeover s n =
      postAll (updSched (setPend (setOper s n (if g.disable then none else some g)) n none) n fun p => { p with gateIndex := 0 })
        0x0B01 0 (packN [(0, 9, n), (9, 1, b2n g.moved), (10, 1, b2n g.disable), (32, 32, fld (dtWord g.takeover) 16 32)]) := by
  simp only [takeover, hg, ht, if_true]

end

/-- Settles O47: a change of entry meets no list that is due, a takeover one that is; each other event is the branch that
acts. -/
theorem egressEventsTakeEffect : Obligations.EgressEventsTakeEffect := by
  refine ⟨?gate, ?gcl, ?pauseEnds, ?refresh, ?storm, ?restore, ?start, ?ends⟩
  case gate =>
    intro n s h
    change execGateEntryChange n s = _
    rw [execGateEntryChange, takeover_not_due h]
  case gcl =>
    intro n s g t hg ht
    exact congrArg Host.Outcome.next (takeover_due hg ht)
  case pauseEnds =>
    intro n g s h
    exact congrArg Host.Outcome.next (if_pos h)
  case refresh =>
    intro n s hp ht
    exact congrArg Host.Outcome.next (if_pos ⟨hp, ht⟩)
  case storm =>
    intro q s t f
    rfl
  case restore =>
    intro q s hs ht
    exact congrArg Host.Outcome.next (if_pos (by simpa [hs] using ht))
  case start =>
    intro n crcOk u s s1 hf
    exact congrArg Host.Outcome.next (if_neg (by simp [s1, hf]))
  case ends =>
    intro n u s x ended fan t t1 hx he
    change execTransmissionEnd n u s = _
    simp only [execTransmissionEnd, hx]
    exact congrArg Host.Outcome.next (if_neg (by simpa [ended] using he))

end Sys2Proof.Machine
end

section
/-! SUPPORT. What the timebase and the evidence log do (06 R194, R197 to R204, R213 to R220; 15 R475): the idle nanosecond, and
each event by the branch of its meaning that acts. -/

namespace Sys2Proof.Machine

/-! The idle nanosecond (06 R194) -/

@[simp] theorem updTime_tb (s : State) (f : TbSt → TbSt) : (updTime s f).tb = f s.tb := by
  unfold updTime
  dsimp only
  split <;> rfl

@[simp] theorem tbTick_now (b : TbSt) : (tbTick b).now = b.now + 1 := rfl

@[simp] theorem winFlush_tb (s : State) : (winFlush s).tb = s.tb :=
  State.eq_of_rest (winFlush_rest s) State.tb fun _ => rfl

/-- Elapsed time advances in DORMANT, alone, as it does with the timebase running. -/
theorem tick_now (s : State) : (tick s).tb.now = s.tb.now + 1 := by
  rw [tick, winFlush_tb]
  split
  · rfl
  · rw [updTime_tb, tbTick_now]

theorem step_idle {s : State} (h : s.pending = []) : step s = .next (tick s) := by
  simp only [step, h]

/-- Settles O2: the step is the tick, and the tick keeps the queue and the ownership registers. -/
theorem idleStepIsANanosecond : Obligations.IdleStepIsANanosecond := by
  intro s h
  have hk : (tick s).kept = s.kept := tick_kept s
  exact ⟨tick s, step_idle h, tick_now s, (congrArg Prod.snd hk).trans h, congrArg Prod.fst hk⟩

/-! PPS_IN (06 R199) -/

section

variable {s : State} {highNs : Nat} (hd : s.mode.mode ≠ .dormant)
include hd

theorem exec_ppsInEdge_rejected (ha : ppsAccepts s.tb highNs = false) (freq : Int) :
    exec (.ppsInEdge highNs freq) s =
      .next (badSecond (s.updTb fun b =>
        { ppsTouch b with ppsRise := some b.now, ppsSecEdges := (ppsTouch b).ppsSecEdges + 1 })) := by
  change execPpsInEdge highNs freq s = _
  simp only [execPpsInEdge, beq_eq_false_iff_ne.2 hd, ha, Bool.not_false, Bool.true_or, Bool.false_and, Bool.false_eq_true,
    if_true, if_false]

/-- An accepted edge that is the second's second also makes it bad; under source 1 it is an evaluation. -/
theorem exec_ppsInEdge_accepted (ha : ppsAccepts s.tb highNs = true) (freq : Int) :
    exec (.ppsInEdge highNs freq) s =
      let t := s.updTb fun b => { ppsTouch b with ppsRise := some b.now, ppsSecEdges := (ppsTouch b).ppsSecEdges + 1 }
      let u := if 2 ≤ t.tb.ppsSecEdges then badSecond (ppsAccepted t) else ppsAccepted t
      .next (if u.tb.set.source = 1 ∧ qualified u = true then evaluate u (ppsOffset u.tb.dt) freq else u) := by
  change execPpsInEdge highNs freq s = _
  simp only [execPpsInEdge, beq_eq_false_iff_ne.2 hd, ha, Bool.not_true, Bool.false_or, Bool.true_and, Bool.false_eq_true,
    if_true, if_false, decide_eq_true_eq, Bool.and_eq_true, beq_iff_eq]

end

/-! The servo (06 R197, R198, Table 6-4) -/

/-- Locked, the servo slews by the offset, learns the frequency, and re-acquires at the third offset in a row beyond
STEP_THRESHOLD. -/
theorem evaluate_locked {s : State} (hh : servoHeld s = false) (hl : s.tb.servo = .locked) (off freq : Int) :
    evaluate s off freq =
      let f := max (-50000000) (min 50000000 freq)
      let n := if beyondStep s.tb off then s.tb.badRun + 1 else 0
      let t := (s.updTb fun b => { b with offset := off }).updTb fun b =>
        { b with slew := off, badRun := n, freqPpt := f,
                 learned := (b.now, f) :: b.learned.filter fun x => decide (b.now ≤ x.1 + 1000000000000) }
      if 3 ≤ n then setServo t .acquiring else t := by
  have ht : (s.updTb fun b => { b with offset := off }).tb.servo = .locked := hl
  simp only [evaluate, hh, ht, Bool.false_eq_true, if_false]
  rfl

/-! PTP messages (06 R203, R204, Table 6-5; 15 R475) -/

section

variable {s : State} {x : Pkt} {xs : List Pkt} {u : State} (hq : s.fwd.ptpIn = x :: xs)
  (hu : countFlight (finalise (portEvent (s.updFwd fun w => { w with ptpIn := xs }) x.port 60 1) x none 0 Finish.eaten) x.ver 0 1
    = u)
include hq hu

/-- A frame of another PTP version, or on a port that is no PTP port or does not exist, is taken and no more. -/
theorem exec_ptpMessageReceived_ignored
    (h : (getPtp u x.port).role = 0 ∨ portExists u x.port = false ∨ ptpVersion x.frame ≠ 2) (freq : Int) :
    exec (.ptpMessageReceived freq) s = .next u := by
  change execPtpMessageReceived freq s = _
  simp only [execPtpMessageReceived, hq, hu]
  exact congrArg Host.Outcome.next (if_pos (by simpa [or_assoc] using h))

/-- A PTP message goes to the boundary clock, on its port and domain, or to the transparent clock. -/
theorem exec_ptpMessageReceived (hr : (getPtp u x.port).role ≠ 0) (he : portExists u x.port = true)
    (hv : ptpVersion x.frame = 2) (freq : Int) :
    exec (.ptpMessageReceived freq) s =
      .next (if (getPtp u x.port).role = 1 ∧ ptpDomain x.frame = u.tb.set.domain then ptpTake u x.port x.frame x.inDt freq
        else ptpPass u x.port x.frame x.inDt) := by
  change execPtpMessageReceived freq s = _
  simp only [execPtpMessageReceived, hq, hu, hr, he, hv, decide_false, Bool.not_true, bne_self_eq_false, Bool.or_self,
    Bool.false_eq_true, if_false, Bool.and_eq_true, decide_eq_true_eq, beq_iff_eq]

end

section

variable {n : Nat} {s : State} (hp : portFree s n = true)
include hp

theorem exec_ptpMessageTransmit_sync (hc : clearOfProtected s n (psUnits (wirePs s n 64)) = true)
    (hm : ptpState s n = .master) (ht : since s (getPtpRun s n).syncAt 62500000 = true) :
    exec (.ptpMessageTransmit n .sync) s =
      .next (ptpSend (updPtpRun s n fun r => { r with syncSeq := r.syncSeq + 1, syncAt := some s.tb.now }) n
        (syncFrame s n ((getPtpRun s n).syncSeq + 1) s.tb.dt)) := by
  change execPtpMessageTransmit n .sync s = _
  simp [execPtpMessageTransmit, ptpLength, hp, hc, hm, ht]

theorem exec_ptpMessageTransmit_announce (hc : clearOfProtected s n (psUnits (wirePs s n 82)) = true)
    (hm : ptpState s n = .master) (ht : since s (getPtpRun s n).annSent 125000000 = true) :
    exec (.ptpMessageTransmit n .announce) s =
      .next (ptpSend (updPtpRun s n fun r => { r with annSeq := r.annSeq + 1, annSent := some s.tb.now }) n
        (announceFrame s n ((getPtpRun s n).annSeq + 1))) := by
  change execPtpMessageTransmit n .announce s = _
  simp [execPtpMessageTransmit, ptpLength, hp, hc, hm, ht]

theorem exec_ptpMessageTransmit_delayReq (hc : clearOfProtected s n (psUnits (wirePs s n 64)) = true)
    (hm : ptpState s n = .slave) (ht : since s (getPtpRun s n).reqAt 62500000 = true) :
    exec (.ptpMessageTransmit n .delayReq) s =
      .next (ptpSend (updPtpRun s n fun r =>
          { r with reqSeq := r.reqSeq + 1, reqAt := some s.tb.now, req := some (r.reqSeq + 1, s.tb.dt) }) n
        (delayReqFrame s n ((getPtpRun s n).reqSeq + 1))) := by
  change execPtpMessageTransmit n .delayReq s = _
  simp [execPtpMessageTransmit, ptpLength, hp, hc, hm, ht]

theorem exec_ptpMessageTransmit_queued {m : PtpMsg} (hm : (s.tb.ptpOut.find? fun m => m.port == n) = some m)
    (hc : clearOfProtected s n (psUnits (wirePs s n (m.frame.length + 4))) = true) :
    exec (.ptpMessageTransmit n .queued) s =
      .next (ptpSend (s.updTb fun b => { b with ptpOut := b.ptpOut.erase m }) n (passedFrame s m s.tb.dt)) := by
  change execPtpMessageTransmit n .queued s = _
  simp [execPtpMessageTransmit, ptpLength, hp, hc, hm]

end

/-! The outputs and TB_ADJUST (06 R202, R220) -/

theorem exec_ppsOutEdge {s : State} (he : s.tb.set.ppsOutEn = true) (hd : s.mode.mode ≠ .dormant) (hh : s.mode.mode ≠ .halt)
    (hp : ppsPasses s.tb = true) :
    exec .ppsOutEdge s = .next (s.updTb fun b => { b with ppsOut := true, ppsOutEnd := b.now + 1000000 }) := by
  have hr : outputsRun s = true := by simp [outputsRun, hd, hh]
  exact congrArg Host.Outcome.next (if_pos (by simp [he, hr, hp]))

theorem exec_tbAdjustSecondBoundary {s : State} {v sec : Nat} (hs : s.tb.setSec = some (v, sec))
    (hb : sec < s.tb.dt / dtSec) :
    exec .tbAdjustSecondBoundary s =
      .next (stepDtDue (s.updTb fun b => { b with setSec := none }) (v * dtSec + s.tb.dt % dtSec)) := by
  change execTbAdjustSecondBoundary s = _
  simp only [execTbAdjustSecondBoundary, hs, hb, if_true]

/-- Settles O42: each event by the branch of its meaning that acts. -/
theorem timebaseEventsTakeEffect : Obligations.TimebaseEventsTakeEffect := by
  refine ⟨⟨?rejected, ?accepted, ?ppsAccepted⟩, ?badSecond, ?refQualified, ?refLost, ⟨?evaluation, ?locked⟩, ⟨?ignored, ?taken⟩,
    ⟨?sync, ?announce, ?delayReq, ?queued, ?send⟩, ?slaveLost, ?holdover, ?ppsOut, ?boundary, ?slewEnds⟩
  case rejected =>
    intro highNs freq s t hd ha
    exact exec_ppsInEdge_rejected hd ha freq
  case accepted =>
    intro highNs freq s t u hd ha
    exact exec_ppsInEdge_accepted hd ha freq
  case ppsAccepted =>
    intro s
    rfl
  case badSecond =>
    intro s hd ht
    exact congrArg Host.Outcome.next (if_pos ⟨hd, ht⟩)
  case refQualified =>
    intro s hd
    exact congrArg Host.Outcome.next (if_neg (by simp [hd]))
  case refLost =>
    intro s
    rfl
  case evaluation =>
    intro freq s hs hq he
    exact congrArg Host.Outcome.next (if_pos ⟨hs, hq, he⟩)
  case locked =>
    intro off freq s f n t hh hl
    exact evaluate_locked hh hl off freq
  case ignored =>
    intro freq s x xs n u u1 hq h
    exact exec_ptpMessageReceived_ignored hq rfl h freq
  case taken =>
    intro freq s x xs n u u1 hq hr he hv
    exact exec_ptpMessageReceived hq rfl hr he hv freq
  case sync =>
    intro n s r hp hc hm ht
    exact exec_ptpMessageTransmit_sync hp hc hm ht
  case announce =>
    intro n s r hp hc hm ht
    exact exec_ptpMessageTransmit_announce hp hc hm ht
  case delayReq =>
    intro n s r hp hc hm ht
    exact exec_ptpMessageTransmit_delayReq hp hc hm ht
  case queued =>
    intro n s m hp hm hc
    exact exec_ptpMessageTransmit_queued hp hm hc
  case send =>
    intro n f s
    rfl
  case slaveLost =>
    intro s
    rfl
  case holdover =>
    intro s h
    exact congrArg Host.Outcome.next (if_pos h)
  case ppsOut =>
    intro s he hd hh hp
    exact exec_ppsOutEdge he hd hh hp
  case boundary =>
    intro s v sec hs hb
    exact exec_tbAdjustSecondBoundary hs hb
  case slewEnds =>
    intro s ho hs
    exact congrArg Host.Outcome.next (if_pos (by simp [ho, hs]))

/-! The evidence log (06 R213, R214, R216) -/

/-- The log rests 40 ns after a record, then stores the oldest that waits. -/
theorem exec_evidenceRecordStore {s : State} {r : Rec} {rs : List Rec} (hq : s.log.queue = r :: rs)
    (ht : ∀ t, s.log.storedAt = some t → t + 40 ≤ s.tb.now) (m : DramUse) :
    exec (.evidenceRecordStore m) s =
      .next (logStore ((dramUse s 0 m).updLog fun l => { l with queue := rs, storedAt := some s.tb.now }) r) := by
  change execEvidenceRecordStore m s = _
  cases ha : s.log.storedAt with
  | none => simp only [execEvidenceRecordStore, ha, hq]
  | some t => simp only [execEvidenceRecordStore, ha, hq, decide_eq_false (Nat.not_lt.2 (ht t ha))]

theorem exec_blockCloseTimer {s : State} {f : Filling} (hf : s.log.fill = some f) (ht : f.closeAt ≤ s.tb.now) :
    exec .blockCloseTimer s = .next (closeBlock s 2) := by
  change execBlockCloseTimer s = _
  simp only [execBlockCloseTimer, hf, ht, if_true]

theorem signBlock_of_find_none {s : State} {p : Block → Bool}
    (h : (s.log.blocks.find? fun x => x.sig.isNone && p x) = none) : signBlock s p = s := by
  simp only [signBlock, h]

/-- Settles O43: each event by the branch of its meaning that acts, and no block to sign by the signing's other branch. -/
theorem evidenceLogEventsTakeEffect : Obligations.EvidenceLogEventsTakeEffect := by
  refine ⟨?store, ?timer, ?signed, ?noneToSign⟩
  case store =>
    intro m s r rs hq ht
    exact exec_evidenceRecordStore hq ht m
  case timer =>
    intro s f hf ht
    exact exec_blockCloseTimer hf ht
  case signed =>
    intro s b sg t h
    exact congrArg Host.Outcome.next (signBlock_of_find h)
  case noneToSign =>
    intro s h
    exact congrArg Host.Outcome.next (signBlock_of_find_none h)

end Sys2Proof.Machine
end

section
/-! SUPPORT. What the accepted orders of subject 7 do (07 R230 to R232, R239 to R241, R246, R250, R253 to R257, R260, R261;
08 R314 to R316): their checks pass, and the effect and the reply are the order's own. -/

namespace Sys2Proof.Machine

section

variable {o : Order} {s : State}

/-- An accepted order whose payload is here and good, and whose effect ends in success, completes with its DATA. -/
theorem runPtr_succeeds {f : Form} {u : State} {d : Nat} {c1 : Checks} {c2 : List Byte → Checks}
    {body : List Byte → State → State × Reply} {bs : List Byte} (h : accepted f s o = true) (hc : c1.pass = true)
    (hp : payloadHere s o bs = true) (h2 : (c2 bs).pass = true) (hb : body bs s = (u, .done stSuccess d)) :
    .next (runPtr f o s c1 c2 body) = succeeds u o d :=
  congrArg _ (runPtr_gives h hc hp h2 hb)

/-- An accepted order completes at once where `p` holds, and goes on where it does not. -/
theorem runOrder_succeeds_or_goesOn {f : Form} {u v : State} {p : Prop} [Decidable p] {d : Nat} {c : Checks}
    {body : State → State × Reply} (h : accepted f s o = true) (hc : c.pass = true)
    (hb : body s = if p then (u, .done stSuccess d) else (v, .later)) :
    .next (runOrder f o s c body) = if p then succeeds u o d else goesOn v f.opcode o := by
  split
  next hp => exact runOrder_succeeds h hc (hb.trans (if_pos hp))
  next hp => exact runOrder_goesOn h hc (hb.trans (if_neg hp))

end

/-! COMMIT (07 R241, R246) -/

/-- A COMMIT at an instant that can be met, with a version staged and none pending, passes its checks. -/
theorem commit_checks_pass {o : Order} {s : State}
    (hat : o.b 128 = true → dtOk (o.f 129 96) = true ∧ dtCount (o.f 129 96) ≤ s.tb.dt + dtSec)
    (hs : (stagedSeq s).isSome = true) (hp : s.ver.pend = none) :
    Checks.pass
      { badArgument := o.b 128 && (!dtOk (o.f 129 96) || decide (s.tb.dt + dtSec < dtCount (o.f 129 96)))
        chapter := if (stagedSeq s).isNone then some 0x8702 else if s.ver.pend.isSome then some 0x8705 else none } = true := by
  refine Checks.pass_of (badArgument := ?_) (chapter := ?_)
  · rw [Bool.and_eq_false_imp]
    intro hb
    obtain ⟨hok, hle⟩ := hat hb
    simp [hok, hle]
  · simp [Option.isNone_eq_false_iff.2 hs, hp]

/-- A COMMIT of the staged fingerprint, with its bank ready, is pending at its instant (07 R241). -/
theorem exec_commit {o : Order} {s : State} (h : accepted (setForm 0x4705 [0x74] 0 [(0, 227)] modesSet true) s o = true)
    (hat : o.b 128 = true → dtOk (o.f 129 96) = true ∧ dtCount (o.f 129 96) ≤ s.tb.dt + dtSec)
    (hs : (stagedSeq s).isSome = true) (hp : s.ver.pend = none)
    (hfp : stagedFingerprint s (commitBank s o) = BitVec.ofNat 128 (o.f 0 128))
    (hb : ∀ b, commitBank s o = some b → (bankOf s b).state = 2) :
    exec (.commit o) s =
      let early := s.tb.dt + 2 * dtUs
      let tc := if o.b 128 then max (dtCount (o.f 129 96)) early else early
      goesOn (s.updVer fun x =>
        { x with
          pend := some ⟨tc, o.b 128 && tc != dtCount (o.f 129 96), commitBank s o, BitVec.ofNat 128 (o.f 0 128)⟩
          commitDt := tc }) 0x4705 o := by
  refine runOrder_goesOn h (commit_checks_pass hat hs hp) ?_
  dsimp only
  rw [if_neg (not_not_intro hfp), hfp]
  cases hc : commitBank s o with
  | none => rfl
  | some b => exact if_neg (by simp [hb b hc])

/-! SPRAY_GROUP_SET (07 R254) -/

section

variable {o : Order} {s : State}
variable (h : accepted (setForm 0x470A [0x78] 0x3F [(0, 150)] modesSet true) s o = true)
  (hf : (decide (o.f 0 5 ≤ 16) &&
    !onlyFields o.payload.toNat ((0, 6) :: (List.range (min 16 (o.f 0 5))).map fun m => (6 + 9 * m, 9))) = false)
  (h16 : o.f 0 5 ≤ 16) (hd : (sprayMembers o).length ≤ (sprayMembers o).eraseDups.length)
  (hp : ((sprayMembers o).any fun n => !portExists s n) = false) (hw : (getGroup s o.inst).waits = false)

include hf h16 hd hp hw

/-- A SPRAY_GROUP_SET of up to 16 members, all different and of this device, finds nothing wrong while no epoch waits. -/
theorem sprayGroupSet_checks_pass :
    Checks.pass
      { malformed := decide (o.f 0 5 ≤ 16) &&
          !onlyFields o.payload.toNat ((0, 6) :: (List.range (min 16 (o.f 0 5))).map fun m => (6 + 9 * m, 9))
        badArgument := decide (16 < o.f 0 5) || decide ((sprayMembers o).eraseDups.length < (sprayMembers o).length) ||
          (sprayMembers o).any fun n => !portExists s n
        chapter := if (getGroup s o.inst).waits then some 0x8707 else none } = true := by
  refine Checks.pass_of (malformed := hf) (badArgument := ?_) (chapter := if_neg (Bool.eq_false_iff.1 hw))
  rw [Bool.or_eq_false_iff, Bool.or_eq_false_iff]
  exact ⟨⟨decide_eq_false (Nat.not_lt.2 h16), decide_eq_false (Nat.not_lt.2 hd)⟩, hp⟩

include h

theorem exec_sprayGroupSet_same (hs : (getGroup s o.inst).members = sprayMembers o ∧ (getGroup s o.inst).mode = o.b 5) :
    exec (.sprayGroupSet o) s = succeeds s o ((getGroup s o.inst).epoch % 16) :=
  runOrder_succeeds h (sprayGroupSet_checks_pass hf h16 hd hp hw) (if_pos hs)

/-- A group that changes begins a new epoch, and waits for the markers of the members that carried the last one. -/
theorem exec_sprayGroupSet_changed (hs : ¬ ((getGroup s o.inst).members = sprayMembers o ∧ (getGroup s o.inst).mode = o.b 5)) :
    exec (.sprayGroupSet o) s =
      let x := getGroup s o.inst
      let n := x.carried.length
      let t1 := updGroup s o.inst fun y =>
        { y with mode := o.b 5, members := sprayMembers o, epoch := (y.epoch + 1) % 16, last := 15, carried := [], markers := n,
                 waits := n != 0 }
      let t2 := x.carried.foldl (queueMarker o.inst n x.epoch) t1
      if n = 0 then succeeds t2 o ((x.epoch + 1) % 16) else goesOn t2 0x470A o :=
  runOrder_succeeds_or_goesOn h (sprayGroupSet_checks_pass hf h16 hd hp hw) ((if_neg hs).trans (apply_ite (Prod.mk _) _ _ _))

end

/-! DEAL_SET (07 R250) -/

/-- A DEAL_SET that excludes no lathe anew completes; one that does waits for the markers of those lathes. -/
theorem exec_dealSet {o : Order} {s : State} (h : accepted (setForm 0x4708 [0x76] 0x1F [(0, 6), (8, 12)] modesSet true) s o = true)
    (ht : o.f 8 12 ≠ 0) :
    exec (.dealSet o) s =
      let k := o.inst
      let old := (getSlice s k).exclude
      let new := BitVec.ofNat 6 (o.f 0 6)
      let fresh := ((List.range 6).filter fun i => bit new i && !bit old i).map fun i => 6 * k + i
      let t := updSlice s k fun x =>
        { x with exclude := new, timeoutUs := o.f 8 12,
                 dealWaits := if fresh.isEmpty then x.dealWaits else x.dealWaits ++ [⟨fresh, o⟩] }
      if fresh.isEmpty then succeeds t o 0 else goesOn (fresh.foldl (fun u n => pushItem u n .marker) t) 0x4708 o :=
  runOrder_succeeds_or_goesOn h (Checks.pass_of (badArgument := decide_eq_false ht)) rfl

/-- Settles O19: each order's checks pass, and its effect is the model's. -/
theorem ordersOfParsingTakeEffect : Obligations.OrdersOfParsingTakeEffect := by
  refine ⟨?readVersions, ?readParser, ?readStage, ?parserSet, ?portParseSet, ?stageSet, ?stageOpen, ?commit, ?stageDiscard,
    ?readHostmap, ?hostmapSet, ?readSprayRx, ?spraySet, ⟨?groupSame, ?groupChanged⟩, ?readMcast, ?mcastSet, ?dealSet⟩
  case readVersions =>
    intro o s h
    exact runOrder_returns h pass_empty rfl
  case readParser =>
    intro o s h
    exact runOrder_returns h pass_empty rfl
  case readStage =>
    intro o s h hn
    exact runOrder_returns h (Checks.pass_of (badObject := decide_eq_false (Nat.not_lt.2 hn))) rfl
  case parserSet =>
    intro o s d n h hv hb
    exact runOrder_succeeds h (Checks.pass_of (version := hv) (badArgument := hb)) rfl
  case portParseSet =>
    intro o s d n w h hv hlo hhi
    refine runOrder_succeeds h (Checks.pass_of (version := hv) (badArgument := ?_)) rfl
    exact Bool.or_eq_false_iff.2 ⟨decide_eq_false (Nat.not_lt.2 hlo), decide_eq_false (Nat.not_lt.2 hhi)⟩
  case stageSet =>
    intro o s bs d n word h hl hv hn hp hf hb
    exact runPtr_succeeds h
      (Checks.pass_of (malformed := bne_eq_false_iff_eq.2 hl) (version := hv) (badObject := decide_eq_false (Nat.not_lt.2 hn))) hp
      (Checks.pass_of (malformed := congrArg not hf) (version := hv) (badArgument := hb)) rfl
  case stageOpen =>
    intro o s h hs hi
    refine runOrder_succeeds h (Checks.pass_of (chapter := ?_)) rfl
    simp [Bool.eq_false_iff.1 hs, Option.isNone_eq_false_iff.2 hi]
  case commit =>
    intro o s h hat hs hp hfp hb
    exact exec_commit h hat hs hp hfp hb
  case stageDiscard =>
    intro o s h hs hp
    refine runOrder_succeeds h (Checks.pass_of (chapter := ?_)) rfl
    simp [Option.isNone_eq_false_iff.2 hs, Bool.eq_false_iff.1 hp]
  case readHostmap =>
    intro o s h
    exact runOrder_succeeds h pass_empty rfl
  case hostmapSet =>
    intro o s h h3
    exact runOrder_succeeds h (Checks.pass_of (malformed := decide_eq_false h3)) rfl
  case readSprayRx =>
    intro o s h
    exact runOrder_succeeds h pass_empty rfl
  case spraySet =>
    intro o s h h0 h10
    refine runOrder_succeeds h (Checks.pass_of (badArgument := ?_)) rfl
    exact Bool.or_eq_false_iff.2 ⟨decide_eq_false h0, decide_eq_false (Nat.not_lt.2 h10)⟩
  case groupSame =>
    intro o s ms fields h hf h16 hd hp hw hs
    exact exec_sprayGroupSet_same h hf h16 hd hp hw hs
  case groupChanged =>
    intro o s ms fields h hf h16 hd hp hw hs
    exact exec_sprayGroupSet_changed h hf h16 hd hp hw hs
  case readMcast =>
    intro o s h
    exact runOrder_returns h pass_empty rfl
  case mcastSet =>
    intro o s bs h hl hp hf
    exact runPtr_succeeds h (Checks.pass_of (malformed := bne_eq_false_iff_eq.2 hl)) hp
      (Checks.pass_of (malformed := congrArg not hf)) rfl
  case dealSet =>
    intro o s h ht
    exact exec_dealSet h ht

end Sys2Proof.Machine
end

section
/-! SUPPORT. What the commit instant and the tables' own engines do (07 R242, R245; 08 R275, R276, R288 to R294, R307 to R313):
each by the branch of its meaning that acts. -/

namespace Sys2Proof.Machine

/-! Versions (07 R242, R245) -/

section

variable {s : State} {p : PendCommit} {v : Nat} (hp : s.ver.pend = some p) (hv : stagedSeq s = some v) (ht : p.tc ≤ s.tb.dt)
include hp hv ht

/-- A commit that is due takes effect, and the order that waits for it completes. -/
theorem commitTakes_completes {r : Running} (hr : (findRunning (commitNow s p v) 0x4705 fun _ => true) = some r) :
    commitTakes s =
      finishOrder (commitNow s p v) r (if p.moved then 0x0701 else stSuccess)
        (packN [(0, 16, verNum v), (16, 16, verNum (activeSeq s)), (32, 32, fld (dtWord p.tc) 16 32)]) := by
  simp only [commitTakes, hp, hv, hr, if_neg (Nat.not_lt.2 ht)]

theorem commitTakes_alone (hr : (findRunning (commitNow s p v) 0x4705 fun _ => true) = none) :
    commitTakes s = commitNow s p v := by
  simp only [commitTakes, hp, hv, hr, if_neg (Nat.not_lt.2 ht)]

end

theorem exec_versionRetired {s : State} {v : VSlot} (h : s.ver.slots.find? (mayRetire s) = some v) :
    exec .versionRetired s =
      .next (postAll (s.updVer fun x => { x with slots := x.slots.map fun w => if w = v then VSlot.free else w }) 0x0701 0
        (packN [(0, 16, verNum v.seq), (16, 48, s.tb.dt / dtSec)])) := by
  change execVersionRetired s = _
  simp only [execVersionRetired, h]

/-! Copies that no live version sees (08 R275, R276) -/

section

variable {loc : Nat} {s : State}

theorem exec_copyFree_held (h : freeRuns s = false) (mem : Nat) : exec (.copyFree mem loc) s = .next s :=
  congrArg Host.Outcome.next (if_pos (congrArg not h))

variable (hf : freeRuns s = true)
include hf

theorem exec_copyFree_em {c : EmCell} (hc : getEm s loc = some c) (hl : liveSees s c.from_ c.to_ = false) :
    exec (.copyFree 0 loc) s = .next (emStore s loc none) := by
  change execCopyFree 0 loc s = _
  simp only [execCopyFree, hf, hc, hl, Bool.not_true, Bool.false_eq_true, if_false]

theorem exec_copyFree_lpm {e : LpmEnt} (he : lpmAt s loc = some e)
    (hl : e.valid = false ∨ liveSees s e.from_ e.to_ = false) (hm : memLocked s 1 = false) :
    exec (.copyFree 1 loc) s =
      let six := decide (s.tbl.lpm4.length ≤ loc)
      .next (setLpmThrough s six (lpmRemove (lpmList s six) (if six then 262143 - loc / 4 else loc))) := by
  have hseen : (e.valid && liveSees s e.from_ e.to_) = false := Bool.and_eq_false_iff.2 hl
  change execCopyFree 1 loc s = _
  simp only [execCopyFree, hf, he, hseen, hm, Bool.not_true, Bool.or_self, Bool.false_eq_true, if_false]

theorem exec_copyFree_acl {c : AclRow} (hc : getAcl s loc = some c) (hl : liveSees s c.from_ c.to_ = false) :
    exec (.copyFree 2 loc) s = .next (aclStore s loc none) := by
  change execCopyFree 2 loc s = _
  simp only [execCopyFree, hf, hc, hl, Bool.not_true, Bool.false_eq_true, if_false]

theorem exec_copyFree_act {c : ActWord} (hc : getAct s loc = some c) (hl : liveSees s c.from_ c.to_ = false) :
    exec (.copyFree 3 loc) s = .next (actStore s loc none) := by
  change execCopyFree 3 loc s = _
  simp only [execCopyFree, hf, hc, hl, Bool.not_true, Bool.false_eq_true, if_false]

end

/-! Learning and ageing (08 R288, R290 to R292) -/

section

variable {s : State} {r : LearnReq} {rs : List LearnReq} (hq : s.tbl.learnQ = r :: rs)
variable (hr : learnRuns s = true) (ho : ownerAtWork s = false)
include hq hr ho

/-- A request for a key that no live version sees is inserted, or counted where the table has no place; any other is
discarded (08 R288). -/
theorem exec_learnInsert (hm : r.move = false) (hl : memLocked s 0 = false) :
    exec .learnInsert s =
      let t := s.updTbl fun x => { x with learnQ := rs }
      let c : EmCell := ⟨r.table, r.key, learnedAd (learnSet t r.table) r.port, true, 0, 0, none, s.tb.now⟩
      .next (if (liveSeqs t).any fun v => (emFind t r.table v r.key).isSome then t
        else match emInsert t (tableQuota t 1 r.table (activeSeq t)) c with
          | .ok (u, _) => u
          | .error _ => learnDrop t r.table) := by
  have hgo : ¬ ((r.move || memLocked s 0 || !learnRuns s || ownerAtWork s) = true) := by simp [hm, hl, hr, ho]
  change execLearnInsert s = _
  simp only [execLearnInsert, hq]
  exact congrArg Host.Outcome.next (if_neg hgo)

/-- A station that moved has the port of its learned entry replaced (08 R290). -/
theorem exec_stationMove (hm : r.move = true) :
    exec .stationMove s =
      let t := s.updTbl fun x => { x with learnQ := rs }
      .next (match learnedFind t r.table r.key with
        | some (l, c) => emStore t l (some { c with ad := BitVec.ofNat 64 (c.ad.toNat / 512 * 512 + r.port % 512) })
        | none => t) := by
  have hgo : ¬ ((!r.move || !learnRuns s || ownerAtWork s) = true) := by simp [hm, hr, ho]
  change execStationMove s = _
  simp only [execStationMove, hq]
  exact congrArg Host.Outcome.next (if_neg hgo)

end

/-- A visit ages out an entry without a hit since the last, and notes the hits of another (08 R291). -/
theorem exec_agingVisit {l : Nat} {s : State} {c : EmCell} (hc : getEm s l = some c) (hd : ageDue s c = true)
    (hr : ageRuns s = true) (hit : BitVec 4) :
    exec (.agingVisit l hit) s =
      .next (if c.hits = 0 ∧ hit = 0 then emStore (s.updTbl fun x => { x with aged := (x.aged + 1) % 2 ^ 64 }) l none
        else setEm s l (some { c with hits := hit, visit := s.tb.now })) := by
  change execAgingVisit l hit s = _
  simp only [execAgingVisit, hc, hd, hr, Bool.not_true, Bool.or_self, Bool.false_eq_true, if_false]

/-! Repair (08 R309) -/

/-- A repair names four copies and a location there is. -/
theorem repair_named {mem loc : Nat} {quads : List (Option Nat)} (h4 : quads.length = 4) (hl : loc < memLocations mem)
    (hm : mem ≤ 3) : ¬ (quads.length ≠ 4 ∨ memLocations mem ≤ loc ∨ 3 < mem) := by
  rintro (h | h | h)
  · exact h h4
  · exact Nat.not_le.2 hl h
  · exact Nat.not_lt.2 hm h

/-- Settles O44: each event by the branch of its meaning that acts. -/
theorem versionAndTableEventsTakeEffect : Obligations.VersionAndTableEventsTakeEffect := by
  refine ⟨?commit, ?retired, ⟨?em, ?lpm, ?acl, ?act, ?held⟩, ?learn, ?move, ?age, ?flush, ?filled, ?shadowFault, ?compare,
    ⟨?differ, ?agree⟩, ?dumped, ?timeout⟩
  case commit =>
    intro s p v t hp hv ht
    refine congrArg Host.Outcome.next ?_
    split
    next r hr => exact commitTakes_completes hp hv ht hr
    next hr => exact commitTakes_alone hp hv ht hr
  case retired =>
    intro s v h
    exact exec_versionRetired h
  case em =>
    intro loc s c hf hc hl
    exact exec_copyFree_em hf hc hl
  case lpm =>
    intro loc s e six hf he hl hm
    exact exec_copyFree_lpm hf he hl hm
  case acl =>
    intro loc s c hf hc hl
    exact exec_copyFree_acl hf hc hl
  case act =>
    intro loc s c hf hc hl
    exact exec_copyFree_act hf hc hl
  case held =>
    intro mem loc s h
    exact exec_copyFree_held h mem
  case learn =>
    intro s r rs t hq hm hl hr ho
    exact exec_learnInsert hq hr ho hm hl
  case move =>
    intro s r rs t hq hm hr ho
    exact exec_stationMove hq hr ho hm
  case age =>
    intro l hit s c hc hlearned hage hlive hvisit hr hm ho hw
    exact exec_agingVisit hc (by simp [ageDue, hlearned, hage, hlive, hvisit]) (by simp [ageRuns, hr, hm, ho, hw]) hit
  case flush =>
    intro s f fs locs t hf
    change execFlushDone s = _
    simp only [execFlushDone, hf]
    rfl
  case filled =>
    intro s t t1 h
    exact congrArg Host.Outcome.next (if_neg (not_not_intro h))
  case shadowFault =>
    intro cause s on hon hc
    exact congrArg Host.Outcome.next (if_pos (Bool.and_eq_true_iff.2 ⟨hon, by simpa using hc⟩))
  case compare =>
    intro parity differ s k t hm hs
    exact congrArg Host.Outcome.next (if_pos (by simpa [hs] using hm))
  case differ =>
    intro mem loc quads shadow s key qs sh all shadowBad errs rec_ h4 hl hm hd
    refine congrArg Host.Outcome.next ((if_neg (repair_named h4 hl hm)).trans (if_neg ?_))
    rintro ⟨hq, hb, ha⟩
    rcases hd with h | h | h
    · exact h hq
    · exact Bool.false_ne_true (hb.symm.trans h)
    · exact Bool.false_ne_true (h.symm.trans ha)
  case agree =>
    intro mem loc quads shadow s key qs sh all h4 hl hm hq hb ha
    exact congrArg Host.Outcome.next ((if_neg (repair_named h4 hl hm)).trans (if_pos ⟨hq, hb, ha⟩))
  case dumped =>
    intro s d ds h
    change execTableDumpDone s = _
    cases hr : findRunning s 0x0804 (· == d.order) with
    | some r => simp only [execTableDumpDone, h, hr]
    | none => simp only [execTableDumpDone, h, hr]
  case timeout =>
    intro n s d ds t m t1 h ht
    change execDumpTimeout n s = _
    simp only [execDumpTimeout, h]
    exact congrArg Host.Outcome.next (if_neg (Nat.not_lt.2 ht))

end Sys2Proof.Machine
end

section
/-! SUPPORT. What the events of the lathes do (07 R247 to R250; 10 R352, R356, R373 to R376): each by the branch of its meaning
that acts. -/

namespace Sys2Proof.Machine

/-! Dealing (07 R247, R248) -/

section

variable {slice i : Nat} {s : State} {p : Pkt} {ps : List Pkt}

theorem exec_latheDeal_strayed {e : Nat × Dealt} (hs : strayed s slice = some e) (hn : nextLathe s slice = some i) :
    exec (.latheDeal slice) s =
      .next (pushItem (updSlice (updLathe s (6 * slice + e.1) fun l => { l with queue := l.queue.erase (.packet e.2) }) slice
          fun y => { y with last := i })
        (6 * slice + i) (.packet { e.2 with pkt := { e.2.pkt with lathe := i } })) := by
  change execLatheDeal slice s = _
  simp only [execLatheDeal, hs, hn]

theorem exec_latheDeal_admitted (hs : strayed s slice = none) (hn : nextLathe s slice = some i)
    (ha : (getSlice s slice).admission = p :: ps) :
    exec (.latheDeal slice) s = .next (dealTo (updSlice s slice fun y => { y with admission := ps }) slice i p) := by
  change execLatheDeal slice s = _
  simp only [execLatheDeal, hs, hn, ha]

theorem exec_latheDeal_arrived (hs : strayed s slice = none) (hn : nextLathe s slice = some i)
    (ha : (getSlice s slice).admission = []) (hr : (getSlice s slice).arrivals = p :: ps) :
    exec (.latheDeal slice) s = .next (dealTo (updSlice s slice fun y => { y with arrivals := ps }) slice i p) := by
  change execLatheDeal slice s = _
  simp only [execLatheDeal, hs, hn, ha, hr]

/-- With no lathe free an arrival joins the admission queue, or is dropped where that is full (07 R247). -/
theorem exec_latheDeal_no_lathe (hn : nextLathe s slice = none) (hr : (getSlice s slice).arrivals = p :: ps) :
    exec (.latheDeal slice) s =
      let t := updSlice s slice fun y => { y with arrivals := ps }
      .next (if 256 ≤ (getSlice s slice).admission.length then dropUnstored t p 0x82
        else updSlice t slice fun y => { y with admission := y.admission ++ [p] }) := by
  change execLatheDeal slice s = _
  simp only [execLatheDeal, hn, hr]

end

/-! The drain of DEAL_SET (07 R250) -/

/-- A marker at the head of an idle lathe's queue leaves it, and the DEAL_SET that waits for this lathe waits for it no more. -/
theorem exec_dealDrainMarkerDone {k : Nat} {s t : State} {q : List LItem} {w : DealWait}
    (ht : (updLathe s k fun x => { x with queue := q }) = t) (hq : (getLathe s k).queue = .marker :: q)
    (hc : (getLathe s k).cur = none)
    (hw : ((getSlice t (latheSlice k)).dealWaits.find? fun w => w.lathes.contains k) = some w) :
    exec (.dealDrainMarkerDone k) s =
      .next (if (w.lathes.erase k).isEmpty then
          finishThis (updSlice t (latheSlice k) fun x => { x with dealWaits := x.dealWaits.erase w }) 0x4708 w.order stSuccess 0
        else updSlice t (latheSlice k) fun x =>
          { x with dealWaits := x.dealWaits.replace w { w with lathes := w.lathes.erase k } }) := by
  change execDealDrainMarkerDone k s = _
  simp only [execDealDrainMarkerDone, hq, hc, Option.isSome_none, Bool.false_eq_true, if_false, ht, hw]

/-! A bank's load (10 R356) -/

theorem exec_imageLoadDone {b ok : Bool} {s : State} {r : Running} {bs : List Byte}
    (hr : (findRunning s 0x4A01 fun o => orderBank o == b) = some r) (hd : r.order.data = .bytes bs) :
    exec (.imageLoadDone b ok) s =
      .next (if ok then
          finishOrder (postBank (bankElementChange (updBank s b fun _ => imageBank bs) b 0 (imageDigest bs)) b 2) r stSuccess
            (leNat ((bytesBE 32 (imageDigest bs).toNat).take 8))
        else finishOrder (postBank (updBank s b fun x => { x with state := 3 }) b 3) r 0x8A07 0) := by
  change execImageLoadDone b ok s = _
  simp only [execImageLoadDone, hr, hd]

/-! A lathe's restore (10 R376) -/

section

variable {k res : Nat} {s : State} {r : Running}
variable (hr : (findRunning s 0x4A05 fun o => o.inst == k) = some r) (ht : (getLathe s k).testing = true)
include hr ht

/-- A restore under test readmits the lathe where the test passed and the store's signature agrees, else it fails. -/
theorem exec_latheRestoreDone :
    exec (.latheRestoreDone k res) s =
      let t := updLathe s k fun l => loadBoth { marched s.freeCtr l with iso := 0, testing := false, recent := [] }
      let t1 := { t with freeCtr := t.freeCtr + 8224 }
      let t2 := t1.updLat fun x => { x with isoRegs := x.isoRegs &&& ~~~(BitVec.ofNat 192 (2 ^ k)) }
      let failed := updLathe s k fun l => { l with testing := false }
      .next (if res = 0 ∧ mandrelSignature = Config.fusedSignature then finishOrder (postIso t2 k 0 false) r stSuccess 0
        else finishOrder (if res = 3 then testCheck failed k else failed) r (if res = 2 then 0x8A07 else 0x8A06) 0) := by
  change execLatheRestoreDone k res s = _
  simp only [execLatheRestoreDone, hr, ht, Bool.not_true, Bool.false_eq_true, if_false]

/-- A restore whose test passed is settled by the store's signature alone. -/
theorem exec_latheRestoreDone_passed :
    exec (.latheRestoreDone k 0) s =
      let t := updLathe s k fun l => loadBoth { marched s.freeCtr l with iso := 0, testing := false, recent := [] }
      let t1 := { t with freeCtr := t.freeCtr + 8224 }
      let t2 := t1.updLat fun x => { x with isoRegs := x.isoRegs &&& ~~~(BitVec.ofNat 192 (2 ^ k)) }
      let failed := updLathe s k fun l => { l with testing := false }
      .next (if mandrelSignature = Config.fusedSignature then finishOrder (postIso t2 k 0 false) r stSuccess 0
        else finishOrder failed r 0x8A06 0) := by
  rw [exec_latheRestoreDone hr ht]
  by_cases hs : mandrelSignature = Config.fusedSignature
  · exact congrArg Host.Outcome.next ((if_pos ⟨rfl, hs⟩).trans (if_pos hs).symm)
  · exact congrArg Host.Outcome.next ((if_neg fun h => hs h.2).trans (if_neg hs).symm)

theorem exec_latheRestoreDone_failed (h : res ≠ 0) :
    exec (.latheRestoreDone k res) s =
      let failed := updLathe s k fun l => { l with testing := false }
      .next (finishOrder (if res = 3 then testCheck failed k else failed) r (if res = 2 then 0x8A07 else 0x8A06) 0) :=
  (exec_latheRestoreDone hr ht).trans (congrArg Host.Outcome.next (if_neg fun x => h x.1))

end

/-! A bank's reload in a slice (10 R375) -/

/-- The lathes of a slice after a bank's reload: one whose load is bad is isolated, each other goes on with the bank. -/
def redirected (s : State) (slice : Nat) (bad : BitVec 6) (b : Bool) : State :=
  (List.range 6).foldl (fun u i =>
    if bit bad i then
      isolateLathe (latheDrop (updLathe u (6 * slice + i) fun l => { l with redirect := none }) (6 * slice + i) 0xA3)
        (6 * slice + i) 1
    else updLathe u (6 * slice + i) (reloaded b)) (updSlice s slice fun x => { x with reload := none })

theorem exec_latheRedirectDone {slice : Nat} {bad : BitVec 6} {s : State} {b : Bool} {o : Option Order} :
    (getSlice s slice).reload = some (b, o) →
    exec (.latheRedirectDone slice bad) s =
      let t := redirected s slice bad b
      .next (if bad = 0 ∧ b = false then beginReload t slice true o
        else match o with
          | some r => finishThis t 0x4A06 r (if bad = 0 then stSuccess else 0x8A07) 0
          | none => t) := by
  intro h
  change execLatheRedirectDone slice bad s = _
  simp only [execLatheRedirectDone, h]
  rfl

/-! Recovery from a machine check (10 R373, R374) -/

/-- A recovery that no reload of its slice holds up ends: on causes 4 to 6 with the lathe isolated, else well. -/
theorem exec_mcheckRecoveryDone {k cause : Nat} {s : State} {r : Recovery} (hr : (getLathe s k).recovery = some r)
    (hb : r.boot = true ∨ reloading s k (!r.bank) = false) :
    exec (.mcheckRecoveryDone k cause) s =
      let g := groupOfSlice (latheSlice k)
      let failed := updLathe (recordError s g 0x06 k 2 4 (packN [(0, 3, cause), (3, 1, b2n r.bank), (4, 13, r.word)])) k fun y =>
        { y with mchecks := y.mchecks + 1, lastMcheckDt := s.tb.dt }
      let outcome := if r.boot then 2 else 1
      let well := updLathe s k fun y =>
        if r.boot then { loadBoth y with recovery := none }
        else
          let y := setCs { y with recovery := none, flips := y.flips.filter fun e => e.1 / 8192 != b2n r.bank } r.bank true
          if r.bank then { y with digestB := y.digestA } else { y with digestA := y.digestB }
      .next (if 4 ≤ cause ∧ cause ≤ 6 then injectDone (isolateLathe (postMcheck failed k cause 3 r.bank r.word) k 1) k 3
        else injectDone (postMcheck (recoverError well g 0x06 k 0 1) k r.cause outcome r.bank r.word) k outcome) := by
  have hf : ¬ ((!r.boot && reloading s k (!r.bank)) = true) := by
    rcases hb with hb | hb <;> simp [hb]
  change execMcheckRecoveryDone k cause s = _
  simp only [execMcheckRecoveryDone, hr, if_neg hf]

/-- Settles O46: each event by the branch of its meaning that acts. -/
theorem latheEventsTakeEffect : Obligations.LatheEventsTakeEffect := by
  refine ⟨⟨?strayed, ?admitted, ?arrived, ?queued, ?full⟩, ⟨?drained, ?draining⟩, ?release, ?skip, ⟨?loaded, ?notLoaded⟩,
    ⟨?restored, ?restoreFails⟩, ⟨?reloadB, ?reloadEnds⟩, ⟨?isolated, ?recovered⟩⟩
  case strayed =>
    intro slice i s e t hs hn
    exact exec_latheDeal_strayed hs hn
  case admitted =>
    intro slice i s p ps hs hn ha
    exact exec_latheDeal_admitted hs hn ha
  case arrived =>
    intro slice i s p ps hs hn ha hr
    exact exec_latheDeal_arrived hs hn ha hr
  case queued =>
    intro slice s p ps hn hl hr
    exact (exec_latheDeal_no_lathe hn hr).trans (congrArg Host.Outcome.next (if_neg (Nat.not_le.2 hl)))
  case full =>
    intro slice s p ps hn hl hr
    exact (exec_latheDeal_no_lathe hn hr).trans (congrArg Host.Outcome.next (if_pos hl))
  case drained =>
    intro k s q w l slice t w' hq hc hw he
    exact (exec_dealDrainMarkerDone rfl hq hc hw).trans (congrArg Host.Outcome.next (if_pos he))
  case draining =>
    intro k s q w l slice t w' hq hc hw he
    exact (exec_dealDrainMarkerDone rfl hq hc hw).trans (congrArg Host.Outcome.next (if_neg (Bool.eq_false_iff.1 he)))
  case release =>
    intro slice bucket s at_ seq k p os t t1 ho he
    change execLatheResultRelease slice bucket s = _
    simp only [execLatheResultRelease, ho, he, Bool.false_eq_true, if_false]
    rfl
  case skip =>
    intro slice bucket s q at_ k os x recent first t t1 t2 ho ht
    change execLatheTimeoutSkip slice bucket s = _
    simp only [execLatheTimeoutSkip, ho]
    exact congrArg Host.Outcome.next (if_neg (Nat.not_le.2 ht))
  case loaded =>
    intro b ok s r bs hr hd hok
    exact (exec_imageLoadDone hr hd).trans (congrArg Host.Outcome.next (if_pos hok))
  case notLoaded =>
    intro b ok s r bs hr hd hok
    exact (exec_imageLoadDone hr hd).trans (congrArg Host.Outcome.next (if_neg (Bool.eq_false_iff.1 hok)))
  case restored =>
    intro k res s r t t1 t2 failed hr ht h0
    subst h0
    exact exec_latheRestoreDone_passed hr ht
  case restoreFails =>
    intro k res s r t hr ht h
    exact exec_latheRestoreDone_failed hr ht h
  case reloadB =>
    intro slice bad s b o t h hbad hb
    exact (exec_latheRedirectDone h).trans (congrArg Host.Outcome.next (if_pos ⟨hbad, hb⟩))
  case reloadEnds =>
    intro slice bad s b o t h hne
    exact (exec_latheRedirectDone h).trans (congrArg Host.Outcome.next (if_neg fun h => hne.elim (absurd h.1) (absurd h.2)))
  case isolated =>
    intro k cause s r l g t t1 hr hb h4 h6
    exact (exec_mcheckRecoveryDone hr hb).trans (congrArg Host.Outcome.next (if_pos ⟨h4, h6⟩))
  case recovered =>
    intro k cause s r l g outcome t t1 hr hb hc
    exact (exec_mcheckRecoveryDone hr hb).trans (congrArg Host.Outcome.next (if_neg (by omega)))

end Sys2Proof.Machine
end

section
/-! SUPPORT. The listed entries of a sparse map in canonical form: they are what it reads as other than its default, by rising
key, so that the first one to pass a test is the one of the lowest key. -/

namespace Sys2Proof.SMap

variable {α : Type} [DecidableEq α] {d : Nat → α}

/-- A map in canonical form above `lo` lists only keys above it. -/
theorem lt_of_mem {m : SMap α} {lo j : Nat} {v : α} (h : wfFrom d (some lo) m = true) (hm : (j, v) ∈ m) : lo < j := by
  induction m generalizing lo with
  | nil => cases hm
  | cons e m ih =>
    obtain ⟨i, w⟩ := e
    obtain ⟨hlo, -, ht⟩ := wfFrom_cons.1 h
    have hi := hlo lo rfl
    rcases List.mem_cons.1 hm with he | hm
    · cases he; exact hi
    · exact Nat.lt_trans hi (ih ht hm)

theorem pairwise_keys {m : SMap α} {lo : Option Nat} (h : wfFrom d lo m = true) : m.Pairwise fun a b => a.1 < b.1 := by
  induction m generalizing lo with
  | nil => exact .nil
  | cons e m ih => exact .cons (fun _ hm => lt_of_mem (wf_tail h) hm) (ih (wf_tail h))

theorem mem_iff_get {m : SMap α} {lo : Option Nat} {k : Nat} {v : α} (h : wfFrom d lo m = true) :
    (k, v) ∈ m ↔ get d m k = v ∧ v ≠ d k := by
  induction m generalizing lo with
  | nil => exact ⟨fun hm => (List.not_mem_nil hm).elim, fun ⟨hg, hv⟩ => (hv hg.symm).elim⟩
  | cons e m ih =>
    obtain ⟨j, w⟩ := e
    obtain ⟨-, hw, ht⟩ := wfFrom_cons.1 h
    by_cases hk : k = j
    · subst hk
      have hn : (k, v) ∉ m := fun hm => Nat.lt_irrefl k (lt_of_mem ht hm)
      simp only [List.mem_cons, hn, or_false, get, if_true, Prod.mk.injEq, true_and]
      exact ⟨fun he => ⟨he.symm, he ▸ hw⟩, fun he => he.1.symm⟩
    · simp only [List.mem_cons, Prod.mk.injEq, hk, false_and, false_or, get, if_false]
      exact ih ht

/-- The first listed entry to pass a test is the one of the lowest key. -/
theorem find?_eq_some_iff {m : SMap α} {lo : Option Nat} {k : Nat} {v : α} {p : Nat × α → Bool} (h : wfFrom d lo m = true) :
    m.find? p = some (k, v) ↔ p (k, v) = true ∧ (k, v) ∈ m ∧ ∀ j w, j < k → (j, w) ∈ m → p (j, w) = false := by
  have hs := pairwise_keys h
  rw [List.find?_eq_some_iff_append]
  refine and_congr_right fun _ => ⟨?_, ?_⟩
  · rintro ⟨as, bs, rfl, has⟩
    refine ⟨List.mem_append_right _ List.mem_cons_self, fun j w hj hm => ?_⟩
    rcases List.mem_append.1 hm with hm | hm
    · simpa using has _ hm
    · rcases List.mem_cons.1 hm with he | hm
      · cases he; exact (Nat.lt_irrefl _ hj).elim
      · exact (Nat.lt_asymm hj (List.rel_of_pairwise_cons (List.pairwise_append.1 hs).2.1 hm)).elim
  · rintro ⟨hm, hlow⟩
    obtain ⟨as, bs, rfl⟩ := List.append_of_mem hm
    refine ⟨as, bs, rfl, fun ⟨j, w⟩ ha => ?_⟩
    have hj : j < k := (List.pairwise_append.1 hs).2.2 _ ha _ List.mem_cons_self
    simpa using hlow j w hj (List.mem_append_left _ ha)

end Sys2Proof.SMap
end

section
/-! SUPPORT. The forwarding tables: what an ACL lookup returns (08 R299, R300, R310) and what LEARN_INSERT writes (R288,
R289). -/

namespace Sys2Proof.Machine

/-! The ACL lookup -/

/-- Row `r` at index `i` answers a lookup of `key` in `table` by version `v` (08 R299, R300, R310). -/
def aclAdmits (s : State) (table v kb : Nat) (key : BitVec 640) (i : Nat) (r : AclRow) : Bool :=
  r.table == table && sees v r.from_ r.to_ && (((key ^^^ r.key) &&& r.mask) >>> (640 - kb) == 0) && !unreadable s 2 i

/-- A listed entry holds a row that answers the lookup. -/
def aclHit (s : State) (table v kb : Nat) (key : BitVec 640) (kv : Nat × Option AclRow) : Bool :=
  kv.2.any (aclAdmits s table v kb key kv.1)

theorem sees_iff {v a : Nat} {b : Option Nat} : sees v a b = true ↔ a ≤ v ∧ ∀ t, b = some t → v < t := by
  cases b <;> simp [sees]

/-- No bit is left of a shift right exactly where the bits it keeps, the first ones, are all zero. -/
theorem ushiftRight_eq_zero_iff {n k : Nat} (hk : k ≤ n) (x : BitVec n) :
    x >>> (n - k) = 0 ↔ ∀ i, i < k → x.getMsbD i = false := by
  constructor
  · intro h i hi
    have hb : (x >>> (n - k)).getMsbD (i + (n - k)) = false := by rw [h]; exact BitVec.getMsbD_zero
    simpa [BitVec.getMsbD_ushiftRight, show i + (n - k) < n by omega] using hb
  · intro h
    refine BitVec.eq_of_getMsbD_eq fun i hi => ?_
    have hb : ¬ i < n - k → x.getMsbD (i - (n - k)) = false := fun hn => h _ (by omega)
    simpa [BitVec.getMsbD_ushiftRight] using fun _ hn => hb (Nat.not_lt.2 hn)

/-- A masked comparison of the first `k` bits finds no difference exactly where the two agree wherever the mask is 1. -/
theorem masked_eq_iff {n k : Nat} (hk : k ≤ n) (x y m : BitVec n) :
    ((x ^^^ y) &&& m) >>> (n - k) = 0 ↔ ∀ i, i < k → m.getMsbD i = true → x.getMsbD i = y.getMsbD i := by
  rw [ushiftRight_eq_zero_iff hk]
  refine forall₂_congr fun i _ => ?_
  rw [BitVec.getMsbD_and, BitVec.getMsbD_xor]
  cases m.getMsbD i <;> simp

theorem aclAdmits_iff {kb : Nat} (hk : kb ≤ 640) (s : State) (table v : Nat) (key : BitVec 640) (i : Nat) (r : AclRow) :
    aclAdmits s table v kb key i r = true ↔
      unreadable s 2 i = false ∧ r.table = table ∧ r.from_ ≤ v ∧ (∀ t, r.to_ = some t → v < t) ∧
        ∀ b, b < kb → r.mask.getMsbD b = true → key.getMsbD b = r.key.getMsbD b := by
  rw [← masked_eq_iff hk, ← and_assoc (a := r.from_ ≤ v), ← sees_iff]
  simp only [aclAdmits, Bool.and_eq_true, beq_iff_eq, Bool.not_eq_true']
  rw [and_comm (b := unreadable s 2 i = false), and_assoc]

section

variable {s : State} {table v kb : Nat} {key : BitVec 640}

theorem aclFind_eq_find? :
    aclFind s table v kb key = (s.tbl.acl.find? (aclHit s table v kb key)).bind fun kv => kv.2 := by
  unfold aclFind
  congr 2
  funext ⟨i, r⟩
  cases r <;> rfl

theorem aclHit_iff {kv : Nat × Option AclRow} :
    aclHit s table v kb key kv = true ↔ ∃ r, kv.2 = some r ∧ aclAdmits s table v kb key kv.1 r = true := by
  obtain ⟨i, r⟩ := kv
  cases r <;> simp [aclHit]

/-- The listed rows are those that the memory reads as. -/
theorem mem_acl_iff (h : SMap.wf (fun _ => none) s.tbl.acl = true) {i : Nat} {r : AclRow} :
    (i, some r) ∈ s.tbl.acl ↔ getAcl s i = some r :=
  (SMap.mem_iff_get h).trans (and_iff_left (Option.some_ne_none r))

theorem aclFind_eq_some_iff (h : SMap.wf (fun _ => none) s.tbl.acl = true) {r : AclRow} :
    aclFind s table v kb key = some r ↔
      ∃ i, getAcl s i = some r ∧ aclAdmits s table v kb key i r = true ∧
        ∀ j q, j < i → getAcl s j = some q → aclAdmits s table v kb key j q = false := by
  rw [aclFind_eq_find?, Option.bind_eq_some_iff]
  constructor
  · rintro ⟨⟨i, x⟩, hf, rfl⟩
    obtain ⟨ha, hm, hlow⟩ := (SMap.find?_eq_some_iff h).1 hf
    exact ⟨i, (mem_acl_iff h).1 hm, ha, fun j q hj hq => hlow j _ hj ((mem_acl_iff h).2 hq)⟩
  · rintro ⟨i, hr, ha, hlow⟩
    refine ⟨(i, some r), (SMap.find?_eq_some_iff h).2 ⟨ha, (mem_acl_iff h).2 hr, fun j x hj hm => ?_⟩, rfl⟩
    cases x with
    | none => rfl
    | some q => exact hlow j q hj ((mem_acl_iff h).1 hm)

theorem aclFind_eq_none_iff (h : SMap.wf (fun _ => none) s.tbl.acl = true) :
    aclFind s table v kb key = none ↔ ∀ i r, getAcl s i = some r → aclAdmits s table v kb key i r = false := by
  rw [aclFind_eq_find?, Option.bind_eq_none_iff]
  constructor
  · intro hn i r hr
    refine Bool.eq_false_iff.2 fun ha => ?_
    have hit : aclHit s table v kb key (i, some r) = true := ha
    obtain ⟨x, hf⟩ := Option.isSome_iff_exists.1 (List.find?_isSome.2 ⟨_, (mem_acl_iff h).2 hr, hit⟩)
    obtain ⟨q, hq, -⟩ := aclHit_iff.1 (List.find?_some hf)
    exact Option.some_ne_none q (hq.symm.trans (hn x hf))
  · rintro hn ⟨i, x⟩ hf
    cases x with
    | none => rfl
    | some r =>
      obtain ⟨ha, hm, -⟩ := (SMap.find?_eq_some_iff h).1 hf
      exact absurd ha (Bool.eq_false_iff.1 (hn i r ((mem_acl_iff h).1 hm)))

end

/-- Settles O52: the first listed row to answer the lookup is the one of the lowest index. -/
theorem aclLookupTakesTheLowestRow : Obligations.AclLookupTakesTheLowestRow := by
  intro s table v kb key hk h good
  have hgood : ∀ i r, aclAdmits s table v kb key i r = true ↔ good i r := aclAdmits_iff hk s table v key
  have hbad : ∀ i r, aclAdmits s table v kb key i r = false ↔ ¬ good i r := fun i r =>
    Bool.eq_false_iff.trans (not_congr (hgood i r))
  refine ⟨?found, ?nothing⟩
  case found =>
    intro r
    simp only [aclFind_eq_some_iff h, hgood, hbad]
  case nothing => simp only [aclFind_eq_none_iff h, hbad]

/-! Learning -/

theorem learnedAd_of_not_portInAd {l : LearnSet} (h : l.portInAd = false) (port : Nat) : learnedAd l port = l.ad := by
  simp [learnedAd, h]

/-- Bits [63:9] are LEARN_AD's, bits [8:0] the port. -/
theorem toNat_learnedAd_of_portInAd {l : LearnSet} (h : l.portInAd = true) (port : Nat) :
    (learnedAd l port).toNat = l.ad.toNat / 512 * 512 + port % 512 := by
  have := l.ad.isLt
  rw [learnedAd, if_pos h, BitVec.toNat_ofNat]
  omega

/-- Settles O53: the key is new, and the word of a learned entry by its two cases. -/
theorem learnedEntryCarriesTheLearnWord : Obligations.LearnedEntryCarriesTheLearnWord := by
  refine ⟨?inserted, ?plain, ?withPort⟩
  case inserted =>
    intro s r rs t ad hq hm hl hr ho hnew
    exact (exec_learnInsert hq hr ho hm hl).trans (congrArg Host.Outcome.next (if_neg (Bool.eq_false_iff.1 hnew)))
  case plain =>
    intro l port h
    exact learnedAd_of_not_portInAd h port
  case withPort =>
    intro l port h hp
    have := l.ad.isLt
    simp only [fld, nfld, toNat_learnedAd_of_portInAd h]
    omega

end Sys2Proof.Machine
end

section
/-! SUPPORT. What step 6 of a cold start leaves (03 R102; 08 R317). -/

namespace Sys2Proof.Machine

theorem bytesLE_zero (n : Nat) : bytesLE n 0 = List.replicate n 0 := by
  induction n with
  | zero => rfl
  | succ n ih => rw [bytesLE, Nat.zero_div, ih, List.replicate_succ]; rfl

theorem bytesBE_zero (n : Nat) : bytesBE n 0 = List.replicate n 0 := by
  rw [bytesBE, bytesLE_zero, List.reverse_replicate]

theorem versionElement_zero : versionElement 0 = BitVec.ofNat 128 (fld (sha256 [0x0E, 0, 0]) 128 128) := by
  rw [versionElement, elementHash, show verNum 0 = 0 from rfl, bytesBE_zero]; rfl

theorem bankElement_zero :
    bankElement 0 = BitVec.ofNat 128 (fld (sha256 (0x0F :: List.replicate 32 0)) 128 128) := by
  rw [bankElement, elementHash, show (0 : BitVec 256).toNat = 0 from rfl, bytesBE_zero]; rfl

/-- Step 6 of a cold start clears the tables and sets the active fingerprint (08 R317). -/
theorem stepEnds_six (s : State) (test : SelfTest) :
    stepEnds s 6 test = (s.updTbl fun x => { TblSt.reset with dumps := x.dumps }).updFp fun p =>
      { p with active := versionElement 0 + bankElement 0 } := by
  simp only [stepEnds]

theorem stepEnds_six_mode (s : State) (test : SelfTest) : (stepEnds s 6 test).mode = s.mode := by
  rw [stepEnds_six, State.updFp_mode, State.updTbl_mode]

/-- Step 7 of a cold start has nothing to do as it begins. -/
theorem stepBegins_cold_seven {t : State} (hw : t.mode.warm = false) :
    stepBegins t 7 = t.updMode fun m => { m with step := 7 } := by
  simp [stepBegins, hw]

/-- A cold start that nothing ends does the work of step 6 and goes on to step 7. -/
theorem sequenceStep_cold_six {s : State} (hw : s.mode.warm = false) (h6 : s.mode.step = 6) (hp : s.mode.pendCold = none)
    (fail : Option Nat) (test : SelfTest) :
    sequenceStep s fail test = (stepEnds s 6 test).updMode fun m => { m with step := 7 } := by
  have hm := stepEnds_six_mode s test
  have hn : nextStep (stepEnds s 6 test).mode = 7 := by simp [nextStep, hm, h6]
  rw [← stepBegins_cold_seven ((congrArg ModeSt.warm hm).trans hw)]
  simp [sequenceStep, hp, h6, hw, canFail, hn]

/-- Settles O54: the sequence's step 6 sets the fingerprint to the two elements' sum. -/
theorem coldStartSetsTheFingerprint : Obligations.ColdStartSetsTheFingerprint := by
  intro s cals test ha he hw h6 hp
  have hr : stepReady s = true := by simp [stepReady, h6]
  refine ⟨_, exec_startStepDone_sequence ha he (by omega) hr none cals test, ?_⟩
  rw [sequenceStep_cold_six hw h6 hp, stepEnds_six, State.updMode_fp, State.updFp_fp, versionElement_zero, bankElement_zero]

end Sys2Proof.Machine
end

section
/-! SUPPORT. What the accepted orders of subject 9 do (09 R342, R346 to R348): their checks pass, and the effect and the reply are
the order's own. -/

namespace Sys2Proof.Machine

/-- Settles O21: each order's checks pass, and its effect is the model's. -/
theorem ordersOfBufferTakeEffect : Obligations.OrdersOfBufferTakeEffect := by
  refine ⟨?readBuffer, ?readQueue, ?readPg, ?poolSet, ?queueAdmitSet, ?pgSet, ?dramSet⟩
  case readBuffer =>
    intro o s h
    exact runOrder_returns h pass_empty rfl
  case readQueue =>
    intro o s h
    exact runOrder_returns h pass_empty rfl
  case readPg =>
    intro o s h
    exact runOrder_succeeds h pass_empty rfl
  case poolSet =>
    intro o s g h hg hbusy hsum
    exact runOrder_succeeds h (Checks.pass_of (badArgument := hg)
      (chapter := (if_neg (ne_false_of_eq_true hbusy)).trans (if_neg (Nat.not_lt.2 hsum)))) rfl
  case queueAdmitSet =>
    intro o s a h ha
    exact runOrder_succeeds h (Checks.pass_of (malformed := ha)) rfl
  case pgSet =>
    intro o s h hx
    exact runOrder_succeeds h (Checks.pass_of (badArgument := decide_eq_false (Nat.not_lt.2 hx))) rfl
  case dramSet =>
    intro o s cap h hcap hfit
    refine runOrder_succeeds h (Checks.pass_of (badArgument := decide_eq_false (Nat.not_lt.2 hcap)) (chapter := ?_)) rfl
    rw [if_neg (Nat.not_lt.2 hfit)]

end Sys2Proof.Machine
end

section
/-! SUPPORT. An instruction that its lathe runs to its end (10 R351, R361, R362, R372): the lathe goes through its tests, the
effect keeps the program under way with its entry and its count, and the end adds the microcycles. -/

namespace Sys2Proof.SMap

variable {α : Type}

theorem get_insert_same (d : Nat → α) (m : SMap α) (k : Nat) (v : α) : get d (insert m k v) k = v := by
  induction m with
  | nil => exact if_pos rfl
  | cons e m ih =>
    obtain ⟨j, w⟩ := e
    by_cases hj : k = j
    · simp [insert, get, hj]
    · by_cases hl : k < j <;> simp [insert, get, hj, hl, ih]

/-- A key reads as what was written, where that is not its default, even in a map that is not in canonical form. -/
theorem get_put_same [DecidableEq α] {d : Nat → α} {k : Nat} {v : α} (hv : v ≠ d k) (m : SMap α) :
    get d (put d m k v) k = v := by
  rw [put, if_neg hv, get_insert_same]

end Sys2Proof.SMap

namespace Sys2Proof.Machine

/-! A lathe changed with a program under way -/

section

variable {s u : State} {k : Nat} {r : Run}

theorem getLathe_updLathe {f : Lathe → Lathe} (h : (f (getLathe s k)).cur ≠ none) :
    getLathe (updLathe s k f) k = f (getLathe s k) :=
  SMap.get_put_same (fun e => h (congrArg Lathe.cur e)) _

/-- A program is under way on lathe `k` with the entry of `r` and the microcycles that `r` has executed. -/
def Runs (s : State) (k : Nat) (r : Run) : Prop :=
  ∃ x, (getLathe s k).cur = some x ∧ x.entry = r.entry ∧ x.executed = r.executed

theorem Runs.of_lathes (h : Runs s k r) (e : u.lat.lathes = s.lat.lathes) : Runs u k r := by
  rwa [Runs, getLathe, e]

theorem Runs.updLathe {f : Lathe → Lathe} (h : Runs s k r) (hf : (f (getLathe s k)).cur = (getLathe s k).cur) :
    Runs (updLathe s k f) k r := by
  obtain ⟨x, hx, hr⟩ := h
  exact ⟨x, by rw [getLathe_updLathe (by simp [hf, hx]), hf, hx], hr⟩

theorem Runs.updRun {f : Run → Run} (h : Runs s k r) (hf : ∀ x, (f x).entry = x.entry ∧ (f x).executed = x.executed) :
    Runs (updRun s k f) k r := by
  obtain ⟨x, hx, he, hc⟩ := h
  refine ⟨f x, ?_, (hf x).1.trans he, (hf x).2.trans hc⟩
  rw [Machine.updRun, getLathe_updLathe] <;> simp [hx]

theorem Runs.updRunPkt (h : Runs s k r) (f : Pkt → Pkt) : Runs (updRunPkt s k f) k r :=
  h.updRun fun _ => ⟨rfl, rfl⟩

end

section

variable {i : LInsn} {s : State} {r : Run}

@[simp] theorem setGreg_cur (l : Lathe) (g : BitVec 5) (v : BitVec 64) : (setGreg l g v).cur = l.cur := by
  unfold setGreg; split <;> rfl

@[simp] theorem putLocals_cur (l : Lathe) (a : Nat) (bs : List Byte) : (putLocals l a bs).cur = l.cur := by
  induction bs generalizing l a with
  | nil => rfl
  | cons b bs ih => exact ih _ _

theorem Runs.setRd (h : Runs s i.lathe r) (v : BitVec 64) : Runs (setRd s i v) i.lathe r :=
  h.updLathe (setGreg_cur _ _ _)

theorem Runs.setRdFree (h : Runs s i.lathe r) : Runs (setRdFree s i) i.lathe r :=
  Runs.setRd (h.of_lathes rfl) _

theorem Runs.runMicro (h : Runs s i.lathe r) (l : Lathe) (f : List Byte) (n : Nat) (hit : Bool) :
    Runs (runMicro s i l f n hit) i.lathe r :=
  Runs.of_lathes
    (h.updLathe (f := fun x => { x with micro := (microRoutine i l f s.freeCtr n hit).m, busy := x.busy + n }) rfl) rfl

/-! The tests before an instruction and at its end -/

/-- What `runsOn` says of the lathe, the instruction and the budget. -/
theorem runsOn_iff {srcs : List (BitVec 5)} {cost : Nat} :
    runsOn i s srcs cost r = true ↔
      ((getLathe s i.lathe).cur = some r ∧ r.finished = false ∧ (getLathe s i.lathe).iso = 0 ∧
        (getLathe s i.lathe).testing = false ∧ (getLathe s i.lathe).recovery = none) ∧
      (i.upset = .none ∧ i.badFn = false ∧ r.pc < (bankOf s r.bank).textWords) ∧
      ((srcs.filter fun g => g != 0).find? fun g => (getLathe s i.lathe).badRegs.contains g.toNat) = none ∧
      r.executed + cost ≤ 16 * fld r.entry 16 16 := by
  simp only [runsOn, Bool.and_eq_true, beq_iff_eq, Bool.not_eq_true', Option.isNone_iff_eq_none, decide_eq_true_eq, and_assoc]

theorem runs_of_runsOn {srcs : List (BitVec 5)} {n : Nat} (h : runsOn i s srcs n r = true) : Runs s i.lathe r :=
  have ⟨⟨hcur, _⟩, _⟩ := runsOn_iff.1 h
  ⟨r, hcur, rfl, rfl⟩

theorem upset_of_runsOn {srcs : List (BitVec 5)} {n : Nat} (h : runsOn i s srcs n r = true) : i.upset = .none :=
  have ⟨_, ⟨hup, _⟩, _⟩ := runsOn_iff.1 h
  hup

theorem startNext_of_cur {k : Nat} (h : (getLathe s k).cur = some r) : startNext s k = s := by
  simp [startNext, h]

/-- An instruction of a program within its budget ends, and the next one is `target`, or the program is over (10 R362). -/
theorem endInsn_within {k cost : Nat} (h : Runs s k r) (hb : r.executed + cost ≤ 16 * fld r.entry 16 16) (stall pc : Nat)
    (target : Int) (done : Bool) :
    endInsn s k cost stall pc target done =
      let t := updRun (updLathe s k fun l => { l with stalls := l.stalls + stall }) k fun x =>
        { x with executed := x.executed + cost, pc := if target < 0 then 65536 else target.toNat, finished := done }
      if done then offerResult (updLathe t k fun l => { l with packets := l.packets + 1 }) k else t := by
  obtain ⟨x, hx, he, hc⟩ : Runs (updLathe s k fun l => { l with stalls := l.stalls + stall }) k r := h.updLathe rfl
  have hwithin : overBudget x cost = false := by simpa [overBudget, he, hc] using hb
  simp only [endInsn, hx, hwithin, Bool.false_eq_true, if_false]

variable {srcs : List (BitVec 5)} {cost : Lathe → Nat} {eff : State → Run → Lathe → LRes} {u : State} {pc : Int}
  {stall : Nat} {hit : Bool}

/-- An instruction that its lathe runs to its end has its effect: no test stops it, no SAFE microword within it meets the budget,
and its microwords run (10 R351, R361, R362, R366, R367). -/
theorem runInsn_to_end {polls : Run → Lathe → List (Nat × (State → State))} {n : Nat} (hr : runsOn i s srcs n r = true)
    (hc : cost (getLathe s i.lathe) = n) (he : eff s r (getLathe s i.lathe) = .next u pc stall hit) (hu : Runs u i.lathe r)
    (hp : ∀ p ∈ polls r (getLathe s i.lathe), p.1 ≤ n) (done : Bool) :
    runInsn i s srcs cost done eff polls =
      let t := retired s r u i n pc stall hit done
      if done then offerResult (updLathe t i.lathe fun l => { l with packets := l.packets + 1 }) i.lathe else t := by
  obtain ⟨⟨hcur, hfin, hiso, htest, hrec⟩, ⟨hup, hfn, hpc⟩, hregs, hbudget⟩ := runsOn_iff.1 hr
  have hpolls : ((polls r (getLathe s i.lathe)).find? fun p => overBudget r p.1) = none :=
    List.find?_eq_none.2 fun p hm => by simp [overBudget, Nat.le_trans (Nat.add_le_add_left (hp p hm) _) hbudget]
  have hmicro := hu.runMicro (getLathe s i.lathe) r.dealt.pkt.frame n hit
  have hword : ¬ (i.badFn = true ∨ (bankOf s r.bank).textWords ≤ r.pc) := by simp [hfn, hpc]
  have hserves : (r.finished || (getLathe s i.lathe).iso != 0 || (getLathe s i.lathe).testing ||
      (getLathe s i.lathe).recovery.isSome) = false := by simp [hfin, hiso, htest, hrec]
  simp only [runInsn, startNext_of_cur hcur, hcur, hserves, hup, if_neg hword, hregs, he, hpolls, hc,
    endInsn_within hmicro hbudget, Bool.false_eq_true, if_false]
  rfl

/-- The same for one that does not end the program and holds no SAFE microword. -/
theorem runInsn_retires {n : Nat} (hr : runsOn i s srcs n r = true) (he : eff s r (getLathe s i.lathe) = .next u pc stall hit)
    (hu : Runs u i.lathe r) :
    runInsn i s srcs (fun _ => n) false eff = retired s r u i n pc stall hit :=
  runInsn_to_end hr rfl he hu (List.forall_mem_nil _) false

/-- The same for one that ends the program: its result goes to the reorder stage (10 R354). -/
theorem runInsn_ends {n : Nat} (hr : runsOn i s srcs n r = true) (he : eff s r (getLathe s i.lathe) = .next u pc stall hit)
    (hu : Runs u i.lathe r) :
    runInsn i s srcs (fun _ => n) true eff =
      offerResult (updLathe (retired s r u i n pc stall hit true) i.lathe fun l => { l with packets := l.packets + 1 }) i.lathe :=
  (runInsn_to_end hr rfl he hu (List.forall_mem_nil _) true).trans (if_pos rfl)

end

end Sys2Proof.Machine
end

section
/-! SUPPORT. What the arithmetic instructions and the branches of a lathe do (10 R360 to R362, Tables 10-4 to 10-6). -/

namespace Sys2Proof.Machine

section

variable {i : LInsn} {s : State} {r : Run} {n : Nat} {f : BitVec 64 → BitVec 64 → Option (BitVec 64)}

theorem aluInsn_value {v : BitVec 64} (h : runsOn i s (aluSrcs i) n r = true)
    (hf : f (greg (getLathe s i.lathe) i.ra) (opB i (getLathe s i.lathe)) = some v) :
    aluInsn i s n f = retired s r (setRd s i v) i n (nextPc r) :=
  runInsn_retires h (by rw [hf]) ((runs_of_runsOn h).setRd _)

theorem aluInsn_free (h : runsOn i s (aluSrcs i) n r = true)
    (hf : f (greg (getLathe s i.lathe) i.ra) (opB i (getLathe s i.lathe)) = none) :
    aluInsn i s n f = retired s r (setRdFree s i) i n (nextPc r) :=
  runInsn_retires h (by rw [hf]) (runs_of_runsOn h).setRdFree

/-- An instruction whose value is stated only where `p` holds. -/
theorem aluInsn_ite {p : Prop} [Decidable p] {v : BitVec 64} (h : runsOn i s (aluSrcs i) n r = true)
    (hf : f (greg (getLathe s i.lathe) i.ra) (opB i (getLathe s i.lathe)) = if p then some v else none) :
    aluInsn i s n f = retired s r (if p then setRd s i v else setRdFree s i) i n (nextPc r) := by
  split
  next hp => exact aluInsn_value h (hf.trans (if_pos hp))
  next hp => exact aluInsn_free h (hf.trans (if_neg hp))

/-- A bit field of 1 to 64 bits within the register is no fault. -/
theorem field_fits (h0 : i.len ≠ 0) (h64 : i.lo + i.len ≤ 64) : ¬ (i.len = 0 ∨ 64 < i.lo + i.len) :=
  not_or.2 ⟨h0, Nat.not_lt.2 h64⟩

/-- A branch goes by its displacement where its condition `p` holds of RD and RA (10 R360). -/
theorem branchInsn_retires {c : BitVec 64 → BitVec 64 → Bool} {p : Prop} [Decidable p]
    (h : runsOn i s [i.rd, i.ra] 3 r = true)
    (hc : c (greg (getLathe s i.lathe) i.rd) (greg (getLathe s i.lathe) i.ra) = true ↔ p) :
    branchInsn i s c = retired s r s i 3 (if p then (r.pc : Int) + i.imm.toInt else nextPc r) :=
  runInsn_retires h (congrArg (LRes.next s · 0 false) (ite_congr (propext hc) (fun _ => rfl) fun _ => rfl)) (runs_of_runsOn h)

end

theorem setGreg_zero (l : Lathe) (v : BitVec 64) : setGreg l 0 v = l := if_pos rfl
theorem greg_zero (l : Lathe) : greg l 0 = 0 := if_pos rfl

/-- Settles O29: each instruction runs to its end with its own value, or a free one where none is stated. -/
theorem arithmeticInstructionsRun : Obligations.ArithmeticInstructionsRun := by
  refine ⟨?add, ?sub, ?and, ?or, ?xor, ?shl, ?shr, ?sar, ?cmp, ?mul, ?mulh, ?ext, ?ins, ?zero⟩
  case add =>
    intro i s r l h
    exact congrArg Host.Outcome.next (aluInsn_value h rfl)
  case sub =>
    intro i s r l h
    exact congrArg Host.Outcome.next (aluInsn_value h rfl)
  case and =>
    intro i s r l h
    exact congrArg Host.Outcome.next (aluInsn_value h rfl)
  case or =>
    intro i s r l h
    exact congrArg Host.Outcome.next (aluInsn_value h rfl)
  case xor =>
    intro i s r l h
    exact congrArg Host.Outcome.next (aluInsn_value h rfl)
  case shl =>
    intro i s r l h
    exact congrArg Host.Outcome.next (aluInsn_ite h rfl)
  case shr =>
    intro i s r l h
    exact congrArg Host.Outcome.next (aluInsn_ite h rfl)
  case sar =>
    intro i s r l h
    exact congrArg Host.Outcome.next (aluInsn_ite h rfl)
  case cmp =>
    intro i s r h
    exact congrArg Host.Outcome.next (aluInsn_free h rfl)
  case mul =>
    intro i s r l h
    exact congrArg Host.Outcome.next (aluInsn_value h rfl)
  case mulh =>
    intro i s r l h
    split
    next hm => exact congrArg Host.Outcome.next (aluInsn_free h (if_pos hm))
    next hm => exact congrArg Host.Outcome.next (aluInsn_value h (if_neg hm))
  case ext =>
    intro i s r l h h0 h64
    exact congrArg Host.Outcome.next (runInsn_retires h (if_neg (field_fits h0 h64)) ((runs_of_runsOn h).setRd _))
  case ins =>
    intro i s r l m h h0 h64
    exact congrArg Host.Outcome.next (runInsn_retires h (if_neg (field_fits h0 h64)) ((runs_of_runsOn h).setRd _))
  case zero =>
    intro l v
    exact ⟨setGreg_zero l v, greg_zero l⟩

/-- Settles O30: each branch by what its comparison says of RD and RA. -/
theorem branchInstructionsRun : Obligations.BranchInstructionsRun := by
  refine ⟨?beq, ?bne, ?blt, ?bge, ?bltu, ?bgeu, ?jmp⟩
  case beq =>
    intro i s r l h
    exact congrArg Host.Outcome.next (branchInsn_retires h beq_iff_eq)
  case bne =>
    intro i s r l h
    exact congrArg Host.Outcome.next (branchInsn_retires h bne_iff_ne)
  case blt =>
    intro i s r l h
    exact congrArg Host.Outcome.next (branchInsn_retires h BitVec.slt_iff_toInt_lt)
  case bge =>
    intro i s r l h
    exact congrArg Host.Outcome.next (branchInsn_retires h (by simp [BitVec.slt, l]))
  case bltu =>
    intro i s r l h
    exact congrArg Host.Outcome.next (branchInsn_retires h BitVec.ult_iff_lt)
  case bgeu =>
    intro i s r l h
    exact congrArg Host.Outcome.next (branchInsn_retires h (by simp [BitVec.ult, l]))
  case jmp =>
    intro i s r h
    exact congrArg Host.Outcome.next (runInsn_retires h rfl (runs_of_runsOn h))

end Sys2Proof.Machine
end

section
/-! SUPPORT. What the loads, stores and atomics of a lathe do (10 R360 to R364; 14 R463). -/

namespace Sys2Proof.Machine

section

variable {i : LInsn} {s : State} {r : Run}

@[simp] theorem arbUse_lat (s : State) (kind i me : Nat) (cs : List ArbCycle) : (arbUse s kind i me cs).1.lat = s.lat := by
  simp only [arbUse]
  generalize arbRun me _ _ 0 = x
  split <;> rfl

theorem Runs.arbUse {k : Nat} (h : Runs s k r) (kind n me : Nat) (cs : List ArbCycle) : Runs (arbUse s kind n me cs).1 k r :=
  h.of_lathes (congrArg LatSt.lathes (arbUse_lat s kind n me cs))

theorem Runs.putShm {k : Nat} (h : Runs s k r) (slice w : Nat) (v : BitVec 64) : Runs (putShm s slice w v) k r :=
  h.of_lathes rfl

/-- RD and the word of shared memory at `a` as an access leaves them: `e` gives what it writes to each (10 R363, R364). -/
def shmAccessed (i : LInsn) (s : State) (a : Nat) (e : Option (BitVec 64) × Option (BitVec 64)) : State :=
  let t := match e.2 with | some v => putShm s (latheSlice i.lathe) (a / 8) v | none => s
  match e.1 with | some v => setRd t i v | none => t

theorem Runs.shmAccessed (h : Runs s i.lathe r) (a : Nat) :
    ∀ e, Runs (shmAccessed i s a e) i.lathe r
  | (none, none) => h
  | (none, some _) => h.putShm _ _ _
  | (some _, none) => h.setRd _
  | (some _, some _) => (h.putShm _ _ _).setRd _

/-- An access inside the window, to a word that is not marked if it is read, waits for its grant and is made (10 R363,
14 R463). -/
theorem shmInsn_retires {srcs : List (BitVec 5)} {n a : Nat} {reads : Bool}
    {f : Lathe → BitVec 64 → Option (BitVec 64) × Option (BitVec 64)} (h : runsOn i s srcs n r = true)
    (ha : addrOf i (getLathe s i.lathe) = a) (hw : inWindow r a = true)
    (hb : reads = true → s.lat.badShm.contains (2 ^ 18 * latheSlice i.lathe + a / 8) = false) :
    shmInsn i s srcs n reads f =
      let k := latheSlice i.lathe
      let g := arbUse s 0xE2 (16 * k + a / 8 % 16) (i.lathe % 6) i.cycles
      retired s r (shmAccessed i g.1 a (f (getLathe s i.lathe) (shmWord s k (a / 8)))) i n (nextPc r) g.2 := by
  subst ha
  have hgood : ¬ (reads = true ∧ (i.upset = .mem ∨
      s.lat.badShm.contains (2 ^ 18 * latheSlice i.lathe + addrOf i (getLathe s i.lathe) / 8) = true)) := by
    rintro ⟨hr, hu | hm⟩
    · exact nomatch (upset_of_runsOn h).symm.trans hu
    · exact nomatch (hb hr).symm.trans hm
  exact runInsn_retires h ((if_neg (by simp [hw])).trans (if_neg hgood)) (((runs_of_runsOn h).arbUse _ _ _ _).shmAccessed _ _)

/-- An atomic's address is RA. -/
theorem addrOf_imm_zero (i : LInsn) (l : Lathe) : addrOf { i with imm := 0 } l = (greg l i.ra).toNat := by
  simp [addrOf, LInsn_imm]

end

/-- Settles O31: each instruction passes the tests of its address and its word, and its effect is the model's. -/
theorem memoryInstructionsRun : Obligations.MemoryInstructionsRun := by
  refine ⟨?ldl, ?stl, ?ldc, ?lds, ?sts, ?fadd, ?cas, ?swap⟩
  case ldl =>
    intro i s r l a h hw ho hb
    exact congrArg Host.Outcome.next (runInsn_retires h (by simp [hw, ho, hb, upset_of_runsOn h, l, a])
      ((runs_of_runsOn h).setRd _))
  case stl =>
    intro i s r l a h hw ho
    exact congrArg Host.Outcome.next (runInsn_retires h (by simp [hw, ho, l, a])
      ((runs_of_runsOn h).updLathe (putLocals_cur _ _ _)))
  case ldc =>
    intro i s r l a h hd
    refine congrArg Host.Outcome.next (runInsn_retires h (if_neg (Nat.not_lt.2 hd)) ?_)
    split
    · exact (runs_of_runsOn h).setRd _
    · exact (runs_of_runsOn h).setRdFree
  case lds =>
    intro i s r l a k g h hw hb
    exact congrArg Host.Outcome.next (shmInsn_retires h rfl hw fun _ => hb)
  case sts =>
    intro i s r l a k g h hw
    exact congrArg Host.Outcome.next (shmInsn_retires h rfl hw nofun)
  case fadd =>
    intro i s r l a k w g h hw hb
    exact congrArg Host.Outcome.next (shmInsn_retires (i := { i with imm := 0 }) h (addrOf_imm_zero i l) hw fun _ => hb)
  case cas =>
    intro i s r l a k w g h hw hb
    refine congrArg Host.Outcome.next
      ((shmInsn_retires (i := { i with imm := 0 }) h (addrOf_imm_zero i l) hw fun _ => hb).trans ?_)
    dsimp only
    split <;> rfl
  case swap =>
    intro i s r l a k w g h hw hb
    exact congrArg Host.Outcome.next (shmInsn_retires (i := { i with imm := 0 }) h (addrOf_imm_zero i l) hw fun _ => hb)

end Sys2Proof.Machine
end

section
/-! SUPPORT. What a lathe's instructions on the packet do (10 R353, R354, R360 to R362; 07 R248; 08 R290). -/

namespace Sys2Proof.Machine

section

variable {i : LInsn} {s : State} {r : Run}

/-! The frame -/

@[simp] theorem freeBytes_length (s : State) (n : Nat) : (freeBytes s n).length = n :=
  bytesLE_length _ _

/-- PBL and PBS reach 1 to 8 bytes. -/
theorem width_one_to_eight {n : Nat} (h1 : 1 ≤ n) (h8 : n ≤ 8) : ¬ (n = 0 ∨ 8 < n) := by omega

/-- A frame with `n` bytes inserted at `a`, or removed there (10 R354). -/
theorem length_edited {f g : List Byte} {a n : Nat} {ins : Bool} (hg : g.length = n) (ha : a ≤ f.length)
    (hr : ins = true ∨ a + n ≤ f.length) :
    (if ins then f.take a ++ g ++ f.drop a else f.take a ++ f.drop (a + n)).length =
      if ins then f.length + n else f.length - n := by
  cases ins with
  | true => simp [hg]; omega
  | false =>
    have := hr.resolve_left nofun
    simp; omega

theorem hedit_permitted {f g : List Byte} {a n m : Nat} {ins : Bool} (he : r.edited = false) (hn : n ≤ 128) (h256 : a < 256)
    (ha : a ≤ f.length) (hr : ins = true ∨ a + n ≤ f.length) (hg : g.length = m) (h64 : 64 ≤ m) (hmax : m ≤ 16384) :
    ¬ (r.edited = true ∨ 128 < n ∨ 256 ≤ a ∨ f.length < a ∨ (ins = false ∧ f.length < a + n) ∨ g.length < 64 ∨
      16384 < g.length) := by
  cases ins with
  | true => simp [he, hg]; omega
  | false =>
    have := hr.resolve_left nofun
    simp [he, hg]; omega

/-! Lookup (08 R290) -/

theorem Runs.hitEm {k : Nat} (h : Runs s k r) (n : Nat) (hits : BitVec 4) : Runs (hitEm s n hits) k r :=
  h.of_lathes rfl

@[simp] theorem learnRequest_lat (s : State) (q : LearnReq) : (learnRequest s q).lat = s.lat := by
  unfold learnRequest
  (repeat' split) <;> rfl

theorem Runs.learnRequest {k : Nat} (h : Runs s k r) (q : LearnReq) : Runs (learnRequest s q) k r :=
  h.of_lathes (congrArg LatSt.lathes (learnRequest_lat s q))

/-! Loops over bytes -/

/-- No SAFE microword of a loop comes later than the loop's end. -/
theorem le_of_mem_loopPolls {n unit m set : Nat} {p : Nat × Nat} (h : p ∈ loopPolls n unit m set) :
    p.2 ≤ set + (n + unit - 1) / unit + 2 * ((n - 1) / m) := by
  obtain ⟨j, hj, rfl⟩ := List.mem_map.1 h
  have hj := List.mem_range.1 hj
  have hq : m * ((n - 1) / m) ≤ n := Nat.le_trans (Nat.mul_div_le _ _) (Nat.sub_le _ _)
  have hmj : m * j ≤ m * ((n - 1) / m) := Nat.mul_le_mul_left m (Nat.le_of_lt hj)
  have hbytes : n - m * ((n - 1) / m) + m * j ≤ n := by omega
  have hwords := Nat.div_le_div_right (c := unit) (Nat.sub_le_sub_right (Nat.add_le_add_right hbytes unit) 1)
  dsimp only
  omega

/-- The polls of an instruction that runs such a loop all come within its microcycles `c`. -/
theorem forall_mem_loopPolls {n unit m set c : Nat} (hc : set + (n + unit - 1) / unit + 2 * ((n - 1) / m) ≤ c)
    (g : Nat × Nat → State → State) : ∀ p ∈ (loopPolls n unit m set).map fun q => (q.2, g q), p.1 ≤ c :=
  List.forall_mem_map.2 fun _ h => Nat.le_trans (le_of_mem_loopPolls h) hc

theorem bcopy_loop_le (n : Nat) : 4 + (n + 8 - 1) / 8 + 2 * ((n - 1) / 256) ≤ bcopyCost n := by
  unfold bcopyCost; omega

theorem crc_loop_le (n : Nat) : 3 + (n + 16 - 1) / 16 + 2 * ((n - 1) / 512) ≤ crcCost n := by
  unfold crcCost; omega

end

/-- Settles O32: each instruction passes the tests of its operands, and its effect is the model's. -/
theorem packetInstructionsRun : Obligations.PacketInstructionsRun := by
  refine ⟨?hvl, ?hvs, ?pbl, ?pbs, ?hedit, ?dget, ?dset, ?lkup, ⟨?bcopyIn, ?bcopyOut⟩, ?crc, ?sha, ?exit⟩
  case hvl =>
    intro i s r h hs
    exact congrArg Host.Outcome.next (runInsn_retires h (if_neg (Nat.not_le.2 hs)) ((runs_of_runsOn h).setRd _))
  case hvs =>
    intro i s r l h h8 h64
    exact congrArg Host.Outcome.next (runInsn_retires h (if_neg (by omega)) ((runs_of_runsOn h).updRunPkt _))
  case pbl =>
    intro i s r l a f h h1 h8 hf
    exact congrArg Host.Outcome.next (runInsn_retires h
      ((if_neg (width_one_to_eight h1 h8)).trans (if_neg (Nat.not_lt.2 hf))) ((runs_of_runsOn h).setRd _))
  case pbs =>
    intro i s r l a f h h1 h8 hf
    exact congrArg Host.Outcome.next (runInsn_retires h
      ((if_neg (width_one_to_eight h1 h8)).trans (if_neg (Nat.not_lt.2 hf))) ((runs_of_runsOn h).updRunPkt _))
  case hedit =>
    intro i s r l a f n g m h he hn h256 ha hr h64 hmax
    have hg : g.length = m := length_edited (freeBytes_length s n) ha hr
    have hu : Runs (if i.flag then s.drawn else s) i.lathe r := by
      split
      · exact (runs_of_runsOn h).of_lathes rfl
      · exact runs_of_runsOn h
    exact congrArg Host.Outcome.next (runInsn_retires h (if_neg (hedit_permitted he hn h256 ha hr hg h64 hmax))
      ((hu.updRun (f := fun x => { x with edited := true }) fun _ => ⟨rfl, rfl⟩).updRunPkt _))
  case dget =>
    intro i s r h hs
    exact congrArg Host.Outcome.next (runInsn_retires h (if_neg (Nat.not_le.2 hs)) ((runs_of_runsOn h).setRd _))
  case dset =>
    intro i s r d l h hd
    exact congrArg Host.Outcome.next (runInsn_retires h (by rw [hd]) ((runs_of_runsOn h).updRunPkt _))
  case lkup =>
    intro i s r l k v u b key h hs
    have hu : Runs u i.lathe r := (runs_of_runsOn h).arbUse _ _ _ _
    split
    next n c hc =>
      refine congrArg Host.Outcome.next (runInsn_retires h ((if_neg (Nat.not_le.2 hs)).trans ?_) (Runs.setRd ?_ _))
      · dsimp only; rw [hc]
      · split
        · exact (hu.hitEm _ _).learnRequest _
        · exact hu.hitEm _ _
    next hc =>
      refine congrArg Host.Outcome.next (runInsn_retires h ((if_neg (Nat.not_le.2 hs)).trans ?_) hu.setRdFree)
      dsimp only; rw [hc]
  case bcopyIn =>
    intro i s r l n a d h ha hd hf
    refine congrArg Host.Outcome.next (runInsn_to_end h rfl ?_ ((runs_of_runsOn h).updLathe (putLocals_cur _ _ _))
      (forall_mem_loopPolls (bcopy_loop_le n) _) false)
    exact (if_neg (Nat.not_lt.2 ha)).trans ((if_neg (Nat.not_lt.2 hd)).trans (if_pos hf))
  case bcopyOut =>
    intro i s r l n a d h ha hd hf hb
    refine congrArg Host.Outcome.next (runInsn_to_end h rfl ?_ ((runs_of_runsOn h).updRunPkt _)
      (forall_mem_loopPolls (bcopy_loop_le n) _) false)
    refine (if_neg (Nat.not_lt.2 ha)).trans ((if_neg (Nat.not_lt.2 hd)).trans ((if_neg (Bool.eq_false_iff.1 hf)).trans ?_))
    rw [hb, upset_of_runsOn h]
  case crc =>
    intro i s r l n a f h hf
    exact congrArg Host.Outcome.next (runInsn_to_end h rfl (if_neg (Nat.not_lt.2 hf)) ((runs_of_runsOn h).setRd _)
      (forall_mem_loopPolls (crc_loop_le n) _) false)
  case sha =>
    intro i s r l a h ha hb
    refine congrArg Host.Outcome.next (runInsn_to_end h rfl ?_ (runs_of_runsOn h).setRdFree ?_ false)
    · refine (if_neg (Nat.not_lt.2 ha)).trans ?_
      rw [hb, upset_of_runsOn h]
    · intro p hp
      rw [List.mem_singleton.1 hp]
      dsimp only
      omega
  case exit =>
    intro i s r h
    exact congrArg Host.Outcome.next (runInsn_ends h rfl (runs_of_runsOn h))

end Sys2Proof.Machine
end

section
/-! SUPPORT. What the accepted orders of subject 10 do (10 R355 to R358, R375, R378 to R380), and the digest of a program bank
(10 R357): the orders' checks pass, and the effect and the reply are the order's own. -/

namespace Sys2Proof.Machine

/-! Program banks -/

section

variable {s : State} {b : Bool}

@[simp] theorem bankOf_updBank (s : State) (b : Bool) (f : Bank → Bank) : bankOf (updBank s b f) b = f (bankOf s b) := by
  cases b <;> rfl

theorem bankDigest_of_ready (h : (bankOf s b).state = 2) : bankDigest s b = (bankOf s b).digest := if_pos h
theorem bankDigest_of_not_ready (h : (bankOf s b).state ≠ 2) : bankDigest s b = 0 := if_neg h

end

/-- Settles O51: a bank that holds an image is ready, and only a ready one has a digest. -/
theorem bankDigestIsTheImagesTrailer : Obligations.BankDigestIsTheImagesTrailer := by
  refine ⟨?image, ?notReady, ?element⟩
  case image =>
    intro s b bs _
    have hb : bankOf (updBank s b fun _ => imageBank bs) b = imageBank bs := bankOf_updBank _ _ _
    rw [bankDigest_of_ready (by rw [hb]; rfl), hb]
    rfl
  case notReady =>
    intro s b h
    exact bankDigest_of_not_ready (by omega)
  case element =>
    intro s b
    exact ⟨rfl, rfl⟩

/-! Orders -/

section

variable {o : Order} {s : State}

/-- An accepted IMAGE_LOAD of a good image for this microcode, into a bank not in use, is judged by what the bank holds. -/
theorem exec_imageLoad {bs : List Byte} (h : accepted (ptrForm 0x4A01 [0xA2] 1 modesSet true) s o = true)
    (hp : payloadHere s o bs = true) (hi : imageInvalid bs = false)
    (hm : beNat (slice bs 16 32) = Config.microcodeDigest.toNat) (hu : bankInUse s (orderBank o) = false) :
    exec (.imageLoad o) s =
      let b := orderBank o
      if bankDigest s b = imageDigest bs ∧ (bankOf s b).state = 2 then
        .next (complete s o 0x0A01 (leNat ((bytesBE 32 (imageDigest bs).toNat).take 8)))
      else
        goesOn (postBank (bankElementChange (updBank s b fun x => { x with state := 1 }) b (bankDigest s b) 0) b 1) 0x4A01 o := by
  refine (congrArg Host.Outcome.next (runPtr_accepted h pass_empty hp (Checks.pass_of (chapter := ?_)))).trans ?_
  · simp [hi, hm, hu]
  · dsimp only
    split <;> rfl

/-- An accepted CS_INJECT flips its bits, and the next fetch of the word finds the upset where one is left (10 R379). -/
theorem exec_csInject (h : accepted (setForm 0x4A08 [0xA1] 0xFF [(0, 18)] [.probe] false) s o = true) (hl : o.inst < 192) :
    exec (.csInject o) s =
      let k := o.inst
      let key := 8192 * b2n (o.b 0) + o.f 1 13
      let t := updLathe s k fun l =>
        { l with flips := SMap.upd (fun _ => 0) l.flips key fun x => x ^^^ BitVec.ofNat 4 (o.f 14 4) }
      if SMap.get (fun _ => (0 : BitVec 4)) (getLathe t k).flips key = 0 then succeeds t o 0
      else if (getLathe t k).iso ≠ 0 then succeeds t o 3
      else
        let u := machineCheck t k 1 (o.b 0) (o.f 1 13)
        if (getLathe u k).iso ≠ 0 then succeeds u o 3 else goesOn u 0x4A08 o := by
  refine (congrArg Host.Outcome.next (runOrder_accepted h
    (Checks.pass_of (badObject := decide_eq_false (Nat.not_le.2 hl))))).trans ?_
  dsimp only
  (repeat' split) <;> rfl

end

/-- Settles O22: each order's checks pass, and its effect is the model's. -/
theorem ordersOfLathesTakeEffect : Obligations.OrdersOfLathesTakeEffect := by
  refine ⟨?readLathe, ?readBank, ?shmRead, ?readControlStore, ?imageLoad, ?bankClear, ?shmWrite, ?latheIsolate, ?latheRestore,
    ?microcodeReload, ?mandrelTest, ?csInject⟩
  case readLathe =>
    intro o s h hl
    exact runOrder_returns h (Checks.pass_of (badObject := decide_eq_false (Nat.not_le.2 hl))) rfl
  case readBank =>
    intro o s h
    exact runOrder_returns h pass_empty rfl
  case shmRead =>
    intro o s a n h h64 h0 hmax hend
    refine runOrder_returns h (Checks.pass_of (badArgument := ?_)) rfl
    simpa [h64, h0, hmax, a, n] using hend
  case readControlStore =>
    intro o s first n mandrel h hl h0 hmax hend
    refine runOrder_returns h (Checks.pass_of (badObject := decide_eq_false (Nat.not_le.2 hl)) (badArgument := ?_)) rfl
    simp [h0, hmax, hend, first, n, mandrel]
  case imageLoad =>
    intro o s bs b h hp hi hm hu
    exact exec_imageLoad h hp hi hm hu
  case bankClear =>
    intro o s b h hu
    exact runOrder_succeeds h (Checks.pass_of (chapter := if_neg (Bool.eq_false_iff.1 hu))) rfl
  case shmWrite =>
    intro o s bs a h hp hf h64 hend
    exact runPtr_succeeds h pass_empty hp (Checks.pass_of (malformed := congrArg not hf)
      (badArgument := Bool.or_eq_false_iff.2 ⟨decide_eq_false (not_not_intro h64), decide_eq_false (Nat.not_lt.2 hend)⟩)) rfl
  case latheIsolate =>
    intro o s h hl hi
    exact runOrder_succeeds h (Checks.pass_of (badObject := decide_eq_false (Nat.not_le.2 hl))
      (chapter := if_neg (not_not_intro hi))) rfl
  case latheRestore =>
    intro o s h hl hi
    exact runOrder_goesOn h (Checks.pass_of (badObject := decide_eq_false (Nat.not_le.2 hl)) (chapter := if_neg hi)) rfl
  case microcodeReload =>
    intro o s h hr
    exact runOrder_goesOn h (Checks.pass_of (chapter := if_neg (Bool.eq_false_iff.1 hr))) rfl
  case mandrelTest =>
    intro o res s h hl
    exact congrArg Host.Outcome.next (runOrder_accepted h (Checks.pass_of (badObject := decide_eq_false (Nat.not_le.2 hl))))
  case csInject =>
    intro o s h hl
    exact exec_csInject h hl

end Sys2Proof.Machine
end

section
/-! SUPPORT. What the accepted orders of subject 11 do (11 R384, R387 to R390, R395 to R406): their checks pass, and the effect and
the reply are the order's own. -/

namespace Sys2Proof.Machine

section

variable {o : Order} {s : State}

/-- An accepted order whose effect ends in status `st` completes with it and its DATA (02 R65). -/
theorem runOrder_completes {f : Form} {u : State} {st d : Nat} {c : Checks} {body : State → State × Reply}
    (h : accepted f s o = true) (hc : c.pass = true) (hb : body s = (u, .done st d)) :
    .next (runOrder f o s c body) = (.next (complete u o st d) : Host.Outcome State Fault Refusal) :=
  congrArg _ (runOrder_gives h hc hb)

/-- An accepted order whose payload is here and good completes with the status `st` in which its effect ends. -/
theorem runPtr_completes {f : Form} {u : State} {st d : Nat} {c1 : Checks} {c2 : List Byte → Checks}
    {body : List Byte → State → State × Reply} {bs : List Byte} (h : accepted f s o = true) (hc : c1.pass = true)
    (hp : payloadHere s o bs = true) (h2 : (c2 bs).pass = true) (hb : body bs s = (u, .done st d)) :
    .next (runPtr f o s c1 c2 body) = (.next (complete u o st d) : Host.Outcome State Fault Refusal) :=
  congrArg _ (runPtr_gives h hc hp h2 hb)

/-- A SHAPER_SET with its rate, its burst and its overhead in range finds nothing wrong (11 Table 11-4). -/
theorem shaperSet_checks_pass (hi : o.inst < 8704)
    (hr : (o.b 0 && (decide (o.f 2 22 = 0) || decide (3200000 < o.f 2 22))) = false) (hb : 64 ≤ o.f 24 24)
    (ho : -64 ≤ signed 8 (o.f 48 8)) :
    Checks.pass
      { badObject := decide (8704 ≤ o.inst)
        badArgument := (o.b 0 && (decide (o.f 2 22 = 0) || decide (3200000 < o.f 2 22))) || decide (o.f 24 24 < 64) ||
          decide (signed 8 (o.f 48 8) < -64) } = true := by
  refine Checks.pass_of (badObject := decide_eq_false (Nat.not_le.2 hi)) (badArgument := ?_)
  rw [hr, Bool.or_eq_false_iff, Bool.or_eq_false_iff]
  exact ⟨⟨rfl, decide_eq_false (Nat.not_lt.2 hb)⟩, decide_eq_false (Int.not_lt.2 ho)⟩

/-- An ESC_SET of up to four distinct queues, its tags on a native port only, finds nothing wrong (11 R401). -/
theorem escSet_checks_pass {n : Nat} {qs : List Nat} (hn : n < 5) (hz : o.f (3 + 4 * n) (16 - 4 * n) = 0)
    (hd : qs.length ≤ qs.eraseDups.length) (ht : ((o.b 19 || o.b 20) && !isNative s o.inst) = false) :
    Checks.pass
      { malformed := decide (5 ≤ n) || decide (o.f (3 + 4 * n) (16 - 4 * n) ≠ 0)
        badArgument := decide (qs.eraseDups.length < qs.length)
        chapter := if (o.b 19 || o.b 20) && !isNative s o.inst then some 0x8602 else none } = true :=
  Checks.pass_of
    (malformed := Bool.or_eq_false_iff.2 ⟨decide_eq_false (Nat.not_le.2 hn), decide_eq_false (not_not_intro hz)⟩)
    (badArgument := decide_eq_false (Nat.not_lt.2 hd)) (chapter := if_neg (Bool.eq_false_iff.1 ht))

end

/-- Settles O23: each order's checks pass, and its effect is the model's. -/
theorem ordersOfEgressTakeEffect : Obligations.OrdersOfEgressTakeEffect := by
  refine ⟨?readSched, ?readGcl, ?readShaper, ?queueSchedSet, ?shaperSet, ?gclSet, ?gclCancel, ?pfcSet, ?escSet, ?stormRestore⟩
  case readSched =>
    intro o s h
    exact runOrder_returns h pass_empty rfl
  case readGcl =>
    intro o s h
    exact runOrder_returns h pass_empty rfl
  case readShaper =>
    intro o s h hi
    exact runOrder_returns h (Checks.pass_of (badObject := decide_eq_false (Nat.not_le.2 hi))) rfl
  case queueSchedSet =>
    intro o s h hw
    exact runOrder_succeeds h (Checks.pass_of (badArgument := decide_eq_false hw)) rfl
  case shaperSet =>
    intro o s burst ovh h hi hr hb ho
    exact runOrder_succeeds h (shaperSet_checks_pass hi hr hb ho) rfl
  case gclSet =>
    intro o s bs acc h hl hp hc
    exact runPtr_completes h (Checks.pass_of (malformed := hl)) hp hc rfl
  case gclCancel =>
    intro o s h hp
    exact runOrder_succeeds h (Checks.pass_of (chapter := if_neg (by simp [Option.isNone_eq_false_iff.2 hp]))) rfl
  case pfcSet =>
    intro o s wd rst h hq hlo hhi hrlo hrhi
    refine runOrder_succeeds h (Checks.pass_of (badArgument := ?_)) rfl
    simp [hq, hlo, hhi, hrlo, hrhi, wd, rst]
  case escSet =>
    intro o s n qs h hn hz hd ht
    exact runOrder_succeeds h (escSet_checks_pass hn hz hd ht) rfl
  case stormRestore =>
    intro o s h hs
    exact runOrder_succeeds h (Checks.pass_of (chapter := if_pos hs)) rfl

end Sys2Proof.Machine
end

section
/-! SUPPORT. What the accepted orders of subject 12 do (12 R418, R422, R423, R428, R429, R432): their checks pass, and the effect and
the reply are the order's own. -/

namespace Sys2Proof.Machine

section

variable {o : Order} {s : State} {bs : List Byte}

/-- An accepted order whose payload is here and good, and that a later command ends, goes on running. -/
theorem runPtr_goesOn {f : Form} {u : State} {c1 : Checks} {c2 : List Byte → Checks} {body : List Byte → State → State × Reply}
    (h : accepted f s o = true) (hc : c1.pass = true) (hp : payloadHere s o bs = true) (h2 : (c2 bs).pass = true)
    (hb : body bs s = (u, .later)) : .next (runPtr f o s c1 c2 body) = goesOn u f.opcode o :=
  congrArg _ (runPtr_gives h hc hp h2 hb)

/-- FANOUT_GROUP_SET: a set that enables gives the group its settings; one that disables it completes at once where the group
holds no packet, and else waits for its drain (12 R423). -/
theorem exec_fanoutGroupSet (h : accepted (ptrForm 0x4C02 [0xC2] 0x3F modesSet true) s o = true) (hl : ptrLen o = 128)
    (hp : payloadHere s o bs = true) (hc : (fanChecks s o.inst bs).pass = true) :
    exec (.fanoutGroupSet o) s =
      let g := o.inst
      let h := leNat (slice bs 0 64)
      if nfld h 0 1 = 1 then
        let t := updFan s g fun y =>
          { y with enable := true, record := nfld h 1 2, period := nfld h 8 16, leadNs := nfld h 32 32,
                   base5 := 5 * (dtCount (nfld h 64 96) : Int), limit := nfld h 160 13, members := fanMembers bs,
                   payload := padTo 128 bs }
        succeeds (configRecord t true g t.tb.dt t.tb.dt true (padTo 128 bs)) o 0
      else
        let t := updFan s g fun y => { y with enable := false, payload := padTo 128 bs }
        if (getFan t g).pkts.isEmpty then
          succeeds (postAll (configRecord t true g t.tb.dt t.tb.dt false (padTo 128 bs)) 0x0C05 0
            (packN [(0, 1, 1), (1, 6, g)])) o 0
        else goesOn (updFan t g fun y => { y with drain := some o }) 0x4C02 o := by
  refine (congrArg Host.Outcome.next
    (runPtr_accepted h (Checks.pass_of (malformed := bne_eq_false_iff_eq.2 hl)) hp hc)).trans ?_
  dsimp only
  (repeat' split) <;> rfl

/-- TRIM_SET: a trim that is already there is recorded and completes, any other becomes the target (12 R428). -/
theorem exec_trimSet (h : accepted (setForm 0x4C03 [0xC3] 0x1FF [(0, 7)] modesSet true) s o = true)
    (hlo : -32 ≤ signed 7 (o.f 0 7)) (hhi : signed 7 (o.f 0 7) ≤ 32) :
    exec (.trimSet o) s =
      let v := signed 7 (o.f 0 7)
      let x := getTrim s o.inst
      if x.cur = x.target ∧ x.cur = v then succeeds (trimRecord s o.inst v v) o (trimField v)
      else
        goesOn (updTrim s o.inst fun y =>
          { y with target := v, began := if y.cur = y.target then y.cur else y.began, orders := y.orders ++ [o],
                   stepAt := if y.cur = y.target then s.tb.now else y.stepAt }) 0x4C03 o :=
  runOrder_succeeds_or_goesOn h
    (Checks.pass_of (badArgument :=
      Bool.or_eq_false_iff.2 ⟨decide_eq_false (Int.not_lt.2 hlo), decide_eq_false (Int.not_lt.2 hhi)⟩)) rfl

end

/-- Settles O24: each order's checks pass, and its effect is the model's. -/
theorem ordersOfGroupsTakeEffect : Obligations.OrdersOfGroupsTakeEffect := by
  refine ⟨?readSeq, ?readFanout, ?readGrid, ?readGroupConfig, ?seqGroupSet, ?fanoutGroupSet, ?readTrim, ?trimSet, ?trimMeasure⟩
  case readSeq =>
    intro o s h
    exact runOrder_returns h pass_empty rfl
  case readFanout =>
    intro o s h
    exact runOrder_returns h pass_empty rfl
  case readGrid =>
    intro o s h
    exact runOrder_returns h pass_empty rfl
  case readGroupConfig =>
    intro o s fan h
    exact runOrder_returns h pass_empty rfl
  case seqGroupSet =>
    intro o s bs acc h hl hp hc
    exact runPtr_goesOn h (Checks.pass_of (malformed := bne_eq_false_iff_eq.2 hl)) hp hc rfl
  case fanoutGroupSet =>
    intro o s bs h hl hp hc
    exact exec_fanoutGroupSet h hl hp hc
  case readTrim =>
    intro o s h
    exact runOrder_succeeds h pass_empty rfl
  case trimSet =>
    intro o s v h hlo hhi
    exact exec_trimSet h hlo hhi
  case trimMeasure =>
    intro o s h
    exact runOrder_goesOn h pass_empty rfl

end Sys2Proof.Machine
end

section
/-! SUPPORT. What the accepted orders of subjects 13 and 14 do (13 R443, R456 to R460; 14 R467, R468, R472, R473): their checks pass,
and the effect and the reply are the order's own. -/

namespace Sys2Proof.Machine

section

variable {o : Order} {s : State}

/-- CONTEXT_SET clears its context, and gives it its settings or disables it (13 R459). -/
theorem exec_contextSet {bs : List Byte} (h : accepted (ptrForm 0x4D01 [0xD1] 0xFFF modesSet true) s o = true)
    (hl : ptrLen o = 192) (hp : payloadHere s o bs = true) (hc : (ctxChecks s o.inst bs).pass = true) :
    exec (.contextSet o) s =
      let h := leNat (slice bs 0 64)
      let n := o.inst
      let c := ctxCfgOf bs
      let t := ctxClear s n
      if nfld h 0 1 = 1 then
        succeeds (updCtx t n fun x =>
          { x with cfg := c, enabled := true, faulted := false, home := nfld h 67 4, base := c.first, sentCredit := c.window,
                   sentAt := t.tb.now }) o 0
      else succeeds (updCtx t n fun x => { x with enabled := false, faulted := false }) o 0 := by
  refine (congrArg Host.Outcome.next
    (runPtr_accepted h (Checks.pass_of (malformed := bne_eq_false_iff_eq.2 hl)) hp hc)).trans ?_
  dsimp only
  split <;> rfl

end

/-- Settles O25: each order's checks pass, and its effect is the model's. -/
theorem ordersOfReductionAndArbitersTakeEffect : Obligations.OrdersOfReductionAndArbitersTakeEffect := by
  refine ⟨?readContext, ?readCu, ?contextSet, ?contextMove, ?contextReset, ?collSet, ?readArb, ?arbSet, ?arbCommit⟩
  case readContext =>
    intro o s h
    exact runOrder_returns h pass_empty rfl
  case readCu =>
    intro o s h
    exact runOrder_returns h pass_empty rfl
  case contextSet =>
    intro o s bs h hl hp hc
    exact exec_contextSet h hl hp hc
  case contextMove =>
    intro o s x home h hh hm hr
    refine runOrder_goesOn h (Checks.pass_of (badArgument := beq_eq_false_iff_ne.2 hh) (chapter := ?_)) rfl
    exact (if_neg (Bool.eq_false_iff.1 hm)).trans (if_neg (Bool.eq_false_iff.1 hr))
  case contextReset =>
    intro o s x h hm hr
    refine runOrder_succeeds h (Checks.pass_of (chapter := ?_)) rfl
    exact (if_neg (Bool.eq_false_iff.1 hm)).trans (if_neg (Bool.eq_false_iff.1 hr))
  case collSet =>
    intro o s h hl
    exact runOrder_succeeds h (Checks.pass_of (badArgument := decide_eq_false (Nat.not_lt.2 hl))) rfl
  case readArb =>
    intro o s h
    exact runOrder_returns h pass_empty rfl
  case arbSet =>
    intro o s n all js h hall hres hbad hp hk
    exact runOrder_succeeds h (Checks.pass_of (malformed := Bool.or_eq_false_iff.2 ⟨hall, hres⟩) (badArgument := hbad)
      (chapter := (if_neg (Bool.eq_false_iff.1 hp)).trans (if_neg hk))) rfl
  case arbCommit =>
    intro o s h hp
    exact runOrder_goesOn h (Checks.pass_of (chapter := if_neg (Bool.eq_false_iff.1 hp))) rfl

end Sys2Proof.Machine
end

section
/-! SUPPORT. What the accepted orders of subject 15 do (15 R480 to R498): their checks pass, and the effect and the reply are the
order's own. -/

namespace Sys2Proof.Machine

/-- Settles O26: each order's checks pass, and its effect is the model's. -/
theorem ordersOfCountersTakeEffect : Obligations.OrdersOfCountersTakeEffect := by
  refine ⟨?readPortCounters, ?readSel, ?readHist, ?readSketch, ?readClear, ?readBw, ?selSet, ?selCtrl, ?histSet, ?sketchSet,
    ?evSet, ?bwSet⟩
  case readPortCounters =>
    intro o s h
    exact runOrder_returns h pass_empty rfl
  case readSel =>
    intro o s first n h hn
    exact runOrder_returns h (Checks.pass_of (badArgument := decide_eq_false (Nat.not_lt.2 hn))) rfl
  case readHist =>
    intro o s h
    exact runOrder_goesOn h pass_empty rfl
  case readSketch =>
    intro o s h
    exact runOrder_goesOn h pass_empty rfl
  case readClear =>
    intro o s h
    exact runOrder_goesOn h pass_empty rfl
  case readBw =>
    intro o s h
    exact runOrder_returns h pass_empty rfl
  case selSet =>
    intro o s i chain h he hc
    exact runOrder_succeeds h (Checks.pass_of (badArgument := he) (chapter := if_neg (Bool.eq_false_iff.1 hc))) rfl
  case selCtrl =>
    intro o s at_ first n h ha hd hn
    exact runOrder_succeeds h (Checks.pass_of (malformed := decide_eq_false ha)
      (badArgument := Bool.or_eq_false_iff.2 ⟨hd, decide_eq_false (Nat.not_lt.2 hn)⟩)) rfl
  case histSet =>
    intro o s log h hf hm hr
    exact runOrder_succeeds h (Checks.pass_of (malformed := Bool.or_eq_false_iff.2 ⟨hf, decide_eq_false hm⟩)
      (badArgument := hr)) rfl
  case sketchSet =>
    intro o s h hf hr
    exact runOrder_succeeds h (Checks.pass_of (malformed := hf) (badArgument := hr)) rfl
  case evSet =>
    intro o s bs w h hl hp hf hd
    exact runPtr_succeeds h (Checks.pass_of (malformed := bne_eq_false_iff_eq.2 hl)) hp
      (Checks.pass_of (malformed := Bool.or_eq_false_iff.2 ⟨congrArg not hf, beq_eq_false_iff_ne.2 hd⟩)) rfl
  case bwSet =>
    intro o s w h hlo hhi
    exact runOrder_succeeds h (Checks.pass_of (badArgument :=
      Bool.or_eq_false_iff.2 ⟨decide_eq_false (Nat.not_lt.2 hlo), decide_eq_false (Nat.not_lt.2 hhi)⟩)) rfl

/-- Settles O27: each order's checks pass, and its effect is the model's. -/
theorem ordersOfExportAndCaptureTakeEffect : Obligations.OrdersOfExportAndCaptureTakeEffect := by
  refine ⟨?readExport, ?readCapture, ?exportSet, ?exportTemplate, ?classSet, ?captureSet, ?captureFreeze, ?captureDrain⟩
  case readExport =>
    intro o s h
    exact runOrder_succeeds h pass_empty rfl
  case readCapture =>
    intro o s h
    exact runOrder_succeeds h pass_empty rfl
  case exportSet =>
    intro o s x coll len bad h hf hm hb
    exact runOrder_succeeds h (Checks.pass_of (malformed := Bool.or_eq_false_iff.2 ⟨hf, decide_eq_false hm⟩)
      (badArgument := hb)) rfl
  case exportTemplate =>
    intro o s bs h hl hp hz
    exact runPtr_succeeds h (Checks.pass_of (malformed := bne_eq_false_iff_eq.2 hl)) hp (Checks.pass_of (badArgument := hz)) rfl
  case classSet =>
    intro o s n h hi hlo hhi h64
    refine runOrder_succeeds h (Checks.pass_of (badObject := decide_eq_false hi) (badArgument := ?_)) rfl
    simp [hlo, hhi, h64, n]
  case captureSet =>
    intro o s h hm hs
    exact runOrder_succeeds h (Checks.pass_of (malformed := decide_eq_false hm) (chapter := if_neg hs)) rfl
  case captureFreeze =>
    intro o s h hs hp
    exact runOrder_succeeds h (Checks.pass_of (chapter := if_neg (by simp [hs, hp]))) rfl
  case captureDrain =>
    intro o s h hs
    exact runOrder_goesOn h (Checks.pass_of (chapter := if_neg (not_not_intro hs))) rfl

end Sys2Proof.Machine
end

section
/-! SUPPORT. What the accepted orders of subjects 16 and 17 do (16 R513, R514, R534, R535; 17 R544, R545, R553 to R555): their checks
pass, and the effect and the reply are the order's own. -/

namespace Sys2Proof.Machine

/-- Settles O28: each order's checks pass, and its effect is the model's. -/
theorem ordersOfPowerAndErrorsTakeEffect : Obligations.OrdersOfPowerAndErrorsTakeEffect := by
  refine ⟨?readPower, ?readPhase, ?readThermal, ?phaseSet, ?phaseSelect, ?phaseCancel, ?powerSet, ?readErrors, ?readFatal,
    ?errClose, ?cuIsolate, ?cuRestore⟩
  case readPower =>
    intro o s h
    exact runOrder_returns h pass_empty rfl
  case readPhase =>
    intro o s h
    exact runOrder_succeeds h pass_empty rfl
  case readThermal =>
    intro o s h
    exact runOrder_returns h pass_empty rfl
  case phaseSet =>
    intro o s ph h horder hopp hclo hchi hslo hshi
    refine runOrder_succeeds h (Checks.pass_of (malformed := decide_eq_false (Nat.not_lt.2 horder)) (badArgument := ?_)) rfl
    simp only [Bool.or_eq_false_iff, decide_eq_false_iff_not, Nat.not_lt]
    exact ⟨⟨⟨⟨hopp, hclo⟩, hchi⟩, hslo⟩, hshi⟩
  case phaseSelect =>
    intro o s at_ h ha
    exact runOrder_completes h (Checks.pass_of (badArgument := ha)) rfl
  case phaseCancel =>
    intro o s h hp
    exact runOrder_succeeds h (Checks.pass_of (chapter := if_neg (by simp [Option.isNone_eq_false_iff.2 hp]))) rfl
  case powerSet =>
    intro o s h hlo hhi
    exact runOrder_succeeds h (Checks.pass_of (badArgument :=
      Bool.or_eq_false_iff.2 ⟨decide_eq_false (Nat.not_lt.2 hlo), decide_eq_false (Nat.not_lt.2 hhi)⟩)) rfl
  case readErrors =>
    intro o s g h hg
    exact runOrder_returns h (Checks.pass_of (badObject := decide_eq_false (Nat.not_le.2 hg))) rfl
  case readFatal =>
    intro o s h
    exact runOrder_returns h pass_empty rfl
  case errClose =>
    intro o s g h hg
    exact runOrder_succeeds h (Checks.pass_of (badObject := decide_eq_false (Nat.not_le.2 hg))) rfl
  case cuIsolate =>
    intro o s h hi
    exact runOrder_goesOn h (Checks.pass_of (chapter := if_neg (Bool.eq_false_iff.1 hi))) rfl
  case cuRestore =>
    intro o s h hi
    exact runOrder_goesOn h (Checks.pass_of (chapter := if_pos hi)) rfl

end Sys2Proof.Machine
end

section
/-! SUPPORT. What the sequencer groups, the fan-out groups and the departure trims do by themselves (12 R413, R414, R418, R425, R426,
R428, R429; 09 R334): each event is the branch of its meaning that acts. -/

namespace Sys2Proof.Machine

section

variable {s : State} {g n : Nat}

/-- The first waiting set of a group takes effect once its instant has come (12 R418). -/
theorem seqTakes_due {p : SeqPend} {ps : List SeqPend} (hp : (getSeq s g).pend = p :: ps) (ht : p.ts ≤ s.tb.dt) :
    seqTakes s g =
      let was := (seqNow (getSeq s g)).enable
      let t := updSeq s g fun y =>
        { y with pend := ps, cfgs := (p.ts, p.cfg) :: y.cfgs, presented := if p.cfg.enable && !was then 0 else y.presented,
                 maxTransit := if p.cfg.enable && !was then 0 else y.maxTransit,
                 drain := if was && !p.cfg.enable then some p.order else y.drain }
      let t1 := configRecord t false g p.ts p.ts p.cfg.enable p.cfg.payload
      if was && !p.cfg.enable then seqDrained t1 g
      else finishThis t1 0x4C01 p.order (if p.moved then 0x0C01 else stSuccess) (fld (dtWord p.ts) 16 32) := by
  simp only [seqTakes, hp]
  exact if_neg (Nat.not_lt.2 ht)

/-- A delay line that has a move or an order to finish steps once its microsecond is over (12 R428). -/
theorem trimStep_acts (h : (getTrim s n).cur ≠ (getTrim s n).target ∨ (getTrim s n).orders.isEmpty ≠ true)
    (ht : (getTrim s n).stepAt + 1000 ≤ s.tb.now) :
    ¬ (((getTrim s n).cur = (getTrim s n).target ∧ (getTrim s n).orders.isEmpty = true) ∨
      s.tb.now < (getTrim s n).stepAt + 1000) := by
  rintro (⟨hc, ho⟩ | hn)
  · exact h.elim (· hc) (· ho)
  · exact Nat.not_lt.2 ht hn

end

/-- Settles O48: each event by the branch of its meaning that acts. -/
theorem groupAndTrimEventsTakeEffect : Obligations.GroupAndTrimEventsTakeEffect := by
  refine ⟨?change, ?present, ?prepare, ?release, ?stale, ?step, ?probe, ?timeout⟩
  case change =>
    intro g s p ps x was t t1 hp ht
    exact congrArg Host.Outcome.next (seqTakes_due hp ht)
  case present =>
    intro g s h hs c k x q t r t1 rec_ hh hc hm hd hn hk
    change execSeqPresent g s = _
    simp only [execSeqPresent, show (getSeq s g).held = h :: hs from hh,
      show ((getSeq s g).cfgs.find? fun c => c.2.enable) = some c from hc, hk]
    exact congrArg Host.Outcome.next (if_neg (by simp [hm, hd, show inCycle s (getSeq s g) < 4 from hn]))
  case prepare =>
    intro g port crcOk u s k c x hf hx
    change execFanoutCopyPrepare g port crcOk u s = _
    simp only [execFanoutCopyPrepare, hf, hx] <;> rfl
  case release =>
    intro g port u s k c wait hf
    change execFanoutCopyRelease g port u s = _
    simp only [execFanoutCopyRelease, hf]
    rfl
  case stale =>
    intro g port u s k c hf
    change execFanoutStale g port u s = _
    simp only [execFanoutStale, hf]
  case step =>
    intro n s x c h ht
    exact congrArg Host.Outcome.next (if_neg (trimStep_acts h ht))
  case probe =>
    intro n s m nonce t hm h16 hw hp
    change execTrimProbeSend n s = _
    simp only [execTrimProbeSend, hm]
    exact congrArg Host.Outcome.next (if_pos ⟨h16, hw, hp⟩)
  case timeout =>
    intro n s m t hm h16 ht
    change execTrimMeasureTimeout n s = _
    simp only [execTrimMeasureTimeout, hm]
    exact congrArg Host.Outcome.next (if_pos (.inl ⟨h16, ht⟩))

end Sys2Proof.Machine
end

section
/-! SUPPORT. The instants of SEL_CTRL (06 R210, R211; 15 R487): of the settings that are due, the one of the least instant acts
first, wherever it stands among those that wait. -/

namespace Sys2Proof.Machine

/-- A SEL_CTRL that starts counter 0 of slice 0 at DT 2. -/
def selLater : SelWait := ⟨0, 0, 2, 0, 1⟩

/-- A SEL_CTRL that starts counter 1 of slice 0 at DT 1. -/
def selEarlier : SelWait := ⟨0, 0, 1, 1, 1⟩

/-- DT is 2, so that both are due; the one of the later instant was accepted first. -/
def selBothDue : State :=
  (State.reset.updTb fun b => { b with dt := 2 }).updTel fun q => { q with selWaits := [selLater, selEarlier] }

/-- The one of the least instant acts, and the other goes on waiting. -/
theorem exec_selCtrlInstant_bothDue :
    exec .selCtrlInstant selBothDue =
      .next (selApply (selBothDue.updTel fun q => { q with selWaits := [selLater] }) selEarlier) := rfl

/-- Refutes O50: its first clause lets the oldest SEL_CTRL that is due act, where the model takes the one of the least instant
(06 R210, R211): in `selBothDue` the oldest is not the one that acts. -/
theorem not_telemetryArbiterAndErrorEventsTakeEffect : ¬ Obligations.TelemetryArbiterAndErrorEventsTakeEffect := by
  rintro ⟨selCtrl, -⟩
  have h := exec_selCtrlInstant_bothDue.symm.trans (selCtrl selBothDue selLater rfl)
  have hw := congrArg (fun t : State => t.tel.selWaits) (Host.Outcome.next.inj h)
  exact absurd hw (by decide)

end Sys2Proof.Machine
end

section
/-! SUPPORT. What the power controller, the phases, the pre-ramp requests and the temperature sensors do (13 R451, R452; 16 R503,
R505 to R509, R512, R514, R518, R519): each event is the branch of its meaning that acts. -/

namespace Sys2Proof.Machine

section

variable {s : State}

/-- A rail in range above its limit is acted on where its controller runs: rail 5 always, the others out of DORMANT (16 R503). -/
theorem railLimit_acts {j current : Nat} (hj : j < 6) (hc : railLimit j < current) (ha : awake s = true ∨ j = 5)
    (hv : s.pin.vaux = true) :
    (decide (6 ≤ j) || decide (current ≤ railLimit j) || (!awake s && j != 5) || !s.pin.vaux) = false := by
  have hrun : (!awake s && j != 5) = false := by
    rcases ha with ha | rfl
    · rw [ha]; rfl
    · exact Bool.and_false _
  rw [decide_eq_false (Nat.not_le.2 hj), decide_eq_false (Nat.not_le.2 hc), hrun, hv]
  rfl

end

/-- Settles O38: each event by the branch of its meaning that acts. -/
theorem powerAndThermalControlTakesEffect : Obligations.PowerAndThermalControlTakesEffect := by
  refine ⟨⟨?tickAwake, ?tickDormant⟩, ?slope, ?rail, ?request, ?complete, ?withdraw, ?expiry, ?phase, ?opp, ?sample, ?step⟩
  case tickAwake =>
    intro vin inputW loadW demand floors rails s hv ha
    change execPowerControlTick vin inputW loadW demand floors rails s = _
    simp only [execPowerControlTick, hv, ha, Bool.not_true, Bool.false_eq_true, if_false, if_true]
  case tickDormant =>
    intro vin inputW loadW demand floors rails s t hv ha
    change execPowerControlTick vin inputW loadW demand floors rails s = _
    simp only [execPowerControlTick, hv, ha, Bool.not_true, Bool.false_eq_true, if_false]
    rfl
  case slope =>
    intro want s ha
    exact congrArg Host.Outcome.next (if_pos ha)
  case rail =>
    intro j current held s t t1 hj hc ha hv
    exact congrArg Host.Outcome.next (if_neg (Bool.eq_false_iff.1 (railLimit_acts hj hc ha hv)))
  case request =>
    intro s r p room g t hr
    change execPrerampRequest s = _
    simp only [execPrerampRequest, hr]
    rfl
  case complete =>
    intro n s mine t he hm hg
    exact congrArg Host.Outcome.next (if_pos
      (Bool.and_eq_true_iff.2 ⟨Bool.and_eq_true_iff.2 ⟨he, hm⟩, decide_eq_true hg⟩))
  case withdraw =>
    intro n s due
    rfl
  case expiry =>
    intro n s hw hh
    exact congrArg Host.Outcome.next (if_pos (by simp [hw, hh]))
  case phase =>
    intro s x t hp ha ht
    change Host.Outcome.next (phaseTakes s) = _
    simp only [phaseTakes, hp]
    exact congrArg Host.Outcome.next (if_pos (by simp [ha, ht]))
  case opp =>
    intro s hm
    exact congrArg Host.Outcome.next (if_pos hm)
  case sample =>
    intro temps s l h hot t t1 t2 ha
    exact congrArg Host.Outcome.next (if_neg (by simp [ha]))
  case step =>
    intro s ha
    exact congrArg Host.Outcome.next (if_neg (by simp [ha]))

end Sys2Proof.Machine
end

section
/-! SUPPORT. ALERT_N (16 R526): bit 8 of RIVEL_STATUS, and the causes that drive it. -/

namespace Sys2Proof.Machine

/-- A field of one bit of a packed word is that bit of the word. -/
theorem testBit_packN {i : Nat} {b : Bool} {fs : List (Nat × Nat × Nat)} (hf : fieldsFrom 0 fs = true)
    (hm : (i, 1, b2n b) ∈ fs) : (packN fs).testBit i = b := by
  have hn : packN fs / 2 ^ i % 2 = b2n b := (nfld_packN hf hm).trans (b2n_mod b)
  rw [Nat.testBit_eq_decide_div_mod_eq, hn]
  cases b <;> rfl

theorem rivelStatus_testBit_alert (s : State) : (rivelStatus s).testBit 8 = alertLow s :=
  testBit_packN rfl (by simp)

theorem packN_eq_zero_iff {fs : List (Nat × Nat × Nat)} : packN fs = 0 ↔ ∀ f ∈ fs, f.2.2 % 2 ^ f.2.1 = 0 := by
  induction fs with
  | nil => simp [packN]
  | cons f fs ih =>
    obtain ⟨lo, len, v⟩ := f
    rw [packN, Nat.add_eq_zero_iff, Nat.mul_eq_zero, or_iff_left (Nat.two_pow_pos lo).ne', ih, List.forall_mem_cons]

theorem b2n_eq_zero_iff {b : Bool} : b2n b = 0 ↔ b = false := by
  cases b <;> decide

/-- RIVEL_LATCH is other than zero exactly where one of its latches is set. -/
theorem rivelLatch_ne_zero {r : RivSt} :
    rivelLatch r ≠ 0 ↔ r.flowLatch = true ∨ r.trayLatch = true ∨ r.critLatch = true ∨ r.pwrLostSeen = true ∨
      r.busFault = true := by
  simp only [rivelLatch, Ne, packN_eq_zero_iff, List.forall_mem_cons, b2n_mod, b2n_eq_zero_iff]
  simp [imp_iff_not_or]

/-- With VAUX on, ALERT_N is low exactly for one of its causes. -/
theorem alertLow_iff {s : State} (hv : s.pin.vaux = true) :
    alertLow s = true ↔ rivelLatch s.riv ≠ 0 ∨ s.pwr.capUnreach = true ∨ s.riv.advFlow = true ∨ s.riv.advInlet = true ∨
      s.riv.advHeart = true := by
  simp [alertLow, hv, or_assoc]

/-- Settles O57: bit 8 of RIVEL_STATUS is ALERT_N, and a latch is set where RIVEL_LATCH is not zero. -/
theorem alertIsHeldWhileAnyCauseIs : Obligations.AlertIsHeldWhileAnyCauseIs := by
  refine ⟨?held, ?released⟩
  case held =>
    intro s hv
    rw [rivelStatus_testBit_alert, alertLow_iff hv, rivelLatch_ne_zero]
    simp only [or_assoc]
  case released =>
    intro s
    exact ⟨vauxOff s, rfl, rfl, rfl, rfl⟩

end Sys2Proof.Machine
end

section
/-! SUPPORT. M0_DOORBELL (02 R71, R72; 20 R607): what makes its value a good doorbell, and the ring it then moves. -/

namespace Sys2Proof.Machine

/-! Fields of words (00 R9, R14) -/

theorem testBit_maskN (fs : List (Nat × Nat)) (i : Nat) :
    (maskN fs).testBit i = true ↔ ∃ f ∈ fs, f.1 ≤ i ∧ i < f.1 + f.2 := by
  induction fs with
  | nil => simp [maskN]
  | cons f fs ih =>
    obtain ⟨lo, len⟩ := f
    have hhead : ((2 ^ len - 1) * 2 ^ lo).testBit i = true ↔ lo ≤ i ∧ i < lo + len := by
      rw [Nat.testBit_mul_two_pow, Nat.testBit_two_pow_sub_one, Bool.and_eq_true_iff, decide_eq_true_iff, decide_eq_true_iff]
      omega
    rw [maskN, Nat.testBit_or, Bool.or_eq_true_iff, hhead, ih]
    simp

/-- A word keeps to some fields exactly where each of its bits that is set lies in one of them. -/
theorem onlyFields_iff {w : Nat} {fs : List (Nat × Nat)} :
    onlyFields w fs = true ↔ ∀ i, w.testBit i = true → ∃ f ∈ fs, f.1 ≤ i ∧ i < f.1 + f.2 := by
  simp only [onlyFields, beq_iff_eq, ← testBit_maskN]
  constructor
  · intro h i hi
    rw [← h, Nat.testBit_and, Bool.and_eq_true_iff] at hi
    exact hi.2
  · intro h
    refine Nat.eq_of_testBit_eq fun i => ?_
    rw [Nat.testBit_and, Bool.and_eq_left_iff_imp]
    exact h i

theorem testBit_nfld (w lo len i : Nat) : (nfld w lo len).testBit i = (decide (i < len) && w.testBit (lo + i)) := by
  rw [nfld, Nat.testBit_mod_two_pow, Nat.testBit_div_two_pow, Nat.add_comm]

theorem nfld_eq_zero_iff {w lo len : Nat} : nfld w lo len = 0 ↔ ∀ i < len, w.testBit (lo + i) = false := by
  constructor
  · intro h i hi
    have hb := testBit_nfld w lo len i
    rwa [h, Nat.zero_testBit, decide_eq_true hi, Bool.true_and, eq_comm] at hb
  · intro h
    refine Nat.eq_of_testBit_eq fun i => ?_
    rw [testBit_nfld, Nat.zero_testBit, Bool.and_eq_false_imp]
    exact fun hi => h i (of_decide_eq_true hi)

/-! Doorbells -/

/-- Bits 15:9 are the reserved bits of a doorbell's lower 32 bits (02 Table 2-14). -/
theorem doorbell_onlyFields_iff (v : Word) : onlyFields v.toNat [(0, 8), (8, 1), (16, 16)] = true ↔ fld v 9 7 = 0 := by
  simp only [onlyFields_iff, fld, nfld_eq_zero_iff, List.exists_mem_cons_iff, List.not_mem_nil, false_and, exists_false, or_false]
  constructor
  · intro h i hi
    rw [Bool.eq_false_iff]
    intro hb
    have := h _ hb
    omega
  · intro h i hb
    have hlt : i < 32 := (Nat.pow_lt_pow_iff_right (by decide)).1 (Nat.lt_of_le_of_lt (Nat.ge_two_pow_of_testBit hb) v.isLt)
    have hres : ¬ (9 ≤ i ∧ i < 16) := fun ⟨hlo, hhi⟩ => by
      have := h (i - 9) (by omega)
      rw [Nat.add_sub_cancel' hlo, hb] at this
      cases this
    omega

/-- An index that would make a ring more than full (02 R72). -/
def overfills (r : Ring) (x : BitVec 16) : Prop :=
  (r.type = 0 ∧ ringSize r - 1 < (x - r.dev).toNat) ∨ (r.type ≠ 0 ∧ ringSize r - 1 < (r.dev - x).toNat)

theorem doorbellOk_iff {r : Ring} {v : Word} {x : BitVec 16} :
    doorbellOk r v.toNat x = true ↔
      fld v 9 7 = 0 ∧ kindSuits (fld v 8 1) r = true ∧ r.enable = true ∧ ¬ overfills r x := by
  simp only [doorbellOk, Bool.and_eq_true_iff, doorbell_onlyFields_iff, fld, overfills, and_assoc]
  split <;> simp [*]

theorem exec_m0Doorbell {v : Word} {s : State} (hb : barOk s .m0 = true) :
    exec (.m0Doorbell v) s = .next (doorbell s .m0 (decide (fld v 0 8 < 4)) v.toNat) :=
  congrArg Host.Outcome.next (if_pos hb)

/-- Settles O56: a good value is one by Table 2-14 and R72 for one of the rings 0 to 3, any other is ignored with its event. -/
theorem m0DoorbellIsADoorbell : Obligations.M0DoorbellIsADoorbell := by
  intro v s n x r t full hb
  refine ⟨?bad, ?good⟩
  case bad =>
    intro h
    rw [exec_m0Doorbell hb]
    refine congrArg _ (doorbell_bad (h.imp (fun hn => decide_eq_false (Nat.not_lt.2 hn)) fun hbad => ?_))
    rw [Bool.eq_false_iff]
    intro hok
    obtain ⟨hres, hkind, hen, hfull⟩ := doorbellOk_iff.1 hok
    rcases hbad with hk | hr | he | hf
    · exact Bool.eq_false_iff.1 hk hkind
    · exact hr hres
    · exact Bool.eq_false_iff.1 he hen
    · exact hfull hf
  case good =>
    intro hn hkind hres hen hfull
    rw [exec_m0Doorbell hb, decide_eq_true hn]
    exact congrArg _ (doorbell_good (doorbellOk_iff.2 ⟨hres, hkind, hen, hfull⟩))

end Sys2Proof.Machine
end

section
/-! SUPPORT. Ownership at reset (02 Table 2-18). -/

namespace Sys2Proof.Machine

/-- Settles O7: nobody owns the device, so that there is neither a lease nor an offer nor a drain; LEASE_MS is 1,000. -/
theorem resetOwnershipIsSane : Obligations.ResetOwnershipIsSane where
  lease := rfl
  offer := nofun
  accept := nofun
  release := nofun
  expiry := nofun
  range := by decide

end Sys2Proof.Machine
end
